-- ==== Sys2Proof/Word.lean ====
section
/-! DEFINITION. The word types of the module and their plainest arithmetic (R24 to R26, R114). -/

namespace Sys2Proof

/-- A byte of memory (R24). -/
abbrev Byte := BitVec 8
/-- A 32-bit lane, literal or instruction word (R46, R114). -/
abbrev W32 := BitVec 32
/-- A 64-bit scalar register (R120). -/
abbrev W64 := BitVec 64
/-- A 57-bit virtual address (R155). -/
abbrev VA := BitVec 57
/-- The 32 lanes of a vector register (R114). -/
abbrev Lanes := Vector W32 32

/-- Lane `i` of a register; a number past the lanes reads 0. -/
def Lanes.lane (l : Lanes) (i : Nat) : W32 := if h : i < 32 then l[i] else 0

/-- The lanes given by a function of the lane number. -/
def Lanes.of (f : Nat → W32) : Lanes := Vector.ofFn fun i => f i.val

/-- Every lane holds `x`. -/
def Lanes.splat (x : W32) : Lanes := Lanes.of fun _ => x

/-- Lane `i` holds `wrap(b + i × c, 32)` (R114). -/
def Lanes.affine (b c : W32) : Lanes := Lanes.of fun i => b + BitVec.ofNat 32 i * c

/-- Lanes named by `m` from `new`, the others from `old`. -/
def Lanes.merge (m : W32) (new old : Lanes) : Lanes :=
  Lanes.of fun i => if m.getLsbD i then new.lane i else old.lane i

/-- The numbers of the lanes a mask names, ascending (R25). -/
def lanesOf (m : W32) : List Nat := (List.range 32).filter fun i => m.getLsbD i

/-- Number of set bits among the low `n` bits. -/
def popc (x : Nat) : Nat → Nat
  | 0 => 0
  | n + 1 => popc x n + (if x.testBit n then 1 else 0)

/-- Little-endian value of a list of bytes (R24). -/
def leNat : List Byte → Nat
  | [] => 0
  | b :: bs => b.toNat + 256 * leNat bs

/-- The `n` little-endian bytes of a value (R24). -/
def leBytes : Nat → Nat → List Byte
  | _, 0 => []
  | v, n + 1 => BitVec.ofNat 8 v :: leBytes (v / 256) n

/-- Bits `[hi:lo]` of a natural number. -/
def bits (v hi lo : Nat) : Nat := (v >>> lo) % 2 ^ (hi + 1 - lo)

/-- `n` bytes of a list from offset `o`. -/
def slice (l : List Byte) (o n : Nat) : List Byte := (l.drop o).take n

/-- Little-endian doubleword of a record at byte offset `o` (R78). -/
def dword (l : List Byte) (o : Nat) : W64 := BitVec.ofNat 64 (leNat (slice l o 8))

/-- `l` with element `i` replaced by `f` of it. -/
def modAt {α : Type} (l : List α) (i : Nat) (f : α → α) : List α := l.modify i f

/-- Name of one group or of its shadow: the team's number in this model, the group's number in the team,
and whether it is the shadow (R97). -/
structure GRef where
  team : Nat
  grp : Nat
  sh : Bool := false
deriving DecidableEq, Repr

/-- A unit of the module that a bezel may own (R306). -/
inductive UnitId where
  | core (n : Nat)
  | slice (n : Nat)
  | chan (n : Nat)
deriving DecidableEq, Repr

end Sys2Proof
end

