-- ==== Sys2Proof/Syntax.lean ====
section
/-! DEFINITION. The instructions: one constructor for each row of the opcode table. 211 rows are words of the clause
stream (R54, R61), 8 are pavé words (R345), and 63 are steps without a word (95_what_each_step_holds). The
arguments of a word's constructor are the bits its row leaves free. A step without a word takes what it acts on from
the state's `input`, an `Event`: the object's name and what comes from outside the machine (a host's data, the
result of a health test, the content of an arriving message). -/

namespace Sys2Proof

/-- What arrives at its home (R232): entry `i` of this module's stores on their way, or an operation by an agent of another
module: bytes of a store, a line of a `tcopy` with its tag (R269), a barrier arrival (R184), a ticket draw or completion (R189),
an atomic (R193), or a claim of a row (R280). `va` is the address that the agent used, `handle` its kernel, and `owner` the OWNER of
its translation. -/
inductive PostedSrc where
  | own (i : Nat)
  | ext (pa : Nat) (data : List Byte) (owner : Nat) (handle : W64)
  | extLine (sector : Nat) (data : List Byte) (tag : BitVec 16) (owner : Nat)
  | extArrive (pa : Nat) (va handle : W64) (count bytes : W32)
  | extDraw (pa : Nat) (va handle : W64)
  | extComplete (pa : Nat) (va ticket : W64)
  | extAtomic (pa : Nat) (op : BitVec 8) (etype : Nat) (operand expected : W32) (owner : Nat)
  | extClaim (pa : Nat) (va handle : W64) (owner : Nat)
deriving DecidableEq, Repr

/-- The descriptor line of a collective (R274). -/
structure CollDesc where
  seq : Nat
  func : Nat
  int : Bool
  root : Nat
  groups : Nat
  ranks : Nat
deriving DecidableEq, Repr

/-- The instructions and steps of the opcode table. -/
inductive Instr where
  /-- Unconditional branch of the executing slot to a clause-relative target (bra; R102). -/
  | bra (o : BitVec 24)
  /-- Branch when the named scalar is zero (brz; R102). -/
  | brz (d : BitVec 8) (i : BitVec 16)
  /-- Branch when the named scalar is nonzero (brnz; R102). -/
  | brnz (d : BitVec 8) (i : BitVec 16)
  /-- Write the address of the next clause to a scalar and branch (call; R102). -/
  | call (d : BitVec 8) (i : BitVec 16)
  /-- Branch to the address held in a scalar, trapping ALIGN if it is misaligned (ret; R102). -/
  | ret (a : BitVec 8)
  /-- Jump-table branch to base plus index shifted left by n (brx; R102). -/
  | brx (d : BitVec 8) (a : BitVec 8) (n : BitVec 8)
  /-- Start slot B at a target when its live mask is nonzero (split; R103). -/
  | split (i : BitVec 16)
  /-- Park the executing slot at join, or merge slot B into slot A when the other slot is parked there (join; R104). -/
  | join 
  /-- Push slot B's PC and mask onto the divergence stack in the stash and end slot B (dpush; R105). -/
  | dpush 
  /-- Pop a divergence-stack entry and restart slot B from it when the entry is valid (dpop; R105). -/
  | dpop 
  /-- Commit the current task and add the effective-mask lanes to EXITED (exit; R106). -/
  | exit 
  /-- Ask the scheduler to swap the group out at the end of its clause (yield; R107). -/
  | yield 
  /-- Write GMODE from imm16, trapping ILLOP on reserved values (mode; R59). -/
  | mode (i : BitVec 16)
  /-- No effect (nop; R107). -/
  | nop 
  /-- Write to a scalar the mask of effective-mask lanes whose value is nonzero, or whose bit 0 is set (ballot; R109). -/
  | ballot (d : BitVec 8) (a : BitVec 8) (f : BitVec 8)
  /-- Write 1 when every effective-mask lane is nonzero (vall; R109). -/
  | vall (d : BitVec 8) (a : BitVec 8)
  /-- Write 1 when some effective-mask lane is nonzero (vany; R109). -/
  | vany (d : BitVec 8) (a : BitVec 8)
  /-- Each lane takes the source lane that its index register names (shfl; R110). -/
  | shfl (d : BitVec 8) (a : BitVec 8) (b : BitVec 8)
  /-- Each lane takes the source lane i XOR n (shflx; R110). -/
  | shflx (d : BitVec 8) (a : BitVec 8) (n : BitVec 8)
  /-- Each lane takes the source lane i minus n, or its own lane at the edge (shflu; R110). -/
  | shflu (d : BitVec 8) (a : BitVec 8) (n : BitVec 8)
  /-- Each lane takes the source lane i plus n, or its own lane at the edge (shfld; R110). -/
  | shfld (d : BitVec 8) (a : BitVec 8) (n : BitVec 8)
  /-- Read register n of another group of the same team (rdlane; R111). -/
  | rdlane (d : BitVec 8) (a : BitVec 8) (n : BitVec 8)
  /-- Hold a write to register n of another group of the team and deliver it at commit (wrlane; R111). -/
  | wrlane (d : BitVec 8) (a : BitVec 8) (n : BitVec 8)
  /-- Sum each element over the effective-mask lanes in ascending order (lsum; R112). -/
  | lsum (d : BitVec 8) (a : BitVec 8)
  /-- Maximum over the effective-mask lanes (lmax; R112). -/
  | lmax (d : BitVec 8) (a : BitVec 8)
  /-- Minimum over the effective-mask lanes (lmin; R112). -/
  | lmin (d : BitVec 8) (a : BitVec 8)
  /-- Inclusive or exclusive sum, maximum or minimum scan over the effective-mask lanes (scan; R113). -/
  | scan (d : BitVec 8) (a : BitVec 8) (f : BitVec 8)
  /-- Each lane receives the popcount of a scalar mask below or above its own lane (mcount; R113). -/
  | mcount (d : BitVec 8) (a : BitVec 8) (f : BitVec 8)
  /-- 64-bit scalar add (sadd; R132). -/
  | sadd (d : BitVec 8) (a : BitVec 8) (b : BitVec 8)
  /-- 64-bit scalar subtract (ssub; R132). -/
  | ssub (d : BitVec 8) (a : BitVec 8) (b : BitVec 8)
  /-- Low 64 bits of the scalar product (smul; R132). -/
  | smul (d : BitVec 8) (a : BitVec 8) (b : BitVec 8)
  /-- High 64 bits of the signed scalar product (smulh; R132). -/
  | smulh (d : BitVec 8) (a : BitVec 8) (b : BitVec 8)
  /-- High 64 bits of the unsigned scalar product (smulhu; R132). -/
  | smulhu (d : BitVec 8) (a : BitVec 8) (b : BitVec 8)
  /-- Unsigned scalar division (sdivu; R132). -/
  | sdivu (d : BitVec 8) (a : BitVec 8) (b : BitVec 8)
  /-- Unsigned scalar remainder (sremu; R132). -/
  | sremu (d : BitVec 8) (a : BitVec 8) (b : BitVec 8)
  /-- Scalar AND (sand; R132). -/
  | sand (d : BitVec 8) (a : BitVec 8) (b : BitVec 8)
  /-- Scalar OR (sor; R132). -/
  | sor (d : BitVec 8) (a : BitVec 8) (b : BitVec 8)
  /-- Scalar XOR (sxor; R132). -/
  | sxor (d : BitVec 8) (a : BitVec 8) (b : BitVec 8)
  /-- Scalar AND NOT (sandn; R132). -/
  | sandn (d : BitVec 8) (a : BitVec 8) (b : BitVec 8)
  /-- Scalar shift left (sshl; R132). -/
  | sshl (d : BitVec 8) (a : BitVec 8) (b : BitVec 8)
  /-- Scalar logical shift right (sshr; R132). -/
  | sshr (d : BitVec 8) (a : BitVec 8) (b : BitVec 8)
  /-- Scalar arithmetic shift right (ssar; R132). -/
  | ssar (d : BitVec 8) (a : BitVec 8) (b : BitVec 8)
  /-- Signed scalar minimum (smin; R132). -/
  | smin (d : BitVec 8) (a : BitVec 8) (b : BitVec 8)
  /-- Signed scalar maximum (smax; R132). -/
  | smax (d : BitVec 8) (a : BitVec 8) (b : BitVec 8)
  /-- Unsigned scalar minimum (sminu; R132). -/
  | sminu (d : BitVec 8) (a : BitVec 8) (b : BitVec 8)
  /-- Unsigned scalar maximum (smaxu; R132). -/
  | smaxu (d : BitVec 8) (a : BitVec 8) (b : BitVec 8)
  /-- Scalar equality test (seq; R132). -/
  | seq (d : BitVec 8) (a : BitVec 8) (b : BitVec 8)
  /-- Signed scalar less-than test (slt; R132). -/
  | slt (d : BitVec 8) (a : BitVec 8) (b : BitVec 8)
  /-- Unsigned scalar less-than test (sltu; R132). -/
  | sltu (d : BitVec 8) (a : BitVec 8) (b : BitVec 8)
  /-- Bitwise select of two scalars under s29 (ssel; R132). -/
  | ssel (d : BitVec 8) (a : BitVec 8) (b : BitVec 8)
  /-- Extract a zero-extended scalar bit field (sbfe; R133). -/
  | sbfe (d : BitVec 8) (a : BitVec 8) (b : BitVec 8)
  /-- Insert a bit field into a scalar (sbfi; R133). -/
  | sbfi (d : BitVec 8) (a : BitVec 8) (b : BitVec 8)
  /-- Scalar population count (spopc; R134). -/
  | spopc (d : BitVec 8) (a : BitVec 8)
  /-- Scalar count of leading zeros (sclz; R134). -/
  | sclz (d : BitVec 8) (a : BitVec 8)
  /-- Scalar count of trailing zeros (sctz; R134). -/
  | sctz (d : BitVec 8) (a : BitVec 8)
  /-- Scalar move (smov; R134). -/
  | smov (d : BitVec 8) (a : BitVec 8)
  /-- Move a sign-extended 16-bit immediate to a scalar (smovi; R134). -/
  | smovi (d : BitVec 8) (i : BitVec 16)
  /-- Shift a scalar left 16 and OR in an immediate (smovh; R134). -/
  | smovh (d : BitVec 8) (i : BitVec 16)
  /-- Vector add per element (add; R136). -/
  | add (d : BitVec 8) (a : BitVec 8) (b : BitVec 8)
  /-- Vector subtract per element (sub; R136). -/
  | sub (d : BitVec 8) (a : BitVec 8) (b : BitVec 8)
  /-- Vector multiply per element (mul; R136). -/
  | mul (d : BitVec 8) (a : BitVec 8) (b : BitVec 8)
  /-- Fused multiply-add into the destination, rounded once (fma; R136). -/
  | fma (d : BitVec 8) (a : BitVec 8) (b : BitVec 8)
  /-- Fused multiply-subtract, rounded once (fms; R136). -/
  | fms (d : BitVec 8) (a : BitVec 8) (b : BitVec 8)
  /-- Destination minus product, rounded once (fnma; R136). -/
  | fnma (d : BitVec 8) (a : BitVec 8) (b : BitVec 8)
  /-- Vector minimum per element (min; R137). -/
  | min (d : BitVec 8) (a : BitVec 8) (b : BitVec 8)
  /-- Vector maximum per element (max; R137). -/
  | max (d : BitVec 8) (a : BitVec 8) (b : BitVec 8)
  /-- Vector absolute value (abs; R136). -/
  | abs (d : BitVec 8) (a : BitVec 8)
  /-- Vector negation (neg; R136). -/
  | neg (d : BitVec 8) (a : BitVec 8)
  /-- Vector move of 32-bit lane patterns (mov; R135). -/
  | mov (d : BitVec 8) (a : BitVec 8)
  /-- Vector bitwise AND (and; R138). -/
  | and (d : BitVec 8) (a : BitVec 8) (b : BitVec 8)
  /-- Vector bitwise OR (or; R138). -/
  | or (d : BitVec 8) (a : BitVec 8) (b : BitVec 8)
  /-- Vector bitwise XOR (xor; R138). -/
  | xor (d : BitVec 8) (a : BitVec 8) (b : BitVec 8)
  /-- Vector bitwise complement (not; R138). -/
  | not (d : BitVec 8) (a : BitVec 8)
  /-- Vector shift left per element (shl; R138). -/
  | shl (d : BitVec 8) (a : BitVec 8) (b : BitVec 8)
  /-- Vector logical shift right per element (shr; R138). -/
  | shr (d : BitVec 8) (a : BitVec 8) (b : BitVec 8)
  /-- Vector arithmetic shift right per element (sar; R138). -/
  | sar (d : BitVec 8) (a : BitVec 8) (b : BitVec 8)
  /-- High half of the exact element product (mulhi; R138). -/
  | mulhi (d : BitVec 8) (a : BitVec 8) (b : BitVec 8)
  /-- Clamp the destination between two operands (clamp; R137). -/
  | clamp (d : BitVec 8) (a : BitVec 8) (b : BitVec 8)
  /-- Select per lane between two operands under s29 (sel; R139). -/
  | sel (d : BitVec 8) (a : BitVec 8) (b : BitVec 8)
  /-- Lane mask of equal elements (cmpeq; R140). -/
  | cmpeq (d : BitVec 8) (a : BitVec 8) (b : BitVec 8)
  /-- Lane mask of lanes not equal (cmpne; R140). -/
  | cmpne (d : BitVec 8) (a : BitVec 8) (b : BitVec 8)
  /-- Lane mask of less-than lanes (cmplt; R140). -/
  | cmplt (d : BitVec 8) (a : BitVec 8) (b : BitVec 8)
  /-- Lane mask of less-or-equal lanes (cmple; R140). -/
  | cmple (d : BitVec 8) (a : BitVec 8) (b : BitVec 8)
  /-- Lane mask of lanes with an unordered element pair (cmpun; R140). -/
  | cmpun (d : BitVec 8) (a : BitVec 8) (b : BitVec 8)
  /-- Round each float element down to an integer (floor; R141). -/
  | floor (d : BitVec 8) (a : BitVec 8)
  /-- Round each float element up to an integer (ceil; R141). -/
  | ceil (d : BitVec 8) (a : BitVec 8)
  /-- Round each float element to the nearest integer, ties to even (rnde; R141). -/
  | rnde (d : BitVec 8) (a : BitVec 8)
  /-- Round each float element toward zero (trunc; R141). -/
  | trunc (d : BitVec 8) (a : BitVec 8)
  /-- x minus floor(x), rounded once (fract; R141). -/
  | fract (d : BitVec 8) (a : BitVec 8)
  /-- Replace each element's sign bit with the other operand's (copysign; R142). -/
  | copysign (d : BitVec 8) (a : BitVec 8) (b : BitVec 8)
  /-- Population count per element (popc; R142). -/
  | popc (d : BitVec 8) (a : BitVec 8)
  /-- Leading-zero count per element (clz; R142). -/
  | clz (d : BitVec 8) (a : BitVec 8)
  /-- Extract a bit field per 32-bit lane (bfe; R143). -/
  | bfe (d : BitVec 8) (a : BitVec 8) (b : BitVec 8)
  /-- Insert a bit field into each 32-bit lane of the destination (bfi; R143). -/
  | bfi (d : BitVec 8) (a : BitVec 8) (b : BitVec 8)
  /-- Two-element 16-bit dot product accumulated into F32, rounded once (dot2; R144). -/
  | dot2 (d : BitVec 8) (a : BitVec 8) (b : BitVec 8)
  /-- Swap halves or reverse bytes within each lane (swaph; R145). -/
  | swaph (d : BitVec 8) (a : BitVec 8) (f : BitVec 8)
  /-- Byte permutation of two sources under a selector held in the destination (perm; R145). -/
  | perm (d : BitVec 8) (a : BitVec 8) (b : BitVec 8)
  /-- Write base plus lane index times stride in each lane (lanes; R146). -/
  | lanes (d : BitVec 8) (a : BitVec 8) (b : BitVec 8)
  /-- Scale each float element by a power of two (ldexp; R146). -/
  | ldexp (d : BitVec 8) (a : BitVec 8) (b : BitVec 8)
  /-- Convert lane elements between two element types (cvt; R147). -/
  | cvt (d : BitVec 8) (a : BitVec 8) (f : BitVec 4) (g : BitVec 4)
  /-- Decode or encode one element between F32 and a format slot's format (cvtf; R148). -/
  | cvtf (d : BitVec 8) (a : BitVec 8) (e : BitVec 1) (j : BitVec 4) (s : BitVec 3)
  /-- Narrow two wide registers into one packed register (pack; R149). -/
  | pack (d : BitVec 8) (a : BitVec 8) (b : BitVec 8)
  /-- Widen the low packed elements (unpkl; R149). -/
  | unpkl (d : BitVec 8) (a : BitVec 8)
  /-- Widen the high packed elements (unpkh; R149). -/
  | unpkh (d : BitVec 8) (a : BitVec 8)
  /-- Correctly rounded reciprocal (rcp; R151). -/
  | rcp (d : BitVec 8) (a : BitVec 8)
  /-- Correctly rounded reciprocal square root (rsq; R151). -/
  | rsq (d : BitVec 8) (a : BitVec 8)
  /-- Correctly rounded square root (sqrt; R151). -/
  | sqrt (d : BitVec 8) (a : BitVec 8)
  /-- Base-2 exponential within 2 ulp (exp2; R152). -/
  | exp2 (d : BitVec 8) (a : BitVec 8)
  /-- Base-2 logarithm within 2 ulp (log2; R152). -/
  | log2 (d : BitVec 8) (a : BitVec 8)
  /-- sin(pi x) for x in [-1, 1] (sinpi; R153). -/
  | sinpi (d : BitVec 8) (a : BitVec 8)
  /-- cos(pi x) for x in [-1, 1] (cospi; R153). -/
  | cospi (d : BitVec 8) (a : BitVec 8)
  /-- Exact range reduction x - 2 rnde(x/2) (rred; R154). -/
  | rred (d : BitVec 8) (a : BitVec 8)
  /-- Hyperbolic tangent within 2 ulp (tanh; R152). -/
  | tanh (d : BitVec 8) (a : BitVec 8)
  /-- Correctly rounded division (div; R151). -/
  | div (d : BitVec 8) (a : BitVec 8) (b : BitVec 8)
  /-- Request n more vector registers from the team's share and wait for the grant or a failure (rgrow; R126). -/
  | rgrow (d : BitVec 8) (i : BitVec 16)
  /-- Release the top n vector registers to be held by the current task (rshrink; R127). -/
  | rshrink (i : BitVec 16)
  /-- Request n more tiles from the team's share (trgrow; R126). -/
  | trgrow (d : BitVec 8) (i : BitVec 16)
  /-- Release the top n tiles to be held by the current task (trshrink; R127). -/
  | trshrink (i : BitVec 16)
  /-- Read a register's shape tag, lane-0 value or stride (vshape; R128). -/
  | vshape (d : BitVec 8) (a : BitVec 8) (f : BitVec 8)
  /-- Read a system register into a scalar (sread; R122). -/
  | sread (d : BitVec 8) (n : BitVec 8)
  /-- Write DSP from a scalar; any other register traps ILLOP (swrite; R122). -/
  | swrite (a : BitVec 8) (n : BitVec 8)
  /-- Load a 64-bit scalar from two consecutive literals (slit; R129). -/
  | slit (d : BitVec 8) (n : BitVec 8)
  /-- Load a 32-bit word per lane (ld; R169). -/
  | ld (d : BitVec 8) (a : BitVec 8) (b : BitVec 8)
  /-- Load a zero-extended 16-bit value per lane (ld16; R169). -/
  | ld16 (d : BitVec 8) (a : BitVec 8) (b : BitVec 8)
  /-- Load a zero-extended byte per lane (ld8; R169). -/
  | ld8 (d : BitVec 8) (a : BitVec 8) (b : BitVec 8)
  /-- Hold a 32-bit store per lane in the task's version (st; R169). -/
  | st (d : BitVec 8) (a : BitVec 8) (b : BitVec 8)
  /-- Hold a 16-bit store per lane (st16; R169). -/
  | st16 (d : BitVec 8) (a : BitVec 8) (b : BitVec 8)
  /-- Hold a byte store per lane (st8; R169). -/
  | st8 (d : BitVec 8) (a : BitVec 8) (b : BitVec 8)
  /-- Load 64 bits into a scalar (lds; R170). -/
  | lds (d : BitVec 8) (a : BitVec 8) (b : BitVec 8)
  /-- Hold a 64-bit scalar store (sts; R170). -/
  | sts (d : BitVec 8) (a : BitVec 8) (b : BitVec 8)
  /-- Load a 128-byte block, four bytes per lane (ldb; R171). -/
  | ldb (d : BitVec 8) (a : BitVec 8) (b : BitVec 8)
  /-- Hold a 128-byte block store (stb; R171). -/
  | stb (d : BitVec 8) (a : BitVec 8) (b : BitVec 8)
  /-- Map stash blocks onto global sectors, all or nothing (smap; R167). -/
  | smap (d : BitVec 8) (a : BitVec 8) (b : BitVec 8)
  /-- Write back dirty mapped blocks and unmap them (sunmap; R167). -/
  | sunmap (a : BitVec 8)
  /-- Write back dirty mapped blocks and keep them mapped (sflush; R167). -/
  | sflush (a : BitVec 8)
  /-- Release, acquire or both at a scope, optionally waiting for posted stores (fence; R173). -/
  | fence (l : BitVec 1) (k : BitVec 2) (s : BitVec 3)
  /-- Hand a shape-record gather or scatter to the copy engine (cpy; R175). -/
  | cpy (d : BitVec 8) (a : BitVec 8) (b : BitVec 8)
  /-- Prefetch lines to L2 and L1 without trapping or faulting (pref; R172). -/
  | pref (a : BitVec 8) (b : BitVec 8)
  /-- Hold the initialisation of a barrier object for delivery at commit (binit; R183). -/
  | binit (d : BitVec 8) (a : BitVec 8) (b : BitVec 8)
  /-- Commit the task and arrive on a barrier object (barr; R184). -/
  | barr (a : BitVec 8) (f : BitVec 8)
  /-- Commit the task, arrive and announce expected bytes on a barrier object (barx; R184). -/
  | barx (a : BitVec 8) (b : BitVec 8)
  /-- Commit the task and wait until an object's phase reaches a target (bwait; R186). -/
  | bwait (a : BitVec 8) (b : BitVec 8)
  /-- Atomic add at each lane's address (atadd; R193). -/
  | atadd (d : BitVec 8) (a : BitVec 8) (b : BitVec 8)
  /-- Atomic minimum (atmin; R193). -/
  | atmin (d : BitVec 8) (a : BitVec 8) (b : BitVec 8)
  /-- Atomic maximum (atmax; R193). -/
  | atmax (d : BitVec 8) (a : BitVec 8) (b : BitVec 8)
  /-- Atomic AND (atand; R193). -/
  | atand (d : BitVec 8) (a : BitVec 8) (b : BitVec 8)
  /-- Atomic OR (ator; R193). -/
  | ator (d : BitVec 8) (a : BitVec 8) (b : BitVec 8)
  /-- Atomic XOR (atxor; R193). -/
  | atxor (d : BitVec 8) (a : BitVec 8) (b : BitVec 8)
  /-- Atomic exchange (atxch; R193). -/
  | atxch (d : BitVec 8) (a : BitVec 8) (b : BitVec 8)
  /-- Atomic compare-and-swap applied in ascending lane order (atcas; R195). -/
  | atcas (d : BitVec 8) (a : BitVec 8) (b : BitVec 8)
  /-- Commit, draw a ticket and complete it once earlier stores are visible at device scope (tlinc; R190). -/
  | tlincSignal (d : BitVec 8) (a : BitVec 8)
  /-- Draw a ticket and leave it pending (tlinc; R190). -/
  | tlincReserve (d : BitVec 8) (a : BitVec 8)
  /-- Apply complete(t) to a counter as a release at device scope (tlinc; R190). -/
  | tlincComplete (d : BitVec 8) (a : BitVec 8)
  /-- Read DONE, NEXT or BITMAP of a timeline counter (tlrd; R191). -/
  | tlrd (d : BitVec 8) (a : BitVec 8) (f : BitVec 8)
  /-- Zero the rows of a tile in the row set (tzero; R207). -/
  | tzero (t : BitVec 4)
  /-- Queue a matrix multiply-accumulate of memory operands into a tile (mma; R203). -/
  | mma (t : BitVec 4) (a : BitVec 8) (b : BitVec 8)
  /-- Queue a tile load from memory, decoding to F32 (tld; R207). -/
  | tld (t : BitVec 4) (a : BitVec 8)
  /-- Queue a tile store encoded into a slot's format and held in the task's version (tst; R207). -/
  | tst (t : BitVec 4) (a : BitVec 8)
  /-- Convert tile elements between I32, N32 and F32 (tcvt; R208). -/
  | tcvt (t : BitVec 4) (u : BitVec 4) (f : BitVec 4) (g : BitVec 4)
  /-- Read one tile column into a vector register (tcolr; R210). -/
  | tcolr (d : BitVec 8) (u : BitVec 4) (c : BitVec 8)
  /-- Write one tile column from a vector operand (tcolw; R210). -/
  | tcolw (t : BitVec 4) (a : BitVec 8) (c : BitVec 8)
  /-- Wait until the group's earlier tile instructions have left the matrix queue (mfence; R211). -/
  | mfence 
  /-- Read RP, fenced sub-arrays, queue depth or batch numbers (rprd; R212). -/
  | rprd (d : BitVec 8) (f : BitVec 8)
  /-- Run the matrix unit's self-test patterns and write the status into a tile (stest; R214). -/
  | stest (t : BitVec 4)
  /-- Multiply tile elements by per-row or per-column factors (tscale; R209). -/
  | tscale (t : BitVec 4) (a : BitVec 8) (f : BitVec 8)
  /-- Open a flow end from a flow record and return its handle or a refusal (fopen; R260). -/
  | fopen (d : BitVec 8) (a : BitVec 8)
  /-- Queue a coded transfer on a send end (fsend; R261). -/
  | fsend (d : BitVec 8) (a : BitVec 8) (b : BitVec 8)
  /-- Queue a coded transfer to the multicast members a mask names (fmcast; R261). -/
  | fmcast (d : BitVec 8) (a : BitVec 8) (b : BitVec 8)
  /-- Hold a reseed of every mirror slot of a send end for delivery at commit (freseed; R262). -/
  | freseed (a : BitVec 8)
  /-- Hold the closing of a flow end for delivery at commit (fclose; R262). -/
  | fclose (a : BitVec 8)
  /-- Read state, coded bytes, payload bytes, resends or queued transfers of a flow end (fstat; R264). -/
  | fstat (d : BitVec 8) (a : BitVec 8) (f : BitVec 8)
  /-- Enter a collective: the communication group drives the sequencer and the others queue their tiles (coll; R273). -/
  | coll (d : BitVec 8) (a : BitVec 8) (b : BitVec 8)
  /-- Configure and open a ring from a ring record at commit (cring; R270). -/
  | cringCfg (a : BitVec 8) (n : BitVec 3)
  /-- Raise the ring's RELEASED count at commit as a release (cring; R270). -/
  | cringRel (a : BitVec 8) (n : BitVec 3)
  /-- Close a ring once no tcopy on it is outstanding (cring; R270). -/
  | cringClose (a : BitVec 8) (n : BitVec 3)
  /-- Release, then write a tagged 1,024-byte line into a peer's ring (tcopy; R271). -/
  | tcopy (d : BitVec 8) (a : BitVec 8) (b : BitVec 8)
  /-- Hand an expert-routing command that claims destination rows to the sequencer (xroute; R279). -/
  | xroute (d : BitVec 8) (a : BitVec 8) (b : BitVec 8)
  /-- Hold a switch-table update for delivery at commit (xtable; R277). -/
  | xtable (a : BitVec 8)
  /-- Commit the current task and begin a new one with a recipe and sector bound (task; R286). -/
  | task (n : BitVec 8) (r : BitVec 8)
  /-- Deliver SWTRAP when the named scalar is nonzero (trap; R294). -/
  | trap (d : BitVec 8) (i : BitVec 16)
  /-- Return from recompute code or a handler (tret; R295). -/
  | tret 
  /-- Set MASKED (tmask; R296). -/
  | tmask 
  /-- Clear MASKED (tunmask; R296). -/
  | tunmask 
  /-- Kill the effective-mask lanes (lkill; R296). -/
  | lkill 
  /-- Commit and take one inbound mailbox message (mbrecv; R71). -/
  | mbrecv (d : BitVec 8) (a : BitVec 8)
  /-- Hold an outbound message for delivery at commit (mbsend; R72). -/
  | mbsend (d : BitVec 8) (a : BitVec 8) (b : BitVec 8)
  /-- Read waiting or free counts, PHASE, HEAD or rejects of a mailbox (mbpeek; R73). -/
  | mbpeek (d : BitVec 8) (a : BitVec 8) (f : BitVec 8)
  /-- Commit, read a launch record and create a kernel or return a refusal (launch; R85). -/
  | launch (d : BitVec 8) (a : BitVec 8)
  /-- Read a kernel slot's state, counts or ticket (kquery; R86). -/
  | kquery (d : BitVec 8) (a : BitVec 8) (f : BitVec 8)
  /-- Commit and deliver a cancel event to a kernel (kcancel; R87). -/
  | kcancel (a : BitVec 8)
  /-- Commit and stop a running kernel's resident teams, saving or rewinding them (kpreempt; R87). -/
  | kpreemptSave (a : BitVec 8)
  /-- Commit and stop a kernel's teams, discarding them when it is RESTARTABLE (kpreempt; R87). -/
  | kpreemptDiscard (a : BitVec 8)
  /-- Open an activity from a record and return its handle and ticket (aopen; R333). -/
  | aopen (d : BitVec 8) (a : BitVec 8)
  /-- Commit and push a compensator entry with the next clasp timestamp (astep; R334). -/
  | astep (d : BitVec 8) (a : BitVec 8) (b : BitVec 8)
  /-- Commit and close an activity, dropping its stack (aclose; R335). -/
  | aclose (a : BitVec 8)
  /-- Commit and abandon an activity so that its compensators run (aabandon; R335). -/
  | aabandon (a : BitVec 8)
  /-- Read an activity's state, top timestamp, blocker or compensator handle (aquery; R336). -/
  | aquery (d : BitVec 8) (a : BitVec 8) (f : BitVec 8)
  /-- Retry, skip or discard at a BROKEN activity (aresolve; R337). -/
  | aresolve (a : BitVec 8) (b : BitVec 8)
  /-- Record a compensator's status and exit (acret; R338). -/
  | acret (a : BitVec 8)
  /-- Snapshot the input vector and queue a pavé program at every engine of a channel set (pvsub; R347). -/
  | pvsub (d : BitVec 8) (a : BitVec 8) (b : BitVec 8)
  /-- Commit and refill a PAVE page with encrypted plaintext under a new generation (pvfill; R344). -/
  | pvfill (d : BitVec 8) (a : BitVec 8)
  /-- Read an engine's state or a PAVE page's RB and GEN (pvstat; R350). -/
  | pvstat (d : BitVec 8) (a : BitVec 8) (f : BitVec 8)
  /-- Pavé word with no effect (pv.nop; R345). -/
  | pvNop 
  /-- Copy n elements of the vector snapshot into the vector buffer (pv.vec; R346). -/
  | pvVec (o : BitVec 14) (n : BitVec 14)
  /-- Set the row base and count and clear the accumulators (pv.rows; R346). -/
  | pvRows (f : BitVec 15) (n : BitVec 10)
  /-- Accumulate weight rows times the vector buffer in blocks of 16 (pv.mac; R346). -/
  | pvMac (c : BitVec 14) (l : BitVec 14)
  /-- Multiply every accumulator by a BF16 factor (pv.scale; R346). -/
  | pvScale (s : BitVec 16)
  /-- Write the accumulators of this engine's rows to OUT (pv.out; R346). -/
  | pvOut 
  /-- Wait until earlier pv.out writes of this engine have taken effect (pv.sync; R346). -/
  | pvSync 
  /-- Drain outputs and end the engine's part of the command (pv.end; R346). -/
  | pvEnd 
  /-- Commit and apply a form, grow, shrink, dissolve or release request at the resource arbiter (bzreq; R312). -/
  | bzreq (d : BitVec 8) (a : BitVec 8)
  /-- Start a key draw for an EMPTY slot and return its status when it ends (keygen; R355). -/
  | keygenGenerate (d : BitVec 8) (a : BitVec 8)
  /-- Zero a slot's keys and remove its seal (keygen; R355). -/
  | keygenDestroy (d : BitVec 8) (a : BitVec 8)
  /-- Seal a key slot to a bezel and return its handle (keyseal; R355). -/
  | keyseal (d : BitVec 8) (a : BitVec 8) (b : BitVec 8)
  /-- Commit and have Signet write a signed attestation report (attest; R358). -/
  | attest (d : BitVec 8) (a : BitVec 8) (b : BitVec 8)
  /-- Hold a SOFTWARE Locket event for appending at commit (locketw; R365). -/
  | locketw (d : BitVec 8) (a : BitVec 8) (c : BitVec 8)
  /-- Read a doubleword of a capability header (caprd; R371). -/
  | caprd (d : BitVec 8) (a : BitVec 8) (f : BitVec 8)
  /-- Commit, wait for earlier stores, and remove translations of a range from every TLB of the bezel (tlbinv; R366). -/
  | tlbinv (a : BitVec 8) (f : BitVec 8)
  /-- Commit, wait for earlier stores, free a pending-fault entry and retry every access that joined it (fltret; R374). -/
  | fltret (a : BitVec 8)
  /-- A group fetches and decodes a whole clause of header, instruction words and literals before any of its instructions issues (event; R46). -/
  | clauseFetch
  /-- Once every flag named in WAIT is clear, a decoded clause starts and its instructions issue in order under the effective mask (event; R50). -/
  | clauseStart
  /-- A long-latency operation completes, returns its data where it has any, and lowers the count of the flag it tagged (event; R51). -/
  | operationCompletion
  /-- The sub-core scheduler swaps a not-ready or yielding group out of the active set and swaps in the PENDING group that has been ready longest (event; R99). -/
  | groupSwap
  /-- A group with no live slot, every flag clear and no mbat operation outstanding becomes EXITED and returns its group slot (event; R88). -/
  | groupExitDrain
  /-- The oldest pending register or tile request on a share is granted once enough units are free (event; R124). -/
  | shareGrant
  /-- A translation walk, once a walker is free, ends with a leaf or a fault, and the waiting access proceeds or parks (event; R162). -/
  | pageWalkComplete
  /-- A fault record waiting for a free slot in the fault mailbox is sealed there (event; R164). -/
  | faultRecordDelivery
  /-- Another agent's write, atomic, copy or smap recalls a mapped stash block, once any uncommitted version in it commits (event; R166). -/
  | stashRecall
  /-- An access waiting on a stash block held by another group's open task proceeds when that task commits or rewinds (event; R224). -/
  | blockedAccessResume
  /-- The copy engine finishes every box element, subtracts the box bytes from the completion object's PENDING and completes (event; R175). -/
  | copyEngineComplete
  /-- A lease on an L1 line or a local copy of remote memory runs out after at most 8,192 fabric cycles (event; R226). -/
  | leaseExpiry
  /-- A posted store reaches its home on another device, takes effect and is acknowledged (event; R232). -/
  | postedStoreArrival
  /-- The home re-evaluates a waiting bwait at a phase advance and releases the group with an acquire (event; R186). -/
  | bwaitSatisfied
  /-- A ticket draw waiting for NEXT - DONE to fall to 64 takes its ticket (event; R189). -/
  | ticketDrawResume
  /-- The matrix unit executes a queued tile operation in queue order and it leaves the queue (event; R197). -/
  | matrixOpComplete
  /-- A send end, its previous transfer ended, codes and sends each chunk of the next queued transfer and its trailer (event; R253). -/
  | transferStart
  /-- A receive end accepts, holds or discards an arriving chunk by its generation and lands accepted data (event; R254). -/
  | chunkArrival
  /-- A receive end judges a transfer at its trailer and answers ACK, NACK or GONE (event; R254). -/
  | trailerArrival
  /-- A sender answers a NACK with RAW resends, or ends the transfer for a GONE receiver (event; R255). -/
  | nackArrival
  /-- A sender records an ACK and, at the last answer, completes the transfer, its ticket and its flag (event; R256). -/
  | ackArrival
  /-- The backoff after an ABSENT NACK expires and the sender resends the named chunks or trailer (event; R255). -/
  | absentRetryTimer
  /-- A receive end applies RESEED to every slot and acknowledges it (event; R262). -/
  | reseedArrival
  /-- A closing send end with nothing outstanding frees its flow number and becomes CLOSED (event; R245). -/
  | flowCloseComplete
  /-- A tcopy waiting for the destination ring's RELEASED writes its line (event; R271). -/
  | tcopyCreditGrant
  /-- A tagged write to a ring line is reported to the ring's home and PHASE advances over lines arrived in order (event; R269). -/
  | ringLineReport
  /-- A rank's collective object receives a descriptor line and, at the NR-th, starts running or reports MISMATCH (event; R274). -/
  | descriptorReceive
  /-- A contributing group's coll entry reaches its matrix queue head and its tile is read (event; R273). -/
  | contribEntryHead
  /-- Every result is written at a rank, the status word is written and the completion object receives its arrival (event; R274). -/
  | collectiveComplete
  /-- A capacity object's home grants a row or replies FULL to one claim (event; R279). -/
  | capacityClaim
  /-- The sequencer takes a claim's reply, writes the granted row and tag or tries the next replica or spill, and completes at the last packet (event; R279). -/
  | claimReply
  /-- Once the task's operations have drained and the shadow compared, its version is released and a new checkpoint written (event; R287). -/
  | taskCommit
  /-- A non-fatal trap settles the version, writes the trap report and starts the handler, or a fatal one terminates the team (event; R292). -/
  | trapDelivery
  /-- A group takes a PROT or RANK found later by a unit at its next issue point (event; R375). -/
  | deferredTrapTake
  /-- Every engine has acknowledged the stop and the team's image is complete, so the context becomes SAVED (event; R298). -/
  | stopComplete
  /-- A stop held by a masked group times out, flashing it back or terminating the team with PREEMPT_TIMEOUT (event; R300). -/
  | maskedHoldTimeout
  /-- The dispatcher finds a core that fits a saved team and loads its image (event; R297). -/
  | contextRestore
  /-- A host write covering a slot's seal word is accepted or rejected, and PHASE advances over consecutive seals (event; R67). -/
  | sealArrival
  /-- A device store to a mailbox object's fields is applied or discarded by ENABLE (event; R65). -/
  | mailboxFieldStore
  /-- A host write to a mailbox object sets an outbound HEAD or is discarded and recorded (event; R65). -/
  | hostMailboxWrite
  /-- CXL.cache completes both writes of an outbound message, PHASE advances and MSI-X is sent if asked (event; R72). -/
  | outboundPhaseAdvance
  /-- A die's team dispatcher scans the launch queues and places the next fitting team on the lowest fitting core (event; R76). -/
  | teamDispatch
  /-- Teams ended, stores acknowledged, engines stopped and state scrubbed, so the kernel reaches its final state and its ticket completes (event; R83). -/
  | retirementComplete
  /-- Once every later entry sharing a key is resolved, the clasp unit stages the arguments and launches the top entry's compensator (event; R329). -/
  | compensatorLaunch
  /-- A compensator retires and its entry is popped, or the activity becomes BROKEN with a COMPFAIL record (event; R324). -/
  | compensatorRetire
  /-- An idle pavé engine resets its state and fetches word 0 of the command at its queue head (event; R341). -/
  | paveCommandStart
  /-- Every engine of the set has ended, the status word is written and the ticket completes (event; R347). -/
  | paveCommandComplete
  /-- A fill writes every sector under the new GEN, resumes reads of the page and completes its ticket (event; R344). -/
  | paveFillComplete
  /-- The sweeper has moved every line to its new home, the old slice hash is dropped and leaving slices are written back (event; R315). -/
  | rehashSweepComplete
  /-- A quarantined core, slice or channel finishes scrubbing and becomes FREE (event; R307). -/
  | unitScrubComplete
  /-- A key draw passes or fails its health test, the slot becomes READY or EMPTY and waiting kernels are admitted or refused (event; R356). -/
  | keyDrawComplete
  /-- The retest 1 ms after the last failure passes or fails, moving the generator to HEALTHY, RETESTING or FENCED (event; R356). -/
  | generatorRetest
  /-- A host CXL.mem write lands in an open sector or is discarded and audited for a tenant sector (event; R359). -/
  | hostMemWrite
  /-- A host CXL.mem read returns open contents, or zeros with an audit event for a tenant sector (event; R359). -/
  | hostMemRead
  /-- An undelivered audit record is sealed into the tenant's fault mailbox when a slot is free (event; R359). -/
  | auditRecordDelivery
  /-- MCMD := 1 in CONFIG_OPEN locks the config registers (event; R372). -/
  | mcmdLock
  /-- MCMD := 2 in CONFIG_LOCKED with ENTROPY 0 forms the first bezel from BOOTBZ and enters RUN (event; R372). -/
  | mcmdRun
  /-- MCMD := 3 while ENTROPY is 1 draws the open key again (event; R372). -/
  | mcmdDrawOpenKey
  /-- A host write to a BAR0 register without a row of its own is applied whole or rejected with a completer abort (event; R372). -/
  | bar0Write
  /-- Power above the limit or a hot die changes the clock step at a clock boundary (event; R373). -/
  | throttleStep
  /-- Cold reset zeroes the Locket, measures firmware, draws the open key and enters CONFIG_OPEN (event; R372). -/
  | coldReset
  /-- Warm reset keeps the Locket with a RESET event, draws the open key and re-enters configuration (event; R364). -/
  | warmReset
  /-- A host read of a BAR0 register over CXL.io returns its value, or in RUN returns zero for a register off the allow-list and raises a BLOCKED Locket event and an audit record (event; R359). -/
  | bar0Read
deriving DecidableEq, Repr

/-- The inputs of the steps without a word. -/
inductive Event where
  /-- Input of CLAUSE_FETCH (R46). -/
  | clauseFetch (g : GRef)
  /-- Input of CLAUSE_START (R50). -/
  | clauseStart (g : GRef)
  /-- Input of OPERATION_COMPLETION (R51); `lanes`: the lanes whose data returns in this event (R53). -/
  | operationCompletion (g : GRef) (op : Nat) (lanes : W32)
  /-- Input of GROUP_SWAP (R99); `out`: the group that leaves the active set, if one does. -/
  | groupSwap (core sub : Nat) (out : Option GRef)
  /-- Input of GROUP_EXIT_DRAIN (R88). -/
  | groupExitDrain (g : GRef)
  /-- Input of SHARE_GRANT (R124). -/
  | shareGrant (team sub : Nat) (tiles : Bool)
  /-- Input of PAGE_WALK_COMPLETE (R162). -/
  | pageWalkComplete (bezel core : Nat) (va : VA)
  /-- Input of FAULT_RECORD_DELIVERY (R164). -/
  | faultRecordDelivery (bezel : Nat)
  /-- Input of STASH_RECALL (R166); `unmap`: the recalling agent is another stash's `smap`. -/
  | stashRecall (team off : Nat) (unmap : Bool)
  /-- Input of BLOCKED_ACCESS_RESUME (R224). -/
  | blockedAccessResume (g : GRef)
  /-- Input of COPY_ENGINE_COMPLETE (R175). -/
  | copyEngineComplete (cmd : Nat)
  /-- Input of LEASE_EXPIRY (R226). -/
  | leaseExpiry (core sector : Nat)
  /-- Input of POSTED_STORE_ARRIVAL (R232). -/
  | postedStoreArrival (src : PostedSrc)
  /-- Input of BWAIT_SATISFIED (R186). -/
  | bwaitSatisfied (g : GRef)
  /-- Input of TICKET_DRAW_RESUME (R189). -/
  | ticketDrawResume (g : GRef)
  /-- Input of MATRIX_OP_COMPLETE (R197); `failed`: the sub-arrays whose self-test fails in this event (R213); `unit`: a unit in
  which an uncorrectable error recurs at the same location meanwhile (R363). -/
  | matrixOpComplete (g : GRef) (failed : BitVec 16) (unit : Option UnitId)
  /-- Input of TRANSFER_START (R253). -/
  | transferStart (flow : Nat)
  /-- Input of CHUNK_ARRIVAL (R254). -/
  | chunkArrival (flow : Nat) (srcDev srcFlow : Nat) (hdr : W64) (body : List Byte)
  /-- Input of TRAILER_ARRIVAL (R254). -/
  | trailerArrival (flow : Nat) (srcDev srcFlow : Nat) (check seq : W32)
  /-- Input of NACK_ARRIVAL (R255); `slots`: slot and reason code of R255; `all`: the NACK names every chunk. -/
  | nackArrival (flow member : Nat) (seq : W32) (slots : List (Nat × Nat)) (all : Bool)
  /-- Input of ACK_ARRIVAL (R256); `reseed`: the answer acknowledges RESEED (R262). -/
  | ackArrival (flow member : Nat) (seq : W32) (reseed : Bool)
  /-- Input of ABSENT_RETRY_TIMER (R255). -/
  | absentRetryTimer (flow member : Nat)
  /-- Input of RESEED_ARRIVAL (R262). -/
  | reseedArrival (flow : Nat) (srcDev srcFlow : Nat)
  /-- Input of FLOW_CLOSE_COMPLETE (R245). -/
  | flowCloseComplete (flow : Nat)
  /-- Input of TCOPY_CREDIT_GRANT (R271). -/
  | tcopyCreditGrant (cmd : Nat)
  /-- Input of RING_LINE_REPORT (R269). -/
  | ringLineReport (team ring : Nat)
  /-- Input of DESCRIPTOR_RECEIVE (R274). -/
  | descriptorReceive (team ring rank : Nat) (desc : CollDesc)
  /-- Input of CONTRIB_ENTRY_HEAD (R273). -/
  | contribEntryHead (g : GRef)
  /-- Input of COLLECTIVE_COMPLETE (R274); `peers`: the tiles contributed by the ranks other than this team's, in group order. -/
  | collectiveComplete (team ring : Nat) (peers : List (Nat × List (List Lanes)))
  /-- Input of CAPACITY_CLAIM (R279). -/
  | capacityClaim (cmd : Nat)
  /-- Input of CLAIM_REPLY (R279). -/
  | claimReply (cmd : Nat)
  /-- Input of TASK_COMMIT (R287). -/
  | taskCommit (g : GRef)
  /-- Input of TRAP_DELIVERY (R292). -/
  | trapDelivery (g : GRef)
  /-- Input of DEFERRED_TRAP_TAKE (R375). -/
  | deferredTrapTake (g : GRef)
  /-- Input of STOP_COMPLETE (R298). -/
  | stopComplete (team : Nat)
  /-- Input of MASKED_HOLD_TIMEOUT (R300). -/
  | maskedHoldTimeout (g : GRef)
  /-- Input of CONTEXT_RESTORE (R297). -/
  | contextRestore (team core : Nat)
  /-- Input of SEAL (R67); a host write of `data` at byte `off` of the slot. -/
  | sealArrival (bezel mb slot : Nat) (data : List Byte) (off : Nat)
  /-- Input of MAILBOX_FIELD_STORE (R65); a device store of `data` at byte `off` of the object. -/
  | mailboxFieldStore (bezel mb off : Nat) (data : List Byte) (handle : W64)
  /-- Input of HOST_MAILBOX_WRITE (R65). -/
  | hostMailboxWrite (bezel mb off : Nat) (data : List Byte)
  /-- Input of OUTBOUND_PHASE_ADVANCE (R72). -/
  | outboundPhaseAdvance (bezel mb : Nat)
  /-- Input of TEAM_DISPATCH (R76). -/
  | teamDispatch (die : Nat)
  /-- Input of RETIREMENT_COMPLETE (R83). -/
  | retirementComplete (bezel slot : Nat)
  /-- Input of COMPENSATOR_LAUNCH (R329). -/
  | compensatorLaunch (slot : Nat)
  /-- Input of COMPENSATOR_RETIRE (R324). -/
  | compensatorRetire (slot : Nat)
  /-- Input of PAVE_COMMAND_START (R341). -/
  | paveCommandStart (chan : Nat)
  /-- Input of PAVE_COMMAND_COMPLETE (R347). -/
  | paveCommandComplete (cmd : Nat)
  /-- Input of PAVE_FILL_COMPLETE (R344). -/
  | paveFillComplete (fill : Nat)
  /-- Input of REHASH_SWEEP_COMPLETE (R315). -/
  | rehashSweepComplete (bezel : Nat)
  /-- Input of UNIT_SCRUB_COMPLETE (R307). -/
  | unitScrubComplete (u : UnitId)
  /-- Input of KEY_DRAW_COMPLETE (R356). -/
  | keyDrawComplete (slot : Nat) (pass : Bool)
  /-- Input of GENERATOR_RETEST (R356). -/
  | generatorRetest (pass : Bool)
  /-- Input of HOST_MEM_WRITE (R359). -/
  | hostMemWrite (pa : Nat) (data : List Byte)
  /-- Input of HOST_MEM_READ (R359). -/
  | hostMemRead (pa n : Nat)
  /-- Input of AUDIT_RECORD_DELIVERY (R359). -/
  | auditRecordDelivery (bezel kind : Nat)
  /-- Input of MCMD_LOCK (R372). -/
  | mcmdLock 
  /-- Input of MCMD_RUN (R372); `entropy`: the dispatcher's key draw passes its health test (R311). -/
  | mcmdRun (entropy : Bool)
  /-- Input of MCMD_DRAW_OPEN_KEY (R372). -/
  | mcmdDrawOpenKey (pass : Bool)
  /-- Input of BAR0_WRITE (R372). -/
  | bar0Write (off : BitVec 16) (value : W64) (size : Nat)
  /-- Input of THROTTLE_STEP (R373); the step taken and the measurements that stand then (R373). -/
  | throttleStep (stepTo : BitVec 2) (power : W64) (temps : BitVec 32)
  /-- Input of COLD_RESET (R372); `pass`: the open key's draw passes (R352); `failed`: units that are fenced at this reset
  (R363). -/
  | coldReset (pass : Bool) (failed : List UnitId)
  /-- Input of WARM_RESET (R364). -/
  | warmReset (pass : Bool)
  /-- Input of BAR0_READ (R359). -/
  | bar0Read (off : BitVec 16) (size : Nat)
deriving DecidableEq, Repr

end Sys2Proof
end

