-- ==== Sys2Proof/WellFormed.lean ====
section
/-! DEFINITION. Well-formed instructions: no field holds a value that the instruction's entry marks reserved (R55).
Operand codes are judged by the machine, since their fate depends on the group's state (R57, R58). Steps without a
word are well-formed. -/

namespace Sys2Proof

/-- GMODE values that `mode` accepts (R27, R59). -/
def modeOk (i : BitVec 16) : Bool :=
  i.toNat < 8192 && (i.toNat / 256) % 16 ≤ 12 && (i.toNat / 16) % 8 ≤ 4 && i.toNat % 16 ≤ 8

/-- No field holds a reserved value (R55 and the entries). -/
def WellFormed : Instr → Bool
  | .bra _ => true
  | .brz _ _ => true
  | .brnz _ _ => true
  | .call _ _ => true
  | .ret _ => true
  | .brx _ _ n => 2 ≤ n.toNat && n.toNat ≤ 10
  | .split _ => true
  | .join => true
  | .dpush => true
  | .dpop => true
  | .exit => true
  | .yield => true
  | .mode i => modeOk i
  | .nop => true
  | .ballot _ _ f => f.toNat < 2
  | .vall _ _ => true
  | .vany _ _ => true
  | .shfl _ _ _ => true
  | .shflx _ _ n => n.toNat < 32
  | .shflu _ _ n => n.toNat < 32
  | .shfld _ _ n => n.toNat < 32
  | .rdlane _ _ n => n.toNat < 192
  | .wrlane _ _ n => n.toNat < 192
  | .lsum _ _ => true
  | .lmax _ _ => true
  | .lmin _ _ => true
  | .scan _ _ f => f.toNat < 4
  | .mcount _ _ f => f.toNat < 2
  | .sadd _ _ _ => true
  | .ssub _ _ _ => true
  | .smul _ _ _ => true
  | .smulh _ _ _ => true
  | .smulhu _ _ _ => true
  | .sdivu _ _ _ => true
  | .sremu _ _ _ => true
  | .sand _ _ _ => true
  | .sor _ _ _ => true
  | .sxor _ _ _ => true
  | .sandn _ _ _ => true
  | .sshl _ _ _ => true
  | .sshr _ _ _ => true
  | .ssar _ _ _ => true
  | .smin _ _ _ => true
  | .smax _ _ _ => true
  | .sminu _ _ _ => true
  | .smaxu _ _ _ => true
  | .seq _ _ _ => true
  | .slt _ _ _ => true
  | .sltu _ _ _ => true
  | .ssel _ _ _ => true
  | .sbfe _ _ _ => true
  | .sbfi _ _ _ => true
  | .spopc _ _ => true
  | .sclz _ _ => true
  | .sctz _ _ => true
  | .smov _ _ => true
  | .smovi _ _ => true
  | .smovh _ _ => true
  | .add _ _ _ => true
  | .sub _ _ _ => true
  | .mul _ _ _ => true
  | .fma _ _ _ => true
  | .fms _ _ _ => true
  | .fnma _ _ _ => true
  | .min _ _ _ => true
  | .max _ _ _ => true
  | .abs _ _ => true
  | .neg _ _ => true
  | .mov _ _ => true
  | .and _ _ _ => true
  | .or _ _ _ => true
  | .xor _ _ _ => true
  | .not _ _ => true
  | .shl _ _ _ => true
  | .shr _ _ _ => true
  | .sar _ _ _ => true
  | .mulhi _ _ _ => true
  | .clamp _ _ _ => true
  | .sel _ _ _ => true
  | .cmpeq _ _ _ => true
  | .cmpne _ _ _ => true
  | .cmplt _ _ _ => true
  | .cmple _ _ _ => true
  | .cmpun _ _ _ => true
  | .floor _ _ => true
  | .ceil _ _ => true
  | .rnde _ _ => true
  | .trunc _ _ => true
  | .fract _ _ => true
  | .copysign _ _ _ => true
  | .popc _ _ => true
  | .clz _ _ => true
  | .bfe _ _ _ => true
  | .bfi _ _ _ => true
  | .dot2 _ _ _ => true
  | .swaph _ _ f => f.toNat < 3
  | .perm _ _ _ => true
  | .lanes _ _ _ => true
  | .ldexp _ _ _ => true
  | .cvt _ _ f g => f.toNat < 9 && g.toNat < 9
  | .cvtf _ _ _ _ _ => true
  | .pack _ _ _ => true
  | .unpkl _ _ => true
  | .unpkh _ _ => true
  | .rcp _ _ => true
  | .rsq _ _ => true
  | .sqrt _ _ => true
  | .exp2 _ _ => true
  | .log2 _ _ => true
  | .sinpi _ _ => true
  | .cospi _ _ => true
  | .rred _ _ => true
  | .tanh _ _ => true
  | .div _ _ _ => true
  | .rgrow _ i => 8 ≤ i.toNat && i.toNat ≤ 184 && i.toNat % 8 == 0
  | .rshrink i => 8 ≤ i.toNat && i.toNat ≤ 184 && i.toNat % 8 == 0
  | .trgrow _ i => 1 ≤ i.toNat && i.toNat ≤ 16
  | .trshrink i => 1 ≤ i.toNat && i.toNat ≤ 16
  | .vshape _ _ f => f.toNat < 3
  | .sread _ n => n.toNat ≤ 10 || (16 ≤ n.toNat && n.toNat ≤ 31)
  | .swrite _ n => n.toNat == 4
  | .slit _ n => n.toNat ≤ 2
  | .ld _ _ _ => true
  | .ld16 _ _ _ => true
  | .ld8 _ _ _ => true
  | .st _ _ _ => true
  | .st16 _ _ _ => true
  | .st8 _ _ _ => true
  | .lds _ _ _ => true
  | .sts _ _ _ => true
  | .ldb _ _ _ => true
  | .stb _ _ _ => true
  | .smap _ _ _ => true
  | .sunmap _ => true
  | .sflush _ => true
  | .fence l k s => s.toNat < 5 && !(k == 0 && l == 0)
  | .cpy _ _ _ => true
  | .pref _ _ => true
  | .binit _ _ _ => true
  | .barr _ f => f.toNat < 2
  | .barx _ _ => true
  | .bwait _ _ => true
  | .atadd _ _ _ => true
  | .atmin _ _ _ => true
  | .atmax _ _ _ => true
  | .atand _ _ _ => true
  | .ator _ _ _ => true
  | .atxor _ _ _ => true
  | .atxch _ _ _ => true
  | .atcas _ _ _ => true
  | .tlincSignal _ _ => true
  | .tlincReserve _ _ => true
  | .tlincComplete _ _ => true
  | .tlrd _ _ f => f.toNat < 3
  | .tzero _ => true
  | .mma _ _ _ => true
  | .tld _ _ => true
  | .tst _ _ => true
  | .tcvt _ _ f g => f.toNat < 3 && g.toNat < 3 && f != g
  | .tcolr _ _ c => c.toNat < 32
  | .tcolw _ _ c => c.toNat < 32
  | .mfence => true
  | .rprd _ f => f.toNat < 5
  | .stest _ => true
  | .tscale _ _ f => f.toNat < 2
  | .fopen _ _ => true
  | .fsend _ _ _ => true
  | .fmcast _ _ _ => true
  | .freseed _ => true
  | .fclose _ => true
  | .fstat _ _ f => f.toNat < 5
  | .coll _ _ _ => true
  | .cringCfg _ _ => true
  | .cringRel _ _ => true
  | .cringClose _ _ => true
  | .tcopy _ _ _ => true
  | .xroute _ _ _ => true
  | .xtable _ => true
  | .task _ _ => true
  | .trap _ _ => true
  | .tret => true
  | .tmask => true
  | .tunmask => true
  | .lkill => true
  | .mbrecv _ _ => true
  | .mbsend _ _ _ => true
  | .mbpeek _ _ f => f.toNat < 5
  | .launch _ _ => true
  | .kquery _ _ f => f.toNat < 5
  | .kcancel _ => true
  | .kpreemptSave _ => true
  | .kpreemptDiscard _ => true
  | .aopen _ _ => true
  | .astep _ _ _ => true
  | .aclose _ => true
  | .aabandon _ => true
  | .aquery _ _ f => f.toNat < 4
  | .aresolve _ _ => true
  | .acret _ => true
  | .pvsub _ _ _ => true
  | .pvfill _ _ => true
  | .pvstat _ _ f => f.toNat < 2
  | .bzreq _ _ => true
  | .keygenGenerate _ _ => true
  | .keygenDestroy _ _ => true
  | .keyseal _ _ _ => true
  | .attest _ _ _ => true
  | .locketw _ _ _ => true
  | .caprd _ _ f => f.toNat < 2
  | .tlbinv _ f => f.toNat < 4
  | .fltret _ => true
  | .pvNop => true
  | .pvVec _ _ => true
  | .pvRows _ _ => true
  | .pvMac _ _ => true
  | .pvScale _ => true
  | .pvOut => true
  | .pvSync => true
  | .pvEnd => true
  | .clauseFetch => true
  | .clauseStart => true
  | .operationCompletion => true
  | .groupSwap => true
  | .groupExitDrain => true
  | .shareGrant => true
  | .pageWalkComplete => true
  | .faultRecordDelivery => true
  | .stashRecall => true
  | .blockedAccessResume => true
  | .copyEngineComplete => true
  | .leaseExpiry => true
  | .postedStoreArrival => true
  | .bwaitSatisfied => true
  | .ticketDrawResume => true
  | .matrixOpComplete => true
  | .transferStart => true
  | .chunkArrival => true
  | .trailerArrival => true
  | .nackArrival => true
  | .ackArrival => true
  | .absentRetryTimer => true
  | .reseedArrival => true
  | .flowCloseComplete => true
  | .tcopyCreditGrant => true
  | .ringLineReport => true
  | .descriptorReceive => true
  | .contribEntryHead => true
  | .collectiveComplete => true
  | .capacityClaim => true
  | .claimReply => true
  | .taskCommit => true
  | .trapDelivery => true
  | .deferredTrapTake => true
  | .stopComplete => true
  | .maskedHoldTimeout => true
  | .contextRestore => true
  | .sealArrival => true
  | .mailboxFieldStore => true
  | .hostMailboxWrite => true
  | .outboundPhaseAdvance => true
  | .teamDispatch => true
  | .retirementComplete => true
  | .compensatorLaunch => true
  | .compensatorRetire => true
  | .paveCommandStart => true
  | .paveCommandComplete => true
  | .paveFillComplete => true
  | .rehashSweepComplete => true
  | .unitScrubComplete => true
  | .keyDrawComplete => true
  | .generatorRetest => true
  | .hostMemWrite => true
  | .hostMemRead => true
  | .auditRecordDelivery => true
  | .mcmdLock => true
  | .mcmdRun => true
  | .mcmdDrawOpenKey => true
  | .bar0Write => true
  | .throttleStep => true
  | .coldReset => true
  | .warmReset => true
  | .bar0Read => true

end Sys2Proof
end

