-- ==== Sys2Proof/Decode.lean ====
section
/-! DEFINITION. Decoding of instruction words and pavé words, total on any word and rejecting by name, and the
encoder written from the same tables (R54, R55, R58, R61, R62, R345). -/

namespace Sys2Proof

/-- Why a word is not an instruction. -/
inductive DecodeError where
  /-- Opcode 0x00 or one of the 50 reserved opcodes (R62). -/
  | reservedOpcode
  /-- A field that the instruction does not use does not hold its filler (R55). -/
  | filler
  /-- A function field that selects the instruction's table row holds a reserved value (R55). -/
  | reservedValue
  /-- Bits [7:4] of a field that names a tile are not zero (R58). -/
  | tileField
deriving DecidableEq, Repr

/-- Bits `[lo + n − 1 : lo]` of a word. -/
abbrev fld (w : W32) (lo n : Nat) : BitVec n := w.extractLsb' lo n

/-- `i` when every fixed field holds its value. -/
def fixed (ok : Bool) (e : DecodeError) (i : Except DecodeError Instr) : Except DecodeError Instr :=
  if ok then i else .error e

/-- Words whose opcode is 0x0_ (R61). -/
def decode0 (w : W32) : Except DecodeError Instr :=
  match (fld w 24 4).toNat with
  | 0x1 => .ok (.bra (fld w 0 24))
  | 0x2 => .ok (.brz (fld w 16 8) (fld w 0 16))
  | 0x3 => .ok (.brnz (fld w 16 8) (fld w 0 16))
  | 0x4 => .ok (.call (fld w 16 8) (fld w 0 16))
  | 0x5 => fixed (fld w 16 8 == 0xF0 && fld w 0 8 == 0x0) .filler (.ok (.ret (fld w 8 8)))
  | 0x6 => .ok (.brx (fld w 16 8) (fld w 8 8) (fld w 0 8))
  | 0x7 => fixed (fld w 16 8 == 0xF0) .filler (.ok (.split (fld w 0 16)))
  | 0x8 => fixed (fld w 0 24 == 0x0) .filler (.ok (.join))
  | 0x9 => fixed (fld w 0 24 == 0x0) .filler (.ok (.dpush))
  | 0xA => fixed (fld w 0 24 == 0x0) .filler (.ok (.dpop))
  | 0xB => fixed (fld w 0 24 == 0x0) .filler (.ok (.exit))
  | 0xC => fixed (fld w 0 24 == 0x0) .filler (.ok (.yield))
  | 0xD => fixed (fld w 16 8 == 0xF0) .filler (.ok (.mode (fld w 0 16)))
  | 0xE => fixed (fld w 0 24 == 0x0) .filler (.ok (.nop))
  | _ => .error .reservedOpcode

/-- Words whose opcode is 0x1_ (R61). -/
def decode1 (w : W32) : Except DecodeError Instr :=
  match (fld w 24 4).toNat with
  | 0x0 => .ok (.ballot (fld w 16 8) (fld w 8 8) (fld w 0 8))
  | 0x1 => fixed (fld w 0 8 == 0x0) .filler (.ok (.vall (fld w 16 8) (fld w 8 8)))
  | 0x2 => fixed (fld w 0 8 == 0x0) .filler (.ok (.vany (fld w 16 8) (fld w 8 8)))
  | 0x3 => .ok (.shfl (fld w 16 8) (fld w 8 8) (fld w 0 8))
  | 0x4 => .ok (.shflx (fld w 16 8) (fld w 8 8) (fld w 0 8))
  | 0x5 => .ok (.shflu (fld w 16 8) (fld w 8 8) (fld w 0 8))
  | 0x6 => .ok (.shfld (fld w 16 8) (fld w 8 8) (fld w 0 8))
  | 0x7 => .ok (.rdlane (fld w 16 8) (fld w 8 8) (fld w 0 8))
  | 0x8 => .ok (.wrlane (fld w 16 8) (fld w 8 8) (fld w 0 8))
  | 0x9 => fixed (fld w 0 8 == 0x0) .filler (.ok (.lsum (fld w 16 8) (fld w 8 8)))
  | 0xA => fixed (fld w 0 8 == 0x0) .filler (.ok (.lmax (fld w 16 8) (fld w 8 8)))
  | 0xB => fixed (fld w 0 8 == 0x0) .filler (.ok (.lmin (fld w 16 8) (fld w 8 8)))
  | 0xC => .ok (.scan (fld w 16 8) (fld w 8 8) (fld w 0 8))
  | 0xD => .ok (.mcount (fld w 16 8) (fld w 8 8) (fld w 0 8))
  | _ => .error .reservedOpcode

/-- Words whose opcode is 0x2_ (R61). -/
def decode2 (w : W32) : Except DecodeError Instr :=
  match (fld w 24 4).toNat with
  | 0x0 => .ok (.sadd (fld w 16 8) (fld w 8 8) (fld w 0 8))
  | 0x1 => .ok (.ssub (fld w 16 8) (fld w 8 8) (fld w 0 8))
  | 0x2 => .ok (.smul (fld w 16 8) (fld w 8 8) (fld w 0 8))
  | 0x3 => .ok (.smulh (fld w 16 8) (fld w 8 8) (fld w 0 8))
  | 0x4 => .ok (.smulhu (fld w 16 8) (fld w 8 8) (fld w 0 8))
  | 0x5 => .ok (.sdivu (fld w 16 8) (fld w 8 8) (fld w 0 8))
  | 0x6 => .ok (.sremu (fld w 16 8) (fld w 8 8) (fld w 0 8))
  | 0x7 => .ok (.sand (fld w 16 8) (fld w 8 8) (fld w 0 8))
  | 0x8 => .ok (.sor (fld w 16 8) (fld w 8 8) (fld w 0 8))
  | 0x9 => .ok (.sxor (fld w 16 8) (fld w 8 8) (fld w 0 8))
  | 0xA => .ok (.sandn (fld w 16 8) (fld w 8 8) (fld w 0 8))
  | 0xB => .ok (.sshl (fld w 16 8) (fld w 8 8) (fld w 0 8))
  | 0xC => .ok (.sshr (fld w 16 8) (fld w 8 8) (fld w 0 8))
  | 0xD => .ok (.ssar (fld w 16 8) (fld w 8 8) (fld w 0 8))
  | 0xE => .ok (.smin (fld w 16 8) (fld w 8 8) (fld w 0 8))
  | 0xF => .ok (.smax (fld w 16 8) (fld w 8 8) (fld w 0 8))
  | _ => .error .reservedOpcode

/-- Words whose opcode is 0x3_ (R61). -/
def decode3 (w : W32) : Except DecodeError Instr :=
  match (fld w 24 4).toNat with
  | 0x0 => .ok (.sminu (fld w 16 8) (fld w 8 8) (fld w 0 8))
  | 0x1 => .ok (.smaxu (fld w 16 8) (fld w 8 8) (fld w 0 8))
  | 0x2 => .ok (.seq (fld w 16 8) (fld w 8 8) (fld w 0 8))
  | 0x3 => .ok (.slt (fld w 16 8) (fld w 8 8) (fld w 0 8))
  | 0x4 => .ok (.sltu (fld w 16 8) (fld w 8 8) (fld w 0 8))
  | 0x5 => .ok (.ssel (fld w 16 8) (fld w 8 8) (fld w 0 8))
  | 0x6 => .ok (.sbfe (fld w 16 8) (fld w 8 8) (fld w 0 8))
  | 0x7 => .ok (.sbfi (fld w 16 8) (fld w 8 8) (fld w 0 8))
  | 0x8 => fixed (fld w 0 8 == 0x0) .filler (.ok (.spopc (fld w 16 8) (fld w 8 8)))
  | 0x9 => fixed (fld w 0 8 == 0x0) .filler (.ok (.sclz (fld w 16 8) (fld w 8 8)))
  | 0xA => fixed (fld w 0 8 == 0x0) .filler (.ok (.sctz (fld w 16 8) (fld w 8 8)))
  | 0xB => fixed (fld w 0 8 == 0x0) .filler (.ok (.smov (fld w 16 8) (fld w 8 8)))
  | 0xC => .ok (.smovi (fld w 16 8) (fld w 0 16))
  | 0xD => .ok (.smovh (fld w 16 8) (fld w 0 16))
  | _ => .error .reservedOpcode

/-- Words whose opcode is 0x4_ (R61). -/
def decode4 (w : W32) : Except DecodeError Instr :=
  match (fld w 24 4).toNat with
  | 0x0 => .ok (.add (fld w 16 8) (fld w 8 8) (fld w 0 8))
  | 0x1 => .ok (.sub (fld w 16 8) (fld w 8 8) (fld w 0 8))
  | 0x2 => .ok (.mul (fld w 16 8) (fld w 8 8) (fld w 0 8))
  | 0x3 => .ok (.fma (fld w 16 8) (fld w 8 8) (fld w 0 8))
  | 0x4 => .ok (.fms (fld w 16 8) (fld w 8 8) (fld w 0 8))
  | 0x5 => .ok (.fnma (fld w 16 8) (fld w 8 8) (fld w 0 8))
  | 0x6 => .ok (.min (fld w 16 8) (fld w 8 8) (fld w 0 8))
  | 0x7 => .ok (.max (fld w 16 8) (fld w 8 8) (fld w 0 8))
  | 0x8 => fixed (fld w 0 8 == 0x0) .filler (.ok (.abs (fld w 16 8) (fld w 8 8)))
  | 0x9 => fixed (fld w 0 8 == 0x0) .filler (.ok (.neg (fld w 16 8) (fld w 8 8)))
  | 0xA => fixed (fld w 0 8 == 0x0) .filler (.ok (.mov (fld w 16 8) (fld w 8 8)))
  | 0xB => .ok (.and (fld w 16 8) (fld w 8 8) (fld w 0 8))
  | 0xC => .ok (.or (fld w 16 8) (fld w 8 8) (fld w 0 8))
  | 0xD => .ok (.xor (fld w 16 8) (fld w 8 8) (fld w 0 8))
  | 0xE => fixed (fld w 0 8 == 0x0) .filler (.ok (.not (fld w 16 8) (fld w 8 8)))
  | 0xF => .ok (.shl (fld w 16 8) (fld w 8 8) (fld w 0 8))
  | _ => .error .reservedOpcode

/-- Words whose opcode is 0x5_ (R61). -/
def decode5 (w : W32) : Except DecodeError Instr :=
  match (fld w 24 4).toNat with
  | 0x0 => .ok (.shr (fld w 16 8) (fld w 8 8) (fld w 0 8))
  | 0x1 => .ok (.sar (fld w 16 8) (fld w 8 8) (fld w 0 8))
  | 0x2 => .ok (.mulhi (fld w 16 8) (fld w 8 8) (fld w 0 8))
  | 0x3 => .ok (.clamp (fld w 16 8) (fld w 8 8) (fld w 0 8))
  | 0x4 => .ok (.sel (fld w 16 8) (fld w 8 8) (fld w 0 8))
  | 0x5 => .ok (.cmpeq (fld w 16 8) (fld w 8 8) (fld w 0 8))
  | 0x6 => .ok (.cmpne (fld w 16 8) (fld w 8 8) (fld w 0 8))
  | 0x7 => .ok (.cmplt (fld w 16 8) (fld w 8 8) (fld w 0 8))
  | 0x8 => .ok (.cmple (fld w 16 8) (fld w 8 8) (fld w 0 8))
  | 0x9 => .ok (.cmpun (fld w 16 8) (fld w 8 8) (fld w 0 8))
  | 0xA => fixed (fld w 0 8 == 0x0) .filler (.ok (.floor (fld w 16 8) (fld w 8 8)))
  | 0xB => fixed (fld w 0 8 == 0x0) .filler (.ok (.ceil (fld w 16 8) (fld w 8 8)))
  | 0xC => fixed (fld w 0 8 == 0x0) .filler (.ok (.rnde (fld w 16 8) (fld w 8 8)))
  | 0xD => fixed (fld w 0 8 == 0x0) .filler (.ok (.trunc (fld w 16 8) (fld w 8 8)))
  | 0xE => fixed (fld w 0 8 == 0x0) .filler (.ok (.fract (fld w 16 8) (fld w 8 8)))
  | 0xF => .ok (.copysign (fld w 16 8) (fld w 8 8) (fld w 0 8))
  | _ => .error .reservedOpcode

/-- Words whose opcode is 0x6_ (R61). -/
def decode6 (w : W32) : Except DecodeError Instr :=
  match (fld w 24 4).toNat with
  | 0x0 => fixed (fld w 0 8 == 0x0) .filler (.ok (.popc (fld w 16 8) (fld w 8 8)))
  | 0x1 => fixed (fld w 0 8 == 0x0) .filler (.ok (.clz (fld w 16 8) (fld w 8 8)))
  | 0x2 => .ok (.bfe (fld w 16 8) (fld w 8 8) (fld w 0 8))
  | 0x3 => .ok (.bfi (fld w 16 8) (fld w 8 8) (fld w 0 8))
  | 0x4 => .ok (.dot2 (fld w 16 8) (fld w 8 8) (fld w 0 8))
  | 0x5 => .ok (.swaph (fld w 16 8) (fld w 8 8) (fld w 0 8))
  | 0x6 => .ok (.perm (fld w 16 8) (fld w 8 8) (fld w 0 8))
  | 0x7 => .ok (.lanes (fld w 16 8) (fld w 8 8) (fld w 0 8))
  | 0x8 => .ok (.ldexp (fld w 16 8) (fld w 8 8) (fld w 0 8))
  | _ => .error .reservedOpcode

/-- Words whose opcode is 0x7_ (R61). -/
def decode7 (w : W32) : Except DecodeError Instr :=
  match (fld w 24 4).toNat with
  | 0x0 => .ok (.cvt (fld w 16 8) (fld w 8 8) (fld w 4 4) (fld w 0 4))
  | 0x1 => .ok (.cvtf (fld w 16 8) (fld w 8 8) (fld w 7 1) (fld w 3 4) (fld w 0 3))
  | 0x2 => .ok (.pack (fld w 16 8) (fld w 8 8) (fld w 0 8))
  | 0x3 => fixed (fld w 0 8 == 0x0) .filler (.ok (.unpkl (fld w 16 8) (fld w 8 8)))
  | 0x4 => fixed (fld w 0 8 == 0x0) .filler (.ok (.unpkh (fld w 16 8) (fld w 8 8)))
  | 0x5 => fixed (fld w 0 8 == 0x0) .filler (.ok (.rcp (fld w 16 8) (fld w 8 8)))
  | 0x6 => fixed (fld w 0 8 == 0x0) .filler (.ok (.rsq (fld w 16 8) (fld w 8 8)))
  | 0x7 => fixed (fld w 0 8 == 0x0) .filler (.ok (.sqrt (fld w 16 8) (fld w 8 8)))
  | 0x8 => fixed (fld w 0 8 == 0x0) .filler (.ok (.exp2 (fld w 16 8) (fld w 8 8)))
  | 0x9 => fixed (fld w 0 8 == 0x0) .filler (.ok (.log2 (fld w 16 8) (fld w 8 8)))
  | 0xA => fixed (fld w 0 8 == 0x0) .filler (.ok (.sinpi (fld w 16 8) (fld w 8 8)))
  | 0xB => fixed (fld w 0 8 == 0x0) .filler (.ok (.cospi (fld w 16 8) (fld w 8 8)))
  | 0xC => fixed (fld w 0 8 == 0x0) .filler (.ok (.rred (fld w 16 8) (fld w 8 8)))
  | 0xD => fixed (fld w 0 8 == 0x0) .filler (.ok (.tanh (fld w 16 8) (fld w 8 8)))
  | 0xE => .ok (.div (fld w 16 8) (fld w 8 8) (fld w 0 8))
  | _ => .error .reservedOpcode

/-- Words whose opcode is 0x8_ (R61). -/
def decode8 (w : W32) : Except DecodeError Instr :=
  match (fld w 24 4).toNat with
  | 0x0 => .ok (.rgrow (fld w 16 8) (fld w 0 16))
  | 0x1 => fixed (fld w 16 8 == 0xF0) .filler (.ok (.rshrink (fld w 0 16)))
  | 0x2 => .ok (.trgrow (fld w 16 8) (fld w 0 16))
  | 0x3 => fixed (fld w 16 8 == 0xF0) .filler (.ok (.trshrink (fld w 0 16)))
  | 0x4 => .ok (.vshape (fld w 16 8) (fld w 8 8) (fld w 0 8))
  | 0x5 => fixed (fld w 8 8 == 0xF0) .filler (.ok (.sread (fld w 16 8) (fld w 0 8)))
  | 0x6 => fixed (fld w 16 8 == 0xF0) .filler (.ok (.swrite (fld w 8 8) (fld w 0 8)))
  | 0x7 => fixed (fld w 8 8 == 0xF0) .filler (.ok (.slit (fld w 16 8) (fld w 0 8)))
  | _ => .error .reservedOpcode

/-- Words whose opcode is 0x9_ (R61). -/
def decode9 (w : W32) : Except DecodeError Instr :=
  match (fld w 24 4).toNat with
  | 0x0 => .ok (.ld (fld w 16 8) (fld w 8 8) (fld w 0 8))
  | 0x1 => .ok (.ld16 (fld w 16 8) (fld w 8 8) (fld w 0 8))
  | 0x2 => .ok (.ld8 (fld w 16 8) (fld w 8 8) (fld w 0 8))
  | 0x3 => .ok (.st (fld w 16 8) (fld w 8 8) (fld w 0 8))
  | 0x4 => .ok (.st16 (fld w 16 8) (fld w 8 8) (fld w 0 8))
  | 0x5 => .ok (.st8 (fld w 16 8) (fld w 8 8) (fld w 0 8))
  | 0x6 => .ok (.lds (fld w 16 8) (fld w 8 8) (fld w 0 8))
  | 0x7 => .ok (.sts (fld w 16 8) (fld w 8 8) (fld w 0 8))
  | 0x8 => .ok (.ldb (fld w 16 8) (fld w 8 8) (fld w 0 8))
  | 0x9 => .ok (.stb (fld w 16 8) (fld w 8 8) (fld w 0 8))
  | 0xA => .ok (.smap (fld w 16 8) (fld w 8 8) (fld w 0 8))
  | 0xB => fixed (fld w 16 8 == 0xF0 && fld w 0 8 == 0x0) .filler (.ok (.sunmap (fld w 8 8)))
  | 0xC => fixed (fld w 16 8 == 0xF0 && fld w 0 8 == 0x0) .filler (.ok (.sflush (fld w 8 8)))
  | 0xD => fixed (fld w 6 18 == 0x3C3C0) .filler (.ok (.fence (fld w 5 1) (fld w 3 2) (fld w 0 3)))
  | 0xE => .ok (.cpy (fld w 16 8) (fld w 8 8) (fld w 0 8))
  | 0xF => fixed (fld w 16 8 == 0xF0) .filler (.ok (.pref (fld w 8 8) (fld w 0 8)))
  | _ => .error .reservedOpcode

/-- Words whose opcode is 0xA_ (R61). -/
def decodeA (w : W32) : Except DecodeError Instr :=
  match (fld w 24 4).toNat with
  | 0x0 => .ok (.binit (fld w 16 8) (fld w 8 8) (fld w 0 8))
  | 0x1 => fixed (fld w 16 8 == 0xF0) .filler (.ok (.barr (fld w 8 8) (fld w 0 8)))
  | 0x2 => fixed (fld w 16 8 == 0xF0) .filler (.ok (.barx (fld w 8 8) (fld w 0 8)))
  | 0x3 => fixed (fld w 16 8 == 0xF0) .filler (.ok (.bwait (fld w 8 8) (fld w 0 8)))
  | 0x4 => .ok (.atadd (fld w 16 8) (fld w 8 8) (fld w 0 8))
  | 0x5 => .ok (.atmin (fld w 16 8) (fld w 8 8) (fld w 0 8))
  | 0x6 => .ok (.atmax (fld w 16 8) (fld w 8 8) (fld w 0 8))
  | 0x7 => .ok (.atand (fld w 16 8) (fld w 8 8) (fld w 0 8))
  | 0x8 => .ok (.ator (fld w 16 8) (fld w 8 8) (fld w 0 8))
  | 0x9 => .ok (.atxor (fld w 16 8) (fld w 8 8) (fld w 0 8))
  | 0xA => .ok (.atxch (fld w 16 8) (fld w 8 8) (fld w 0 8))
  | 0xB => .ok (.atcas (fld w 16 8) (fld w 8 8) (fld w 0 8))
  | 0xC => if fld w 0 8 == 0x0 then .ok (.tlincSignal (fld w 16 8) (fld w 8 8)) else if fld w 0 8 == 0x1 then .ok (.tlincReserve (fld w 16 8) (fld w 8 8)) else if fld w 0 8 == 0x2 then .ok (.tlincComplete (fld w 16 8) (fld w 8 8)) else .error .reservedValue
  | 0xD => .ok (.tlrd (fld w 16 8) (fld w 8 8) (fld w 0 8))
  | _ => .error .reservedOpcode

/-- Why a word with a bad tile field is refused: a reserved value of B comes before it (R60, orders 4 and 5; R206, R208). -/
def tileError (badB : Bool) : DecodeError := if badB then .reservedValue else .tileField

/-- Words whose opcode is 0xB_ (R61). -/
def decodeB (w : W32) : Except DecodeError Instr :=
  match (fld w 24 4).toNat with
  | 0x0 => fixed (fld w 0 16 == 0xF000) .filler (fixed (fld w 20 4 == 0x0) .tileField (.ok (.tzero (fld w 16 4))))
  | 0x1 => fixed (fld w 20 4 == 0x0) .tileField (.ok (.mma (fld w 16 4) (fld w 8 8) (fld w 0 8)))
  | 0x3 => fixed (fld w 0 8 == 0x0) .filler (fixed (fld w 20 4 == 0x0) .tileField (.ok (.tld (fld w 16 4) (fld w 8 8))))
  | 0x4 => fixed (fld w 0 8 == 0x0) .filler (fixed (fld w 20 4 == 0x0) .tileField (.ok (.tst (fld w 16 4) (fld w 8 8))))
  | 0x5 => fixed (fld w 20 4 == 0x0 && fld w 12 4 == 0x0) (tileError (!(fld w 4 4 ≤ 2 && fld w 0 4 ≤ 2 && fld w 4 4 != fld w 0 4))) (.ok (.tcvt (fld w 16 4) (fld w 8 4) (fld w 4 4) (fld w 0 4)))
  | 0x6 => fixed (fld w 12 4 == 0x0) (tileError (32 ≤ fld w 0 8)) (.ok (.tcolr (fld w 16 8) (fld w 8 4) (fld w 0 8)))
  | 0x7 => fixed (fld w 20 4 == 0x0) (tileError (32 ≤ fld w 0 8)) (.ok (.tcolw (fld w 16 4) (fld w 8 8) (fld w 0 8)))
  | 0x8 => fixed (fld w 0 24 == 0x0) .filler (.ok (.mfence))
  | 0x9 => fixed (fld w 8 8 == 0xF0) .filler (.ok (.rprd (fld w 16 8) (fld w 0 8)))
  | 0xA => fixed (fld w 0 16 == 0xF000) .filler (fixed (fld w 20 4 == 0x0) .tileField (.ok (.stest (fld w 16 4))))
  | 0xB => fixed (fld w 20 4 == 0x0) (tileError (2 ≤ fld w 0 8)) (.ok (.tscale (fld w 16 4) (fld w 8 8) (fld w 0 8)))
  | _ => .error .reservedOpcode

/-- Words whose opcode is 0xC_ (R61). -/
def decodeC (w : W32) : Except DecodeError Instr :=
  match (fld w 24 4).toNat with
  | 0x0 => fixed (fld w 0 8 == 0x0) .filler (.ok (.fopen (fld w 16 8) (fld w 8 8)))
  | 0x1 => .ok (.fsend (fld w 16 8) (fld w 8 8) (fld w 0 8))
  | 0x2 => .ok (.fmcast (fld w 16 8) (fld w 8 8) (fld w 0 8))
  | 0x3 => fixed (fld w 16 8 == 0xF0 && fld w 0 8 == 0x0) .filler (.ok (.freseed (fld w 8 8)))
  | 0x4 => fixed (fld w 16 8 == 0xF0 && fld w 0 8 == 0x0) .filler (.ok (.fclose (fld w 8 8)))
  | 0x5 => .ok (.fstat (fld w 16 8) (fld w 8 8) (fld w 0 8))
  | 0x8 => .ok (.coll (fld w 16 8) (fld w 8 8) (fld w 0 8))
  | 0x9 => fixed (fld w 16 8 == 0xF0) .filler (if fld w 3 5 == 0x0 then .ok (.cringCfg (fld w 8 8) (fld w 0 3)) else if fld w 3 5 == 0x1 then .ok (.cringRel (fld w 8 8) (fld w 0 3)) else if fld w 3 5 == 0x2 then .ok (.cringClose (fld w 8 8) (fld w 0 3)) else .error .reservedValue)
  | 0xA => .ok (.tcopy (fld w 16 8) (fld w 8 8) (fld w 0 8))
  | 0xB => .ok (.xroute (fld w 16 8) (fld w 8 8) (fld w 0 8))
  | 0xC => fixed (fld w 16 8 == 0xF0 && fld w 0 8 == 0x0) .filler (.ok (.xtable (fld w 8 8)))
  | _ => .error .reservedOpcode

/-- Words whose opcode is 0xD_ (R61). -/
def decodeD (w : W32) : Except DecodeError Instr :=
  match (fld w 24 4).toNat with
  | 0x0 => fixed (fld w 16 8 == 0xF0) .filler (.ok (.task (fld w 8 8) (fld w 0 8)))
  | 0x1 => .ok (.trap (fld w 16 8) (fld w 0 16))
  | 0x2 => fixed (fld w 0 24 == 0x0) .filler (.ok (.tret))
  | 0x3 => fixed (fld w 0 24 == 0x0) .filler (.ok (.tmask))
  | 0x4 => fixed (fld w 0 24 == 0x0) .filler (.ok (.tunmask))
  | 0x5 => fixed (fld w 0 24 == 0x0) .filler (.ok (.lkill))
  | 0x8 => fixed (fld w 0 8 == 0xF0) .filler (.ok (.mbrecv (fld w 16 8) (fld w 8 8)))
  | 0x9 => .ok (.mbsend (fld w 16 8) (fld w 8 8) (fld w 0 8))
  | 0xA => .ok (.mbpeek (fld w 16 8) (fld w 8 8) (fld w 0 8))
  | 0xC => fixed (fld w 0 8 == 0xF0) .filler (.ok (.launch (fld w 16 8) (fld w 8 8)))
  | 0xD => .ok (.kquery (fld w 16 8) (fld w 8 8) (fld w 0 8))
  | 0xE => fixed (fld w 16 8 == 0xF0 && fld w 0 8 == 0x0) .filler (.ok (.kcancel (fld w 8 8)))
  | 0xF => fixed (fld w 16 8 == 0xF0) .filler (if fld w 0 8 == 0x0 then .ok (.kpreemptSave (fld w 8 8)) else if fld w 0 8 == 0x1 then .ok (.kpreemptDiscard (fld w 8 8)) else .error .reservedValue)
  | _ => .error .reservedOpcode

/-- Words whose opcode is 0xE_ (R61). -/
def decodeE (w : W32) : Except DecodeError Instr :=
  match (fld w 24 4).toNat with
  | 0x0 => fixed (fld w 0 8 == 0x0) .filler (.ok (.aopen (fld w 16 8) (fld w 8 8)))
  | 0x1 => .ok (.astep (fld w 16 8) (fld w 8 8) (fld w 0 8))
  | 0x2 => fixed (fld w 16 8 == 0xF0 && fld w 0 8 == 0x0) .filler (.ok (.aclose (fld w 8 8)))
  | 0x3 => fixed (fld w 16 8 == 0xF0 && fld w 0 8 == 0x0) .filler (.ok (.aabandon (fld w 8 8)))
  | 0x4 => .ok (.aquery (fld w 16 8) (fld w 8 8) (fld w 0 8))
  | 0x5 => fixed (fld w 16 8 == 0xF0) .filler (.ok (.aresolve (fld w 8 8) (fld w 0 8)))
  | 0x6 => fixed (fld w 16 8 == 0xF0 && fld w 0 8 == 0x0) .filler (.ok (.acret (fld w 8 8)))
  | 0x8 => .ok (.pvsub (fld w 16 8) (fld w 8 8) (fld w 0 8))
  | 0x9 => fixed (fld w 0 8 == 0xF0) .filler (.ok (.pvfill (fld w 16 8) (fld w 8 8)))
  | 0xA => .ok (.pvstat (fld w 16 8) (fld w 8 8) (fld w 0 8))
  | _ => .error .reservedOpcode

/-- Words whose opcode is 0xF_ (R61). -/
def decodeF (w : W32) : Except DecodeError Instr :=
  match (fld w 24 4).toNat with
  | 0x0 => fixed (fld w 0 8 == 0x0) .filler (.ok (.bzreq (fld w 16 8) (fld w 8 8)))
  | 0x1 => if fld w 0 8 == 0x0 then .ok (.keygenGenerate (fld w 16 8) (fld w 8 8)) else if fld w 0 8 == 0x1 then .ok (.keygenDestroy (fld w 16 8) (fld w 8 8)) else .error .reservedValue
  | 0x2 => .ok (.keyseal (fld w 16 8) (fld w 8 8) (fld w 0 8))
  | 0x3 => .ok (.attest (fld w 16 8) (fld w 8 8) (fld w 0 8))
  | 0x4 => .ok (.locketw (fld w 16 8) (fld w 8 8) (fld w 0 8))
  | 0x5 => .ok (.caprd (fld w 16 8) (fld w 8 8) (fld w 0 8))
  | 0x6 => fixed (fld w 16 8 == 0xF0) .filler (.ok (.tlbinv (fld w 8 8) (fld w 0 8)))
  | 0x7 => fixed (fld w 16 8 == 0xF0 && fld w 0 8 == 0x0) .filler (.ok (.fltret (fld w 8 8)))
  | _ => .error .reservedOpcode

/-- The instruction a word of the clause stream stands for (R60 steps 2 and 4, R61). -/
def decode (w : W32) : Except DecodeError Instr :=
  match (fld w 28 4).toNat with
  | 0x0 => decode0 w
  | 0x1 => decode1 w
  | 0x2 => decode2 w
  | 0x3 => decode3 w
  | 0x4 => decode4 w
  | 0x5 => decode5 w
  | 0x6 => decode6 w
  | 0x7 => decode7 w
  | 0x8 => decode8 w
  | 0x9 => decode9 w
  | 0xA => decodeA w
  | 0xB => decodeB w
  | 0xC => decodeC w
  | 0xD => decodeD w
  | 0xE => decodeE w
  | 0xF => decodeF w
  | _ => .error .reservedOpcode

/-- The pavé word a 32-bit word stands for, `none` for an error ILLWORD (R345). -/
def decodePave (w : W32) : Option Instr :=
  match (fld w 28 4).toNat with
  | 0x0 => if fld w 0 28 == 0x0 then some (.pvNop) else none
  | 0x1 => some (.pvVec (fld w 14 14) (fld w 0 14))
  | 0x2 => if fld w 0 3 == 0x0 then some (.pvRows (fld w 13 15) (fld w 3 10)) else none
  | 0x3 => some (.pvMac (fld w 14 14) (fld w 0 14))
  | 0x4 => if fld w 16 12 == 0x0 then some (.pvScale (fld w 0 16)) else none
  | 0x5 => if fld w 0 28 == 0x0 then some (.pvOut) else none
  | 0x6 => if fld w 0 28 == 0x0 then some (.pvSync) else none
  | 0x7 => if fld w 0 28 == 0x0 then some (.pvEnd) else none
  | _ => none

/-- Opcodes that trap PRIV in a kernel without SUPER (R62). -/
def isPrivileged (op : BitVec 8) : Bool := op == 0xE5 || (0xF0 ≤ op.toNat && op.toNat ≤ 0xF7)

/-- Completion classes (R52). `ab`: class b in the no-return form, class a otherwise. -/
inductive CClass where | f | a | b | ab | m | w
deriving DecidableEq, Repr

/-- The completion class of an opcode; reserved opcodes are class f (R61, R62). -/
def classOf (op : BitVec 8) : CClass :=
  match (op.toNat / 16), (op.toNat % 16) with
  | 0x0, 0x8 => .w
  | 0x1, 0x7 => .a
  | 0x1, 0x8 => .b
  | 0x8, 0x0 => .w
  | 0x8, 0x2 => .w
  | 0x9, 0x0 => .a
  | 0x9, 0x1 => .a
  | 0x9, 0x2 => .a
  | 0x9, 0x3 => .b
  | 0x9, 0x4 => .b
  | 0x9, 0x5 => .b
  | 0x9, 0x6 => .a
  | 0x9, 0x7 => .b
  | 0x9, 0x8 => .a
  | 0x9, 0x9 => .b
  | 0x9, 0xA => .b
  | 0x9, 0xB => .b
  | 0x9, 0xC => .b
  | 0x9, 0xD => .w
  | 0x9, 0xE => .b
  | 0x9, 0xF => .b
  | 0xA, 0x0 => .b
  | 0xA, 0x1 => .b
  | 0xA, 0x2 => .b
  | 0xA, 0x3 => .w
  | 0xA, 0x4 => .ab
  | 0xA, 0x5 => .ab
  | 0xA, 0x6 => .ab
  | 0xA, 0x7 => .ab
  | 0xA, 0x8 => .ab
  | 0xA, 0x9 => .ab
  | 0xA, 0xA => .ab
  | 0xA, 0xB => .ab
  | 0xA, 0xC => .a
  | 0xA, 0xD => .a
  | 0xB, 0x0 => .m
  | 0xB, 0x1 => .m
  | 0xB, 0x3 => .m
  | 0xB, 0x4 => .m
  | 0xB, 0x5 => .m
  | 0xB, 0x6 => .a
  | 0xB, 0x7 => .m
  | 0xB, 0x8 => .w
  | 0xB, 0xA => .m
  | 0xB, 0xB => .m
  | 0xC, 0x0 => .a
  | 0xC, 0x1 => .b
  | 0xC, 0x2 => .b
  | 0xC, 0x3 => .b
  | 0xC, 0x4 => .b
  | 0xC, 0x5 => .a
  | 0xC, 0x8 => .b
  | 0xC, 0x9 => .b
  | 0xC, 0xA => .b
  | 0xC, 0xB => .b
  | 0xC, 0xC => .b
  | 0xD, 0x0 => .w
  | 0xD, 0x8 => .a
  | 0xD, 0x9 => .b
  | 0xD, 0xA => .a
  | 0xD, 0xC => .a
  | 0xD, 0xD => .a
  | 0xD, 0xE => .b
  | 0xD, 0xF => .b
  | 0xE, 0x0 => .a
  | 0xE, 0x1 => .b
  | 0xE, 0x2 => .b
  | 0xE, 0x3 => .b
  | 0xE, 0x4 => .a
  | 0xE, 0x5 => .b
  | 0xE, 0x8 => .b
  | 0xE, 0x9 => .b
  | 0xE, 0xA => .a
  | 0xF, 0x0 => .a
  | 0xF, 0x1 => .a
  | 0xF, 0x2 => .a
  | 0xF, 0x3 => .b
  | 0xF, 0x4 => .b
  | 0xF, 0x5 => .a
  | 0xF, 0x6 => .b
  | 0xF, 0x7 => .b
  | _, _ => .f

/-- Clause-ending opcodes (R48). -/
def endsClause (op : BitVec 8) : Bool :=
  (0x01 ≤ op.toNat && op.toNat ≤ 0x08) || op == 0x0A || op == 0x0B || op == 0xD1 || op == 0xD2 || op == 0xE6

/-- The word of an instruction, from the encoding tables of the chapters; `none` for a step without a word. -/
def encode : Instr → Option W32
  | .bra o => some (0x1#8 ++ o)
  | .brz d i => some (0x2#8 ++ d ++ i)
  | .brnz d i => some (0x3#8 ++ d ++ i)
  | .call d i => some (0x4#8 ++ d ++ i)
  | .ret a => some (0x5F0#16 ++ a ++ 0x0#8)
  | .brx d a n => some (0x6#8 ++ d ++ a ++ n)
  | .split i => some (0x7F0#16 ++ i)
  | .join => some (0x8000000#32)
  | .dpush => some (0x9000000#32)
  | .dpop => some (0xA000000#32)
  | .exit => some (0xB000000#32)
  | .yield => some (0xC000000#32)
  | .mode i => some (0xDF0#16 ++ i)
  | .nop => some (0xE000000#32)
  | .ballot d a f => some (0x10#8 ++ d ++ a ++ f)
  | .vall d a => some (0x11#8 ++ d ++ a ++ 0x0#8)
  | .vany d a => some (0x12#8 ++ d ++ a ++ 0x0#8)
  | .shfl d a b => some (0x13#8 ++ d ++ a ++ b)
  | .shflx d a n => some (0x14#8 ++ d ++ a ++ n)
  | .shflu d a n => some (0x15#8 ++ d ++ a ++ n)
  | .shfld d a n => some (0x16#8 ++ d ++ a ++ n)
  | .rdlane d a n => some (0x17#8 ++ d ++ a ++ n)
  | .wrlane d a n => some (0x18#8 ++ d ++ a ++ n)
  | .lsum d a => some (0x19#8 ++ d ++ a ++ 0x0#8)
  | .lmax d a => some (0x1A#8 ++ d ++ a ++ 0x0#8)
  | .lmin d a => some (0x1B#8 ++ d ++ a ++ 0x0#8)
  | .scan d a f => some (0x1C#8 ++ d ++ a ++ f)
  | .mcount d a f => some (0x1D#8 ++ d ++ a ++ f)
  | .sadd d a b => some (0x20#8 ++ d ++ a ++ b)
  | .ssub d a b => some (0x21#8 ++ d ++ a ++ b)
  | .smul d a b => some (0x22#8 ++ d ++ a ++ b)
  | .smulh d a b => some (0x23#8 ++ d ++ a ++ b)
  | .smulhu d a b => some (0x24#8 ++ d ++ a ++ b)
  | .sdivu d a b => some (0x25#8 ++ d ++ a ++ b)
  | .sremu d a b => some (0x26#8 ++ d ++ a ++ b)
  | .sand d a b => some (0x27#8 ++ d ++ a ++ b)
  | .sor d a b => some (0x28#8 ++ d ++ a ++ b)
  | .sxor d a b => some (0x29#8 ++ d ++ a ++ b)
  | .sandn d a b => some (0x2A#8 ++ d ++ a ++ b)
  | .sshl d a b => some (0x2B#8 ++ d ++ a ++ b)
  | .sshr d a b => some (0x2C#8 ++ d ++ a ++ b)
  | .ssar d a b => some (0x2D#8 ++ d ++ a ++ b)
  | .smin d a b => some (0x2E#8 ++ d ++ a ++ b)
  | .smax d a b => some (0x2F#8 ++ d ++ a ++ b)
  | .sminu d a b => some (0x30#8 ++ d ++ a ++ b)
  | .smaxu d a b => some (0x31#8 ++ d ++ a ++ b)
  | .seq d a b => some (0x32#8 ++ d ++ a ++ b)
  | .slt d a b => some (0x33#8 ++ d ++ a ++ b)
  | .sltu d a b => some (0x34#8 ++ d ++ a ++ b)
  | .ssel d a b => some (0x35#8 ++ d ++ a ++ b)
  | .sbfe d a b => some (0x36#8 ++ d ++ a ++ b)
  | .sbfi d a b => some (0x37#8 ++ d ++ a ++ b)
  | .spopc d a => some (0x38#8 ++ d ++ a ++ 0x0#8)
  | .sclz d a => some (0x39#8 ++ d ++ a ++ 0x0#8)
  | .sctz d a => some (0x3A#8 ++ d ++ a ++ 0x0#8)
  | .smov d a => some (0x3B#8 ++ d ++ a ++ 0x0#8)
  | .smovi d i => some (0x3C#8 ++ d ++ i)
  | .smovh d i => some (0x3D#8 ++ d ++ i)
  | .add d a b => some (0x40#8 ++ d ++ a ++ b)
  | .sub d a b => some (0x41#8 ++ d ++ a ++ b)
  | .mul d a b => some (0x42#8 ++ d ++ a ++ b)
  | .fma d a b => some (0x43#8 ++ d ++ a ++ b)
  | .fms d a b => some (0x44#8 ++ d ++ a ++ b)
  | .fnma d a b => some (0x45#8 ++ d ++ a ++ b)
  | .min d a b => some (0x46#8 ++ d ++ a ++ b)
  | .max d a b => some (0x47#8 ++ d ++ a ++ b)
  | .abs d a => some (0x48#8 ++ d ++ a ++ 0x0#8)
  | .neg d a => some (0x49#8 ++ d ++ a ++ 0x0#8)
  | .mov d a => some (0x4A#8 ++ d ++ a ++ 0x0#8)
  | .and d a b => some (0x4B#8 ++ d ++ a ++ b)
  | .or d a b => some (0x4C#8 ++ d ++ a ++ b)
  | .xor d a b => some (0x4D#8 ++ d ++ a ++ b)
  | .not d a => some (0x4E#8 ++ d ++ a ++ 0x0#8)
  | .shl d a b => some (0x4F#8 ++ d ++ a ++ b)
  | .shr d a b => some (0x50#8 ++ d ++ a ++ b)
  | .sar d a b => some (0x51#8 ++ d ++ a ++ b)
  | .mulhi d a b => some (0x52#8 ++ d ++ a ++ b)
  | .clamp d a b => some (0x53#8 ++ d ++ a ++ b)
  | .sel d a b => some (0x54#8 ++ d ++ a ++ b)
  | .cmpeq d a b => some (0x55#8 ++ d ++ a ++ b)
  | .cmpne d a b => some (0x56#8 ++ d ++ a ++ b)
  | .cmplt d a b => some (0x57#8 ++ d ++ a ++ b)
  | .cmple d a b => some (0x58#8 ++ d ++ a ++ b)
  | .cmpun d a b => some (0x59#8 ++ d ++ a ++ b)
  | .floor d a => some (0x5A#8 ++ d ++ a ++ 0x0#8)
  | .ceil d a => some (0x5B#8 ++ d ++ a ++ 0x0#8)
  | .rnde d a => some (0x5C#8 ++ d ++ a ++ 0x0#8)
  | .trunc d a => some (0x5D#8 ++ d ++ a ++ 0x0#8)
  | .fract d a => some (0x5E#8 ++ d ++ a ++ 0x0#8)
  | .copysign d a b => some (0x5F#8 ++ d ++ a ++ b)
  | .popc d a => some (0x60#8 ++ d ++ a ++ 0x0#8)
  | .clz d a => some (0x61#8 ++ d ++ a ++ 0x0#8)
  | .bfe d a b => some (0x62#8 ++ d ++ a ++ b)
  | .bfi d a b => some (0x63#8 ++ d ++ a ++ b)
  | .dot2 d a b => some (0x64#8 ++ d ++ a ++ b)
  | .swaph d a f => some (0x65#8 ++ d ++ a ++ f)
  | .perm d a b => some (0x66#8 ++ d ++ a ++ b)
  | .lanes d a b => some (0x67#8 ++ d ++ a ++ b)
  | .ldexp d a b => some (0x68#8 ++ d ++ a ++ b)
  | .cvt d a f g => some (0x70#8 ++ d ++ a ++ f ++ g)
  | .cvtf d a e j s => some (0x71#8 ++ d ++ a ++ e ++ j ++ s)
  | .pack d a b => some (0x72#8 ++ d ++ a ++ b)
  | .unpkl d a => some (0x73#8 ++ d ++ a ++ 0x0#8)
  | .unpkh d a => some (0x74#8 ++ d ++ a ++ 0x0#8)
  | .rcp d a => some (0x75#8 ++ d ++ a ++ 0x0#8)
  | .rsq d a => some (0x76#8 ++ d ++ a ++ 0x0#8)
  | .sqrt d a => some (0x77#8 ++ d ++ a ++ 0x0#8)
  | .exp2 d a => some (0x78#8 ++ d ++ a ++ 0x0#8)
  | .log2 d a => some (0x79#8 ++ d ++ a ++ 0x0#8)
  | .sinpi d a => some (0x7A#8 ++ d ++ a ++ 0x0#8)
  | .cospi d a => some (0x7B#8 ++ d ++ a ++ 0x0#8)
  | .rred d a => some (0x7C#8 ++ d ++ a ++ 0x0#8)
  | .tanh d a => some (0x7D#8 ++ d ++ a ++ 0x0#8)
  | .div d a b => some (0x7E#8 ++ d ++ a ++ b)
  | .rgrow d i => some (0x80#8 ++ d ++ i)
  | .rshrink i => some (0x81F0#16 ++ i)
  | .trgrow d i => some (0x82#8 ++ d ++ i)
  | .trshrink i => some (0x83F0#16 ++ i)
  | .vshape d a f => some (0x84#8 ++ d ++ a ++ f)
  | .sread d n => some (0x85#8 ++ d ++ 0xF0#8 ++ n)
  | .swrite a n => some (0x86F0#16 ++ a ++ n)
  | .slit d n => some (0x87#8 ++ d ++ 0xF0#8 ++ n)
  | .ld d a b => some (0x90#8 ++ d ++ a ++ b)
  | .ld16 d a b => some (0x91#8 ++ d ++ a ++ b)
  | .ld8 d a b => some (0x92#8 ++ d ++ a ++ b)
  | .st d a b => some (0x93#8 ++ d ++ a ++ b)
  | .st16 d a b => some (0x94#8 ++ d ++ a ++ b)
  | .st8 d a b => some (0x95#8 ++ d ++ a ++ b)
  | .lds d a b => some (0x96#8 ++ d ++ a ++ b)
  | .sts d a b => some (0x97#8 ++ d ++ a ++ b)
  | .ldb d a b => some (0x98#8 ++ d ++ a ++ b)
  | .stb d a b => some (0x99#8 ++ d ++ a ++ b)
  | .smap d a b => some (0x9A#8 ++ d ++ a ++ b)
  | .sunmap a => some (0x9BF0#16 ++ a ++ 0x0#8)
  | .sflush a => some (0x9CF0#16 ++ a ++ 0x0#8)
  | .fence l k s => some (0x277C3C0#26 ++ l ++ k ++ s)
  | .cpy d a b => some (0x9E#8 ++ d ++ a ++ b)
  | .pref a b => some (0x9FF0#16 ++ a ++ b)
  | .binit d a b => some (0xA0#8 ++ d ++ a ++ b)
  | .barr a f => some (0xA1F0#16 ++ a ++ f)
  | .barx a b => some (0xA2F0#16 ++ a ++ b)
  | .bwait a b => some (0xA3F0#16 ++ a ++ b)
  | .atadd d a b => some (0xA4#8 ++ d ++ a ++ b)
  | .atmin d a b => some (0xA5#8 ++ d ++ a ++ b)
  | .atmax d a b => some (0xA6#8 ++ d ++ a ++ b)
  | .atand d a b => some (0xA7#8 ++ d ++ a ++ b)
  | .ator d a b => some (0xA8#8 ++ d ++ a ++ b)
  | .atxor d a b => some (0xA9#8 ++ d ++ a ++ b)
  | .atxch d a b => some (0xAA#8 ++ d ++ a ++ b)
  | .atcas d a b => some (0xAB#8 ++ d ++ a ++ b)
  | .tlincSignal d a => some (0xAC#8 ++ d ++ a ++ 0x0#8)
  | .tlincReserve d a => some (0xAC#8 ++ d ++ a ++ 0x1#8)
  | .tlincComplete d a => some (0xAC#8 ++ d ++ a ++ 0x2#8)
  | .tlrd d a f => some (0xAD#8 ++ d ++ a ++ f)
  | .tzero t => some (0xB00#12 ++ t ++ 0xF000#16)
  | .mma t a b => some (0xB10#12 ++ t ++ a ++ b)
  | .tld t a => some (0xB30#12 ++ t ++ a ++ 0x0#8)
  | .tst t a => some (0xB40#12 ++ t ++ a ++ 0x0#8)
  | .tcvt t u f g => some (0xB50#12 ++ t ++ 0x0#4 ++ u ++ f ++ g)
  | .tcolr d u c => some (0xB6#8 ++ d ++ 0x0#4 ++ u ++ c)
  | .tcolw t a c => some (0xB70#12 ++ t ++ a ++ c)
  | .mfence => some (0xB8000000#32)
  | .rprd d f => some (0xB9#8 ++ d ++ 0xF0#8 ++ f)
  | .stest t => some (0xBA0#12 ++ t ++ 0xF000#16)
  | .tscale t a f => some (0xBB0#12 ++ t ++ a ++ f)
  | .fopen d a => some (0xC0#8 ++ d ++ a ++ 0x0#8)
  | .fsend d a b => some (0xC1#8 ++ d ++ a ++ b)
  | .fmcast d a b => some (0xC2#8 ++ d ++ a ++ b)
  | .freseed a => some (0xC3F0#16 ++ a ++ 0x0#8)
  | .fclose a => some (0xC4F0#16 ++ a ++ 0x0#8)
  | .fstat d a f => some (0xC5#8 ++ d ++ a ++ f)
  | .coll d a b => some (0xC8#8 ++ d ++ a ++ b)
  | .cringCfg a n => some (0xC9F0#16 ++ a ++ 0x0#5 ++ n)
  | .cringRel a n => some (0xC9F0#16 ++ a ++ 0x1#5 ++ n)
  | .cringClose a n => some (0xC9F0#16 ++ a ++ 0x2#5 ++ n)
  | .tcopy d a b => some (0xCA#8 ++ d ++ a ++ b)
  | .xroute d a b => some (0xCB#8 ++ d ++ a ++ b)
  | .xtable a => some (0xCCF0#16 ++ a ++ 0x0#8)
  | .task n r => some (0xD0F0#16 ++ n ++ r)
  | .trap d i => some (0xD1#8 ++ d ++ i)
  | .tret => some (0xD2000000#32)
  | .tmask => some (0xD3000000#32)
  | .tunmask => some (0xD4000000#32)
  | .lkill => some (0xD5000000#32)
  | .mbrecv d a => some (0xD8#8 ++ d ++ a ++ 0xF0#8)
  | .mbsend d a b => some (0xD9#8 ++ d ++ a ++ b)
  | .mbpeek d a f => some (0xDA#8 ++ d ++ a ++ f)
  | .launch d a => some (0xDC#8 ++ d ++ a ++ 0xF0#8)
  | .kquery d a f => some (0xDD#8 ++ d ++ a ++ f)
  | .kcancel a => some (0xDEF0#16 ++ a ++ 0x0#8)
  | .kpreemptSave a => some (0xDFF0#16 ++ a ++ 0x0#8)
  | .kpreemptDiscard a => some (0xDFF0#16 ++ a ++ 0x1#8)
  | .aopen d a => some (0xE0#8 ++ d ++ a ++ 0x0#8)
  | .astep d a b => some (0xE1#8 ++ d ++ a ++ b)
  | .aclose a => some (0xE2F0#16 ++ a ++ 0x0#8)
  | .aabandon a => some (0xE3F0#16 ++ a ++ 0x0#8)
  | .aquery d a f => some (0xE4#8 ++ d ++ a ++ f)
  | .aresolve a b => some (0xE5F0#16 ++ a ++ b)
  | .acret a => some (0xE6F0#16 ++ a ++ 0x0#8)
  | .pvsub d a b => some (0xE8#8 ++ d ++ a ++ b)
  | .pvfill d a => some (0xE9#8 ++ d ++ a ++ 0xF0#8)
  | .pvstat d a f => some (0xEA#8 ++ d ++ a ++ f)
  | .bzreq d a => some (0xF0#8 ++ d ++ a ++ 0x0#8)
  | .keygenGenerate d a => some (0xF1#8 ++ d ++ a ++ 0x0#8)
  | .keygenDestroy d a => some (0xF1#8 ++ d ++ a ++ 0x1#8)
  | .keyseal d a b => some (0xF2#8 ++ d ++ a ++ b)
  | .attest d a b => some (0xF3#8 ++ d ++ a ++ b)
  | .locketw d a c => some (0xF4#8 ++ d ++ a ++ c)
  | .caprd d a f => some (0xF5#8 ++ d ++ a ++ f)
  | .tlbinv a f => some (0xF6F0#16 ++ a ++ f)
  | .fltret a => some (0xF7F0#16 ++ a ++ 0x0#8)
  | .pvNop => some (0x0#32)
  | .pvVec o n => some (0x1#4 ++ o ++ n)
  | .pvRows f n => some (0x2#4 ++ f ++ n ++ 0x0#3)
  | .pvMac c l => some (0x3#4 ++ c ++ l)
  | .pvScale s => some (0x4000#16 ++ s)
  | .pvOut => some (0x50000000#32)
  | .pvSync => some (0x60000000#32)
  | .pvEnd => some (0x70000000#32)
  | .clauseFetch => none
  | .clauseStart => none
  | .operationCompletion => none
  | .groupSwap => none
  | .groupExitDrain => none
  | .shareGrant => none
  | .pageWalkComplete => none
  | .faultRecordDelivery => none
  | .stashRecall => none
  | .blockedAccessResume => none
  | .copyEngineComplete => none
  | .leaseExpiry => none
  | .postedStoreArrival => none
  | .bwaitSatisfied => none
  | .ticketDrawResume => none
  | .matrixOpComplete => none
  | .transferStart => none
  | .chunkArrival => none
  | .trailerArrival => none
  | .nackArrival => none
  | .ackArrival => none
  | .absentRetryTimer => none
  | .reseedArrival => none
  | .flowCloseComplete => none
  | .tcopyCreditGrant => none
  | .ringLineReport => none
  | .descriptorReceive => none
  | .contribEntryHead => none
  | .collectiveComplete => none
  | .capacityClaim => none
  | .claimReply => none
  | .taskCommit => none
  | .trapDelivery => none
  | .deferredTrapTake => none
  | .stopComplete => none
  | .maskedHoldTimeout => none
  | .contextRestore => none
  | .sealArrival => none
  | .mailboxFieldStore => none
  | .hostMailboxWrite => none
  | .outboundPhaseAdvance => none
  | .teamDispatch => none
  | .retirementComplete => none
  | .compensatorLaunch => none
  | .compensatorRetire => none
  | .paveCommandStart => none
  | .paveCommandComplete => none
  | .paveFillComplete => none
  | .rehashSweepComplete => none
  | .unitScrubComplete => none
  | .keyDrawComplete => none
  | .generatorRetest => none
  | .hostMemWrite => none
  | .hostMemRead => none
  | .auditRecordDelivery => none
  | .mcmdLock => none
  | .mcmdRun => none
  | .mcmdDrawOpenKey => none
  | .bar0Write => none
  | .throttleStep => none
  | .coldReset => none
  | .warmReset => none
  | .bar0Read => none

/-- The instruction the decoder reads from an instruction whose bits are `w`: the four bytes as stored (R24, R46) are
read as a word of the clause stream, and as a pavé word where the clause stream has no such word (log entry 10). -/
def decodeTableWord (nbits w : Nat) : Option Instr :=
  if nbits = 32 then
    let x := BitVec.ofNat 32 (leNat (leBytes w 4))
    match decode x with
    | .ok i => some i
    | .error _ => decodePave x
  else none

end Sys2Proof
end

