-- ==== Sys2Proof/Config.lean ====
section
/-! DEFINITION. What the manual leaves to an implementation or leaves open: free values without a body, and
the published standards that the scope file uses "as published" (00_scope, "Outside the scope"). -/

namespace Sys2Proof.Config

/-- A byte the manual calls undefined (R352, R353, R361, R204, R234); log entry 5. -/
opaque freeByte : Nat → Byte
/-- A 64-bit value the manual leaves open: measurements, cycle counts between two steps; log entry 6. -/
opaque freeWord : Nat → W64
/-- Which of the values within the bound of R152 an approximated function delivers, as a function of the
function's number, the element format's width, the operand bits and GMODE; log entry 7. -/
opaque funcPick : Nat → Nat → Nat → Nat → Nat
/-- SHAKE256 of a byte string, with an output length (the SHA-3 family, used as published); log entry 8. -/
opaque shake256 : List Byte → Nat → List Byte
/-- AES-256 of a block of 16 bytes under a key of 32 (used as published); log entry 8. -/
opaque aes256 : List Byte → List Byte → List Byte
/-- The 1,024 raw bits that draw `n` takes from the true random number generator (R356); log entry 8. -/
opaque rawBits : Nat → List Byte
/-- The module's deterministic ML-DSA-65 signature of a byte string (FIPS 204, used as published); log entry 8. -/
opaque mlDsaSign : List Byte → List Byte
/-- The image of a firmware the management controller measures at reset (R357); log entry 8. -/
opaque firmware : List (List Byte)
/-- The locked allow-list whose measurement `attest` reports (R357); log entry 8. -/
opaque allowList : List Byte
/-- Code of a Locket event for which the manual gives no number (R364): a fenced sub-array 0, core 1, slice 2 or channel 3 (its
unit class), a reset 4, a corrected error 5, a lane of a Tythal port 6; log entry 6. -/
opaque lockCode : Nat → BitVec 16
/-- The unit number by which the Locket names a matrix sub-array (R213, R364): of core × 64 + sub-core × 16 + sub-array;
log entry 6. -/
opaque subArray : Nat → W64
/-- Offset of the Signet identity window in BAR0 (R370, ID 7; the manual names none); log entry 9. -/
opaque signetWindow : BitVec 32
/-- Offset of the Locket window in BAR0 (R370, ID 8; the manual names none); log entry 9. -/
opaque locketWindow : BitVec 32
/-- Bytes of the Locket window in BAR0 (R364 gives neither its size nor its layout); log entry 9. -/
opaque locketSpan : Nat
/-- The public half of the device identity key, 1,952 bytes (R357); log entry 8. -/
opaque publicKey : List Byte

/-- The slice hash: where among the slices of a list a 1,024-byte line is at home (R315 gives no function); log entry 24. -/
opaque sliceHash : List Nat → Nat → Nat
/-- The temperature limit of a die, in °C + 64 (R373 gives no number); log entry 25. -/
opaque dieLimit : Nat → Nat
/-- The share of a die's last-level TLB that holds a page, by its place among the die's 48 L2 slices (R307 gives no rule); log
entry 39. -/
opaque tlbShare : Nat → Nat
/-- Physical cores that a die has beyond 64 when the module leaves its test, at most 8 (R6); log entry 56. -/
opaque spareCores : Nat → Nat

end Sys2Proof.Config
end

