-- ==== Sys2Proof/Machine/State.lean ====
section
/-! DEFINITION. The state of the module as plain data, the state after reset, and the reasons a step can stop.
Each structure names the rules that give it. Numbers of slots, sectors and units are `Nat`; what software sees as
bits is a `BitVec`. -/

namespace Sys2Proof.Machine

open Sys2Proof

/-! ### Registers, tiles and tasks of a group -/

/-- Shape tag of a vector register (R114). -/
inductive Tag where | u | a | g
deriving DecidableEq, Repr

/-- A vector or operand-file register: tag and lanes. For `u` every lane holds the value, for `a` lane `i` holds
`b + i × c` with `b` lane 0 and `c` lane 1 minus lane 0 (R114, R118). `bad`: the lanes whose storage has failed (R360). -/
structure VReg where
  tag : Tag := .u
  l : Lanes := Lanes.splat 0
  bad : W32 := 0
deriving DecidableEq, Repr

/-- A PC slot: A, B, or the third slot of a handler (R91, R292). -/
inductive Slot where | a | b | h
deriving DecidableEq, Repr

/-- A resume point: clause header address and instruction index (R283). `resume`: set when the slot goes back to this
point, whose clause then starts without a WAIT test. -/
structure Pc where
  hdr : VA := 0
  idx : Nat := 0
  resume : Bool := false
  passed : Bool := false    -- the task-ending instruction there has had its commit (R222, R287)
  next : VA := 0            -- the word after the clause at whose `join` the slot is parked (R92, R104)
deriving DecidableEq, Repr

/-- A fetched and decoded clause (R46, R47): the module fetches it whole before any instruction issues. -/
structure Clause where
  hdr : VA
  head : W32
  words : List W32
  lits : List W32
  slot : Slot
  idx : Nat := 0
  started : Bool := false
  issuedM : Bool := false   -- a class-m instruction issued with EM nonzero (R199)
  issuedC : Bool := false   -- a `cpy` issued (R176)
  yield : Bool := false     -- `yield` executed (R107)
  target : Option VA := none -- target of the branch that ended the clause (R102)
  close : Bool := true       -- the end of the clause moves the slot's PC
deriving DecidableEq, Repr

/-- A barrier, mailbox, timeline, ring or capacity object: in a team's stash, or in a SYNC page at a fabric physical
address (R179). `va` is the address the program used, and `owner` the OWNER of its translation (R353). -/
inductive Obj where
  | stash (team off : Nat) (va : W64)
  | glob (pa : Nat) (va : W64) (owner : Nat)
deriving DecidableEq, Repr

/-- What a returning operation writes to registers (R53): lanes of a vector or operand-file code, or a scalar. -/
inductive Deliver where
  | vec (code : BitVec 8) (mask : W32) (lanes : Lanes) (tag : Tag)
  | scal (n : Nat) (v : W64)
deriving DecidableEq, Repr

/-- What a ticket draw that waits for room is for (R189): a `tlinc` 0 or 1, an engine command, a pavé command, a command
of a flow end, a launch, an activity, or a `bzreq` accepted at step `at_`. -/
inductive DrawFor where
  | tlinc (signal : Bool)
  | cmd (id : Nat)
  | pv (id : Nat)
  | flow (num : Nat)
  | kernel (bezel slot : Nat) (seq : W32)
  | act (slot : Nat) (seq : W32)
  | bezel (bezel at_ : Nat)
deriving DecidableEq, Repr

/-- What an outstanding operation waits for (R51). -/
inductive OpWhat where
  | ready                                   -- completes at an OPERATION_COMPLETION
  | held                                    -- held with the version, completes at its delivery
  | engine (cmd : Nat)                      -- completes with its engine command
  | matrix (q : Nat)                        -- in the matrix queue
  | keyDraw (slot : Nat)                    -- `keygen`: completes when the draw ends (R355)
  | draw (ctr : Obj) (why : DrawFor) (dst : Nat)   -- the ticket draw waits (R189); the ticket goes to scalar `dst`
  | tlcomplete (ctr : Obj) (ticket : Nat)   -- `tlinc` 2 whose completion is held (R189)
  | event                                   -- completes with an event of its own (`kcancel`, flows, activities)
  | inval (bezel lo size since : Nat)       -- a `tlbinv`: what was translated in the range before that step is under way (R366)
deriving DecidableEq, Repr

/-- An operation of a group that has issued and not completed (R51 to R53). -/
structure Op where
  id : Nat
  flag : Option Nat
  classA : Bool
  task : W32
  dest : List Deliver := []
  what : OpWhat := .ready
  ck : Bool := false        -- its results belong to the current checkpoint (R284)
  again : Option (Nat × List (Nat × Bool × Obj)) := none   -- a load that may still be performed later (R227): bytes a lane, lanes with SYNC and their places
deriving DecidableEq, Repr

/-- One 32 × 32 buffer of a tile store: row `i` belongs to lane `i` (R196). -/
abbrev TileBuf := Vector Lanes 32

/-- A tile buffer of zeros. -/
def TileBuf.zero : TileBuf := Vector.ofFn fun _ => Lanes.splat 0

/-- An architectural tile: two buffers, CUR and WR (R196). `bad0`, `bad1`: the rows of each whose storage has failed (R360). -/
structure Tile where
  p0 : TileBuf := TileBuf.zero
  p1 : TileBuf := TileBuf.zero
  cur : Bool := false
  wr : Bool := false
  bad0 : W32 := 0
  bad1 : W32 := 0
deriving DecidableEq, Repr

/-- A descriptor pair as read at issue (R200). -/
structure Desc where
  base : W64
  trans : Bool
  fslot : W64
  stride : W32
deriving DecidableEq, Repr

/-- A tile operation as it stands in the matrix queue (R197, R198). -/
inductive MWhat where
  | tzero (t : Nat)
  | mma (t : Nat) (a b : Desc)
  | tld (t : Nat) (d : Desc)
  | tst (t : Nat) (d : Desc) (rnd : Nat) (ftz : Bool)
  | tcvt (t u : Nat) (f g : Nat) (gmode : BitVec 16)
  | tcolr (u c : Nat)
  | tcolw (t c : Nat) (l : Lanes)
  | stest (t : Nat)
  | tscale (t : Nat) (col : Bool) (l : Lanes)
  | coll (t : Nat) (order : Nat)
deriving DecidableEq, Repr

/-- An entry of a group's matrix queue (R197); `batch` is set when its clause ends (R199). `fault`: the
address whose fault parks the queue (R205). -/
structure MOp where
  id : Nat
  what : MWhat
  rows : W32
  pc : Pc
  batch : Option Nat := none
  op : Option Nat := none
  task : W32
  fault : Option W64 := none
  read : Bool := false      -- `coll`: the tile has been read (R273)
  joins : Bool := true      -- joins a matrix batch (R198, R199)
  acc : Option (List (List W32)) := none   -- `mma`: the rows with the blocks below RP added (R203)
  kills : W32 := 0          -- rows of lanes that a poisoned operand killed (R205)
  migr : Bool := false      -- a MIGRATING page parks the queue until the next `tlbinv` (R163)
  heldAt : Option Nat := none   -- the tile that it reads has left the allocation: its place among the held tiles (R196, R197)
deriving DecidableEq, Repr

/-- A byte of a task-held store to a global address (R221). `instr`: the step of the store instruction, and `lane` its
lane or element; `sync`: the page is a SYNC page. -/
structure HeldByte where
  pa : Nat
  val : Byte
  va : W64
  owner : Nat := 0
  instr : Nat := 0
  lane : Nat := 0
  sync : Bool := false
deriving DecidableEq, Repr

/-- An instruction held with the version and delivered at commit (R222, R287 step 3). -/
inductive Deferred where
  | binit (o : Obj) (expected : W32) (scope : BitVec 3) (op : Nat)
  | wrlane (grp : Nat) (n : Nat) (mask : W32) (l : Lanes) (op : Nat)
  | mbsend (mb : Obj) (body : List Byte) (tag : W32) (irq : Bool) (op : Nat)
  | cring (kind : Nat) (ring : Nat) (arg : W64) (record : List Byte) (ctrl : Obj) (pas : List Nat) (op : Nat)
  | xtable (image : List Byte) (hdr : W64) (op : Nat)
  | freseed (flow : Nat) (handle : W64) (op : Nat)     -- `handle`: the launch whose end it names
  | fclose (flow : Nat) (handle : W64) (op : Nat)
  | locketw (code : BitVec 8) (a b : W64) (op : Nat)
deriving DecidableEq, Repr

/-- An operation on an object of a MIGRATING page, which waits for the `tlbinv` that ends the migration (R316): an arrival, a
completion, or a deferred instruction. -/
inductive HeldOp where
  | arrive (o : Obj) (count bytes : W32) (handle : W64) (agent : Nat)
  | complete (o : Obj) (ticket : W64)
  | deliver (r : GRef) (bezel core : Nat) (d : Deferred)
deriving DecidableEq, Repr

/-- A task's version and its accounting (R221, R285). -/
structure Version where
  held : List HeldByte := []           -- program order
  deferred : List Deferred := []       -- program order
  units : List Nat := []               -- global sectors by virtual sector number
  blocks : List (Nat × Nat) := []      -- stash blocks by team and block number
  heldRegs : Nat := 0                  -- registers released by the task (R123)
  heldTileN : Nat := 0                 -- tiles released by the task (R123)
  heldTiles : List (Nat × Tile) := []  -- tiles that it released, which it holds to its end (R125, R196)
  allocStart : Nat := 0                -- allocation at the task's start (R125)
  tilesStart : Nat := 0
deriving DecidableEq, Repr

/-- A checkpoint (R283). `full`: the full checkpoint of R290 (every register). -/
structure Ckpt where
  scal : List (Nat × W64) := []
  vec : List (Nat × VReg) := []
  pcA : Pc := {}
  pcB : Pc := {}
  s30 : W64 := 0
  s31 : W64 := 0
  dsp : W32 := 0
  gmode : BitVec 16 := 0
  latch : Option (BitVec 8) := none
  blive : Bool := false
  bjoin : Bool := false
  ajoin : Bool := false
  masked : Bool := false
  exited : W32 := 0
  mbat : W32 := 0
  cbat : W32 := 0
  taskSeq : W32 := 0
  recipe : BitVec 8 := 0
  bound : Nat := 0
  explicit : Bool := false
  alloc : Nat := 0
  tiles : Nat := 0
  recompute : VA := 0
  full : Bool := false
  entry : List Byte := []     -- the recipe entry it was written for
  cutM : Bool := false        -- the clause of the resume point has issued class-m instructions (R199)
  cutC : Bool := false        -- it has issued a `cpy` (R176)
  lastCopy : W32 := 0         -- last copy batch closed
  bad : Bool := false         -- holds a value whose storage has failed (R360)
deriving DecidableEq, Repr

/-- A trap report, system registers 16 to 24 (R293). -/
structure TrapReport where
  tcode : W64 := 0
  tpc : W64 := 0
  tkernel : W64 := 0
  tteam : W64 := 0
  ttask : W64 := 0
  taddr : W64 := 0
  tem : W64 := 0
  tgmode : W64 := 0
  tresume : W64 := 0
deriving DecidableEq, Repr

/-- A trap raised and not yet delivered (R292) or a deferred trap not yet taken (R375). -/
structure Pend where
  code : Nat
  swcode : BitVec 16 := 0
  pc : W64
  addr : W64
  em : W32
  slotB : Bool
  resume : Pc
  matrix : Bool := false
deriving DecidableEq, Repr

/-- What a group that issues nothing is waiting for (R52, R88). -/
inductive Wait where
  | none
  | boundary            -- the commit before a task-ending instruction (R287)
  | phase (o : Obj) (target : W32)          -- `bwait` (R186)
  | mbat (target : W32)
  | cbat (target : W32)
  | regs (n : Nat)      -- `rgrow` (R124)
  | tiles (n : Nat)     -- `trgrow` (R124)
  | count (f : Nat)     -- a flag count at 63 (R51)
  | queue               -- the matrix queue holds 8 entries (R197)
  | shrink (tiles : Bool) (lo : Nat)    -- `rshrink` or `trshrink`: writers of units from `lo` up (R127)
  | mfence              -- (R211)
  | posted (scope : Nat)                    -- `fence` with FLUSH, at a scope (R173)
  | lvq                 -- the load-value queue (R97)
  | leader              -- a shadow waits for its leader's class-w result
  | side                -- a shadow waits for a value that its leader has yet to read (R97, R121)
  | block (team blk : Nat)                  -- a stash block of another group's task (R224)
  | page (va : W64)     -- parked on a fault (R163)
  | migrating           -- parked on a MIGRATING page (R163)
  | drain               -- trap delivery waits for the group's operations (R292)
  | ckpt                -- a flashback waits for data of the checkpoint (R284)
  | recall (team off : Nat)                 -- a recall of a mapped block waits (R166)
  | fill (frame : Nat)                      -- a fill of a PAVE page is in progress (R344)
  | draw (o : Obj)                          -- an `astep` waits for the draw of its ticket (R189, R334)
deriving DecidableEq, Repr

/-- States of a group (R88). -/
inductive Life where | pending | active | waiting | parked | trapped | collective | exited
deriving DecidableEq, Repr

/-- Which code a group runs: its own, a trap handler (R292) or recompute code (R290). -/
inductive RunMode where | normal | handler | recompute
deriving DecidableEq, Repr

/-- Progress of the commit before a task-ending instruction: not begun, waiting for TASK_COMMIT, or done, with the
instruction about to issue again (R287). -/
inductive Bound where | idle | waiting | passed
deriving DecidableEq, Repr

/-- An entry of the load-value queue (R97). -/
structure LvqEntry where
  pc : W64
  dest : List Deliver
  filled : Bool
  op : Nat
deriving DecidableEq, Repr

/-- A group or a shadow group (R88 to R98, R118 to R121, R187, R292). -/
structure Group where
  num : Nat := 0
  role : Nat := 0
  roleIdx : Nat := 0
  vmax : Nat := 8
  tmax : Nat := 0
  life : Life := .pending
  inSet : Bool := false
  readySince : Nat := 0
  asleep : Bool := false             -- swapped out not ready, and not ready since (R88, R99)
  wait : Wait := .none
  mode : RunMode := .normal
  bnd : Bound := .idle
  bndHere : Bool := false            -- the new task begins at the waiting instruction itself (R186, R285)
  yielded : Bool := false            -- asked to be swapped out (R107)
  ticket : Option (Obj × W64) := none   -- the ticket that an `astep` has drawn before the commit that it waits for (R334)
  entry : List Byte := []            -- the recipe entry in force: RECOMPUTE, VLIST, SLIVE (R281, R282)
  nextEntry : Option (List Byte) := none   -- the entry that a `task` waiting to commit has read (R286)
  cutM : Bool := false               -- the clause that a trap or stop cut off has issued class-m instructions (R199)
  cutC : Bool := false               -- it has issued a `cpy` (R176)
  pcA : Pc := {}
  pcB : Pc := {}
  pcH : Pc := {}
  lastSlot : Slot := .b
  blive : Bool := false
  bjoin : Bool := false
  ajoin : Bool := false
  alive : Bool := true               -- slot A is live (R92)
  clause : Option Clause := none
  exited : W32 := 0
  dead : W32 := 0
  deadSrc : Bool := false
  masked : Bool := false
  gmode : BitVec 16 := 0
  dsp : W32 := 0
  ops : List Op := []
  nextOp : Nat := 1
  latch : Option (BitVec 8) := none
  s : Vector W64 32 := Vector.ofFn fun i => if i.val = 30 then 0xFFFFFFFF else 0
  sbad : W32 := 0                    -- scalar registers whose storage has failed (R360)
  v : List VReg := []
  o : Vector VReg 8 := Vector.ofFn fun _ => {}
  t : List Tile := []
  mq : List MOp := []
  rp : Nat := 0
  late : List (Nat × Nat × Nat) := []   -- bytes stored while tile operations were queued: last operation, space, address (R204)
  colls : Nat := 0                   -- `coll`s issued: the number of the team's last collective (R273)
  collOp : Nat := 0                  -- operation of the last `coll` it issued as communication group
  lastBatch : W32 := 0
  mbat : W32 := 0
  lastCopyBatch : W32 := 0
  cbat : W32 := 0
  copies : List (Nat × Option Nat) := []   -- outstanding copies: command and batch (R176)
  ver : Version := {}
  taskSeq : W32 := 0
  recipe : BitVec 8 := 0
  bound : Nat := 0
  explicit : Bool := false
  ck0 : Ckpt := {}
  ck1 : Ckpt := {}
  ckCur : Bool := false
  report : TrapReport := {}
  trapSeq : W32 := 0                 -- TASKSEQ of the last trap, for the row count of TCODE
  pend : Option Pend := none
  deferredTrap : Option Pend := none
  sig : W64 := -1
  laneSig : Vector W64 32 := Vector.ofFn fun _ => -1
  lvq : List LvqEntry := []
  side : List W64 := []              -- values that its class-f instructions read outside the pair, for its shadow (R97, R121)
  diff1 : Option W32 := none         -- D1 of R289
  killed1 : Bool := false            -- lanes were killed for this TASKSEQ (R289)
  acquire : Nat := 0                 -- leases begun before this step are not used (R173, R228)
  stopAt : Nat := 0                  -- `State.arith` when a stop reached the group (R300)
  halted : Bool := false             -- the hold of a masked group has timed out (R300)
deriving DecidableEq, Repr

/-! ### Teams -/

/-- Life of a team's context (R297). -/
inductive CtxState where | loading | running | stopping | saved | restoring | retired
deriving DecidableEq, Repr

/-- Why a saved context is not restored (R297). -/
inductive CtxReason where | none | capacity | shape
deriving DecidableEq, Repr

/-- A stash block mapped onto a global sector (R166). -/
structure Mapped where
  off : Nat
  va : W64
  sector : Nat
  owner : Nat                  -- OWNER of the translation (R353)
  filled : Bool
  dirty : Bool
deriving DecidableEq, Repr

/-- A block of the undo log: contents before the first write of the task of `owner` (R285). -/
structure Undo where
  owner : GRef
  blk : Nat
  old : List Byte
deriving DecidableEq, Repr

/-- A register or tile request that waits (R124), with the destination of its status. -/
structure Request where
  grp : Nat
  tiles : Bool
  n : Nat
  dst : BitVec 8
deriving DecidableEq, Repr

/-- States of a rank's collective object (R274). -/
inductive CollState where | idle | matching | running
deriving DecidableEq, Repr

/-- A rank's collective object and the command it serves (R272 to R274). `order`: which of the team's collectives it is;
`descs`: descriptors received, by rank; `tiles`: contributions read, by group; `inbox`: tiles of other ranks on this
device, by rank and sequence number; `pas`: the fabric addresses of every rank's ring object, as read at the issue. -/
structure Coll where
  st : CollState := .idle
  seq : Nat := 0
  order : Nat := 0
  commGrp : Nat := 0
  own : CollDesc := { seq := 0, func := 0, int := false, root := 0, groups := 0, ranks := 0 }
  descs : List (Nat × CollDesc) := []
  tiles : List (Nat × TileBuf) := []
  inbox : List (Nat × Nat × List TileBuf) := []
  out : W64 := 0
  stat : W64 := 0
  done : Option Obj := none
  pas : List Nat := []
  migr : Bool := false         -- a MIGRATING page of OUT or STAT parks the sequencer until the next `tlbinv` (R163)
  written : List Nat := []     -- sectors of OUT written already (R235)
deriving DecidableEq, Repr

/-- An open ring of a team (R267 to R270). -/
structure Ring where
  n : Nat
  buf : W64
  bufPa : List Nat            -- fabric address of each sector of BUF
  ctrl : Obj
  peers : W64                 -- address of the peer table
  scope : Nat
  ranks : Nat
  rank : Nat
  mode : Bool                 -- collective ring
  depth : Nat
  coll : Coll := {}
  closing : List (GRef × Nat) := []    -- operations of `cring close` that wait for the ring's `tcopy`s (R270)
deriving DecidableEq, Repr

/-- A placed or saved team (R79, R88, R123, R165, R297). `sid`: this model's number of the team. -/
structure Team where
  sid : Nat
  bezel : Nat
  kslot : Nat
  kseq : W32
  tid : Nat                    -- linear team id L of R90
  core : Nat                   -- module-wide logical core (R5)
  ctx : CtxState := .running
  reason : CtxReason := .none
  groups : List Group
  shadows : List Group := []
  stash : List (Nat × Byte) := []
  undo : List Undo := []
  mapped : List Mapped := []
  bad : List Nat := []         -- stash blocks that hold poisoned data (R360, R361)
  requests : List Request := []
  rings : List Ring := []
  collSkip : List Nat := []    -- collectives that ended with MISMATCH (R274)
  placedAt : Nat := 0
  acret : Option W32 := none
  ended : Bool := false
  moving : Bool := false       -- stopped by a bezel's shrink, to go on at once on another core (R314)
deriving DecidableEq, Repr

/-! ### Kernels and bezels -/

/-- States of a kernel (R82, coded as R86). -/
inductive KState where
  | recorded | admitted | running | draining | complete | completePartial | failed | refused | cancelled
deriving DecidableEq, Repr

/-- A kernel slot in use or holding a final state (R82, R84). -/
structure Kernel where
  slot : Nat
  seq : W32
  st : KState
  err : Nat := 0
  lost : W32 := 0
  ticket : W64 := 0
  record : List Byte              -- the 256 bytes `launch` read, with the fields R311 and R329 replace
  recipe0 : List Byte := []    -- first doubleword and entry 0 of the recipe table (R85)
  recAddr : W64                -- the value of a preloaded s6
  report : Option TrapReport := none   -- the report of the fatal trap that ended it (R292)
  nextTid : Nat := 0           -- team ids from here on have never been placed
  requeued : List Nat := []    -- discarded teams that are to be placed again, ascending (R87)
  exitedTeams : Nat := 0
  cancel : Bool := false
  comp : Option Nat := none    -- activity slot when the clasp unit launched it (R329)
  acret : Option W32 := none   -- status recorded by the first `acret` (R338)
  acq : Nat := 0               -- the step of the launch (R85)
  closed : List Nat := []      -- numbers of flow ends the launch has closed (R262)
  drawn : Bool := true         -- the DONECTR ticket has been drawn (R189)
  depBad : Bool := false       -- the dependence can never be met (R377)
  depOk : Bool := false        -- a test has found the dependence met (R377)
  depPa : Option Nat := none   -- where the last test of the dependence found DEPCTR (R377)
  depWait : Bool := false      -- the test of the dependence waits for a page (R377)
  depMigr : Bool := false      -- it waits for the `tlbinv` that ends a migration (R377)
  doneMigr : Bool := false     -- the completion of the ticket waits for such a `tlbinv` (R377)
deriving DecidableEq, Repr

/-- What joined a pending-fault entry (R164). -/
inductive Joiner where
  | grp (g : GRef)
  | matrix (g : GRef)
  | cmd (id : Nat)
  | act (slot : Nat)
  | flow (n : Nat) (handle va : W64)         -- an access of the end that a launch opened
  | mirror (n : Nat) (handle : W64) (off : Nat)   -- a mirror write-back of the end
  | kernel (slot : Nat)
  | coll (team ring : Nat)
deriving DecidableEq, Repr

/-- A pending-fault entry (R164). -/
structure FaultEntry where
  fid : W32
  granule : Nat
  va : W64
  count : Nat
  cause : Nat
  level : Nat
  write : Bool
  fetch : Bool
  engine : Bool
  smap : Bool
  handle : W64
  place : W32
  joined : List Joiner
  sent : Bool := false
deriving DecidableEq, Repr

/-- States of a bezel (R310). -/
inductive BState where | vacant | forming | active | growing | shrinking | dissolving
deriving DecidableEq, Repr

/-- One replica of an expert in the switch table (R276) and its load value (R279). -/
structure Replica where
  expert : Nat
  k : Nat
  die : Nat
  device : Nat
  ctr : W64
  load : Nat := 0
deriving DecidableEq, Repr

/-- A bezel (R74, R84, R164, R276, R309, R310). -/
structure Bezel where
  num : Nat
  st : BState := .vacant
  cfg : List Byte := []        -- the 64-byte configuration (R309)
  operator : Bool := false
  seat : Nat := 0
  kernels : List Kernel := []
  freed : List Nat := []       -- kernel slots freed, oldest first; slots never used come before them
  nextSlot : Nat := 0          -- lowest slot never used
  nextSeq : W32 := 1
  queues : List (Nat × Nat) := []      -- (priority, kernel slot) in order of joining
  lastServed : List (Nat × Nat × Nat × Bool) := []   -- die, priority, kernel slot; scan after it, or at it (R76)
  faults : List FaultEntry := []
  nextFid : W32 := 1
  msgs : List (W32 × List Byte) := []  -- records waiting for the fault mailbox: TAG and body
  switch : List Replica := []
  ticket : Option (Obj × W64) := none  -- counter and ticket of the transition
  sweep : Bool := false                -- a rehash sweep is running (R315)
  oldSlices : List Nat := []           -- the slices of the old hash meanwhile (R315)
  drawAt : Nat := 0                    -- the step that accepted the transition (R189, R312)
deriving DecidableEq, Repr

/-- States of a unit (R306). `gone`: a number that the remap table does not present (R6, R363). -/
inductive UState where
  | free
  | member (b : Nat)
  | leaving (b : Nat)
  | quarantine
  | gone
deriving DecidableEq, Repr

/-- The fenced sub-arrays of a sub-core's matrix unit; `whole`: the unit itself is fenced (R213). -/
structure SubFence where
  core : Nat
  sub : Nat
  mask : BitVec 16
  whole : Bool := false
deriving DecidableEq, Repr

/-- A sub-core whose capacity is smaller than R7 gives: vector registers of its repaired register file (R303), and tiles, none
where its matrix unit is fenced (R213). -/
structure SubCap where
  core : Nat
  sub : Nat
  regs : Nat
  tiles : Nat
deriving DecidableEq, Repr

/-! ### Memory system -/

/-- A sector sidecar (R9). CHECK and SPEC are computed from the sector and the open versions. `epoch`: which draw of
the owner's keys encrypted the sector (R351, R354; log entry 12). -/
structure Sidecar where
  owner : Nat := 0
  epoch : Nat := 0
  rseq : BitVec 16 := 0
  sync : Bool := false
  pave : Bool := false
  poison : Bool := false
deriving DecidableEq, Repr

/-- A lease: a core's copy of a 256-byte sector, with the step and the fabric cycle at which it began (R226, R233). -/
structure Lease where
  core : Nat
  sector : Nat
  data : List Byte
  start : Nat
  cycle : W64 := 0
deriving DecidableEq, Repr

/-- A leaf found by a walk (R157): its raw value and level. -/
structure Leaf where
  raw : W64
  level : Nat
deriving DecidableEq, Repr

/-- A cached translation: in the L1 TLB of a core, or in the last-level TLB of a die (R161). -/
structure TlbEntry where
  bezel : Nat
  core : Nat                   -- the core, or the die
  page : Nat                   -- virtual address of the page
  leaf : Leaf
deriving DecidableEq, Repr

/-- A committed store, no-return atomic or arrival on its way to its home (R231, R232). `instr`: the step of its
instruction; `vis`: the widest scope, coded as SCOPE of R173, at which a release has made a store within this module visible
already (R228), none where only its own group sees it. `sig`: no store, but the counter and ticket of a `tlinc` 0 that
completes once the stores of its group before it have arrived (R190). -/
structure Posted where
  src : GRef
  kernel : Nat × Nat           -- bezel and kernel slot
  core : Nat := 0
  instr : Nat := 0
  cells : List (Nat × Byte)
  atomic : Option (Nat × BitVec 8 × Nat × W32) := none   -- address, opcode, ETYPE, operand (R232)
  arrive : Option (Obj × W32 × W32 × Nat) := none        -- object, count, bytes, the operation whose flag is raised (R184)
  owner : Nat
  sync : Bool := false
  vis : Option Nat := none
  acked : Bool := false        -- visible at its home to the agents of that module (R173)
  sig : Option (Obj × W64) := none
deriving DecidableEq, Repr

/-- The last release of an object by an agent (R180, R189, R228): `key` is the phase in which it arrived, or the ticket that it
completed, and `scope` is coded as SCOPE of R173. -/
structure ObjRel where
  obj : Obj
  key : Nat
  agent : Nat
  scope : Nat
  step : Nat
deriving DecidableEq, Repr

/-! ### Engines -/

/-- The agent that gave an engine its command. -/
structure Issuer where
  g : GRef
  pc : Pc
  op : Option Nat
  bezel : Nat
  kslot : Nat
  handle : W64
  key : Nat                    -- owner slot
  core : Nat
  ctr : Option (Obj × W64) := none    -- counter and ticket (R189)
  drawn : Bool := true         -- the ticket has been drawn; a command whose draw waits is held back (R189)
  since : Nat := 0             -- step of the issue (R234)
deriving DecidableEq, Repr

/-- The reply to a claim (R279): the replica asked, or none for the spill object; the row granted; the load value; ROWS
and TAGS of the object. -/
structure Claim where
  replica : Option Nat
  row : Option Nat
  load : Nat
  rows : W64
  tags : W64
deriving DecidableEq, Repr

/-- Progress of an `xroute` (R279). `entry`: the expert's entry as the packet read it at its first claim. -/
structure Route where
  packet : Nat := 0
  entry : Option (List Replica) := none
  tried : List Nat := []
  claim : Option Claim := none
  delivered : Nat := 0
  spilled : Nat := 0
  dropped : Nat := 0
deriving DecidableEq, Repr

/-- An engine command other than a pavé or a flow command. -/
inductive CmdWhat where
  | copy (record : List Byte) (coords : W64) (obj : Option Obj)
  | tcopy (src : W64) (ring rank u : Nat)
  | xroute (record : List Byte) (stat : W64) (r : Route)
  | fill (frame : Nat) (page : W64) (leaf : Leaf) (src : W64) (rb : Nat)
deriving DecidableEq, Repr

/-- A command of a copy engine, `tcopy` engine, sequencer or pavé fill (R175, R271, R279, R344). -/
structure Cmd where
  id : Nat
  by_ : Issuer
  what : CmdWhat
  fault : Option W64 := none
  stopped : Bool := false
  written : List Nat := []     -- destination sectors written already: by address for `cpy`, by place in the line or row else (R235)
  migr : Bool := false         -- a MIGRATING page parks it until the next `tlbinv` (R163)
  begun : Bool := false        -- a fill has raised GEN, and reads of its page wait (R344)
deriving DecidableEq, Repr

/-- States of a pavé engine (R341). -/
inductive PvState where | idle | running | waiting | fenced
deriving DecidableEq, Repr

/-- A pavé engine (R341, R350). `acc`: the accumulators that are not +0. -/
structure PvEngine where
  chan : Nat
  st : PvState := .idle
  buf : List (BitVec 16) := []
  vcnt : Nat := 0
  rbase : Nat := 0
  nr : Nat := 0
  acc : List (Nat × W32) := []
  cur : Option Nat := none
  idx : Nat := 0
  word : W32 := 0
  lastErr : Nat := 0
  completed : W32 := 0
  fault : Option W64 := none
  migr : Bool := false          -- WAITING for the `tlbinv` that ends a migration (R163)
  outs : List Nat := []         -- sectors, by address, that the running `pv.out` has written (R235, R346)
deriving DecidableEq, Repr

/-- A pavé command (R347): the vector snapshot, the set, and what each ended engine reported. -/
structure PvCmd where
  id : Nat
  by_ : Issuer
  record : List Byte
  fslot : W64
  vec : List (BitVec 16)
  first : Nat
  count : Nat
  pagePa : Nat
  leaf : Leaf
  ended : List (Nat × Nat × Nat) := []   -- channel, error, word index
  gen : Option (W32 × Nat) := none       -- GEN and RB of the generation it reads (R238)
  stopped : Bool := false                -- its team's context holds it (R298)
  waitAt : List Nat := []                -- channels of its set whose engines have yet to take it (R341)
  saved : List PvEngine := []            -- the state of the engines that ran it at the stop (R302)
  vecPoison : Bool := false
  fault : Option W64 := none             -- STAT's fault
  migr : Bool := false                   -- STAT's MIGRATING page parks it until the next `tlbinv` (R163)
deriving DecidableEq, Repr

/-- A pavé descriptor of a frame, by the fabric address of the page's sector 0, with the frame's key binding (R342). -/
structure PvDesc where
  frame : Nat
  owner : Nat
  epoch : Nat
  gen : W32
  rb : Nat
deriving DecidableEq, Repr

/-! ### Flows -/

/-- States of a flow end (R245). -/
inductive FState where | opened | desync | reseeding | suspended | closing
deriving DecidableEq, Repr

/-- A mirror slot that is not in its initial state (R244). -/
structure FSlot where
  s : Nat
  data : List Byte := []
  gen : BitVec 16 := 0
  valid : Bool := false
  bad : Bool := false       -- its storage has failed (R360)
deriving DecidableEq, Repr

/-- A queued command of a send end (R253). -/
inductive FlowCmd where
  | send (record : List Byte) (coords : W64) (mask : Nat) (by_ : Issuer)
  | reseed (op : Nat) (g : GRef)
deriving DecidableEq, Repr

/-- The transfer in progress of a send end (R253 to R256). -/
structure Transfer where
  cmd : FlowCmd
  seq : W32
  chunks : List (Nat × BitVec 16 × List Byte) := []   -- retry copies: slot, generation, data
  check : W32 := 0
  waiting : List Nat := []      -- members that have not answered
  payload : Nat := 0
  sent : Nat := 0               -- chunks sent (R258)
  trailer : Bool := false       -- the trailer has been sent (R258)
  gone : Bool := false          -- a member answered GONE
  backoff : List (Nat × Option (List Nat) × Nat) := []  -- member, slots to resend (`[]`: the trailer), last delay in µs
  nacks : List (Nat × List (Nat × Nat) × Bool) := []    -- NACKs received while SUSPENDED or before the trailer was sent (R258)
deriving DecidableEq, Repr

/-- A flow end (R241 to R264). -/
structure FlowEnd where
  num : Nat
  bezel : Nat
  kslot : Nat
  handle : W64                  -- kernel that opened it
  team : Nat                    -- team whose group opened it; the end moves with the team (R303)
  tid : Nat                     -- its team id, by which the end follows a team that is placed again (R87)
  key : Nat
  record : List Byte
  members : List W32 := []      -- member table of a multicast sender, or its one peer
  die : Nat
  st : FState := .opened
  held : FState := .opened      -- the state held at save (R245)
  slots : List FSlot := []
  queue : List FlowCmd := []
  cur : Option Transfer := none
  lastSeq : W32 := 0
  accepted : List (Nat × BitVec 16 × W32 × Nat) := []  -- slot, h, term of R251, length; ACC is the XOR of the terms
  holding : List (Nat × BitVec 16) := []
  noted : List (Nat × Nat) := []                     -- slot and reason
  outWin : Bool := false
  dead : Bool := false          -- answers GONE after a PROT (R260)
  spoiled : Bool := false       -- a program has stored into its mirror area: its predictions are undefined (R244)
  migr : List W64 := []         -- accesses that MIGRATING pages park until the next `tlbinv` (R163, R260)
  ackDue : Option W32 := none   -- the sequence number of an ACK that follows the RXOBJ arrival (R256)
  lastReason : Nat := 0
  coded : W64 := 0
  payload : W64 := 0
  resends : W64 := 0
  closeOps : List (GRef × Nat) := []
deriving DecidableEq, Repr

/-- A piece of a flow end's mirror whose write-back to its mirror area waits (R13, R260); `f`: the end as it stood. -/
structure MirrorWrite where
  f : FlowEnd
  off : Nat
  data : List Byte
  migr : Bool := false          -- its page is MIGRATING, until the next `tlbinv` (R163, R260)
deriving DecidableEq, Repr

/-- A message on the links (R248, R251, R252, R262). -/
inductive NetMsg where
  | chunk (dev die flow srcDev srcFlow : Nat) (hdr : W64) (body : List Byte)
  | trailer (dev die flow srcDev srcFlow : Nat) (check seq : W32)
  | ack (dev die flow srcDev srcFlow : Nat) (seq : W32) (reseed : Bool)
  | nack (dev die flow srcDev srcFlow : Nat) (seq : W32) (slots : List (Nat × Nat)) (all : Bool)
  | reseed (dev die flow srcDev srcFlow : Nat)
  | desc (pa rank : Nat) (d : CollDesc)   -- to the ring object at a fabric address, from a rank
deriving DecidableEq, Repr

/-! ### Activities -/

/-- States of an activity (R324, coded as R336). -/
inductive AState where | opened | closed | abandoning | blocked | abandoned | broken
deriving DecidableEq, Repr

/-- An entry of a clasp stack (R322, R323). -/
structure ClaspEntry where
  args : List Byte
  keys : List W64
  code : W64
  stamp : Nat
  die : Nat
  damaged : Bool := false
deriving DecidableEq, Repr

/-- An activity slot in use or holding a final state (R320 to R330). -/
structure Activity where
  slot : Nat
  seq : W32
  bezel : Nat
  key : Nat                     -- KEY of the opening launch
  kslot : Nat
  kseq : W32
  st : AState := .opened
  record : List Byte
  stack : List ClaspEntry := [] -- newest first
  ticket : W64 := 0
  ctr : Option Obj := none
  drawn : Bool := true          -- the ticket has been drawn (R189)
  running : Option Nat := none  -- kernel slot of the running compensator
  ended : Option W32 := none    -- status of a compensator that has retired and is not yet judged (R330)
  lastComp : W64 := 0
  lastStatus : W32 := 0
  waitsOn : W64 := 0
  task : Option (GRef × W32) := none   -- the task that issued `aopen`, while uncommitted
  fault : Option W64 := none
  migr : Bool := false          -- a MIGRATING STAGE page parks its compensator's launch until the next `tlbinv` (R329)
deriving DecidableEq, Repr

/-! ### Trust, reliability and host -/

/-- States of a key slot (R354). -/
inductive KeyState where | empty | generating | ready
deriving DecidableEq, Repr

/-- A key slot with its three AES-256 keys: the open slot, or a tenant slot that is not EMPTY and unsealed (R352, R354). `epoch`: the
draw that made the keys. -/
structure KeySlot where
  slot : Nat
  st : KeyState := .empty
  sealed : Option Nat := none
  epoch : Nat := 0
  dataKey : List Byte := []      -- XTS data key
  tweakKey : List Byte := []     -- XTS tweak key
  ctrKey : List Byte := []       -- CTR key
deriving DecidableEq, Repr

/-- States of the generator (R356). -/
inductive GenState where | healthy | retesting | fenced
deriving DecidableEq, Repr

/-- A Locket event (R364). -/
structure LocketEvent where
  time : W64
  seq : W32
  die : Nat
  cls : Nat
  code : BitVec 16
  handle : W64
  arg : W64
deriving DecidableEq, Repr

/-- A die's Locket ring, oldest event first, and its next sequence number (R364). -/
structure Locket where
  events : List LocketEvent := []
  seq : W32 := 0
deriving DecidableEq, Repr

/-- An undelivered audit record (R359). -/
structure Audit where
  bezel : Nat
  kind : Nat
  addr : W64
  count : Nat
deriving DecidableEq, Repr

/-- Management states (R372). -/
inductive MState where | reset | configOpen | configLocked | run
deriving DecidableEq, Repr

/-- What the host receives from its port (R67, R72, R359, R368, R372). -/
inductive HostOut where
  | readData (addr : Nat) (data : List Byte)
  | barData (off : BitVec 16) (v : W64)
  | abort (off : BitVec 16)
  | msix (vector : Nat)
deriving DecidableEq, Repr

/-- BAR0 and the host port (R368, R372, R373). -/
structure HostPort where
  mstate : MState := .reset
  entropy : Bool := false
  bootbz : W64 := 0
  power : W64 := 0
  temp : BitVec 32 := 0
  thrStep : BitVec 2 := 0
  thrCount : W32 := 0
  thrLimit : W64 := 0
  lanes : Nat := 16                    -- width at which the port has trained (R367)
  rate : Nat := 64                     -- its rate in GT/s (R367)
  out : List HostOut := []             -- newest first
  outbound : List (Obj × W32 × Bool × GRef × Nat) := []   -- outbound messages whose CXL.cache writes are in flight, with the `mbsend` (R72)
deriving DecidableEq, Repr

/-- A word of a storage array whose error cannot be corrected (R360). -/
inductive ErrorAt where
  | l1 (core sector : Nat)               -- a line of a core's L1
  | stash (team blk : Nat)               -- a block of a team's stash
  | l2 (sector : Nat)                    -- a sector in an L2 slice, or an object in a sync engine's SRAM
  | hbm (sector : Nat)                   -- a sector in a channel
  | vreg (g : GRef) (code : BitVec 8) (lanes : W32)   -- lanes of a vector or operand-file register
  | sreg (g : GRef) (n : Nat)            -- a scalar register
  | tile (g : GRef) (t : Nat) (rows : W32)            -- rows of a tile
  | ckpt (g : GRef)                      -- the current checkpoint of a group
  | mirror (flow slot : Nat)             -- a slot of a mirror cache
  | clasp (act n : Nat)                  -- entry `n` of an activity's stack, newest first (R331)
  | check (sector : Nat)                 -- a sector whose CHECK does not hold where it moves (R362)
deriving DecidableEq, Repr

/-- What a unit of the hardware does on its own, at a time of its choosing, without an event of the table: steps that the rules
let happen between events. -/
inductive HwStep where
  | fill (core sector : Nat)             -- an L1 takes a sector, as a prefetch does (R172, R226)
  | line (bezel line : Nat)              -- an access of a bezel looks a line up in L2 (R315)
  | dropLine (line : Nat)                -- L2 drops a line
  | evict (die : Bool) (bezel at_ page : Nat)         -- a TLB drops a leaf (R161)
  | load (g : GRef) (op : Nat)           -- an outstanding load is performed now (R227)
  | ack (i : Nat)                        -- a posted entry is visible inside its destination's module (R173, R232)
  | cmdSector (cmd n : Nat)              -- a command's engine writes one of its destination sectors (R235)
  | collSector (sid ring n : Nat) (given : List (Nat × List (List Lanes)))   -- a sequencer writes one sector of OUT (R235)
  | paveSector (chan n : Nat)            -- a pavé engine writes one sector of its `pv.out` (R235, R346)
  | flowStep (flow : Nat)                -- a send end begins its next command, or sends a chunk or the trailer (R253, R258)
  | flowAck (flow : Nat)                 -- a receive end sends the ACK that follows its RXOBJ arrival (R256)
  | mirrorRetry (i : Nat)                -- a mirror write-back that waited is tried again (R260)
  | corrected (die : Nat) (unit : W64)   -- an error that an array has corrected (R360)
  | error (e : ErrorAt)                  -- an error that an array cannot correct (R360)
  | fence (u : UnitId)                   -- a unit whose self-test fails is fenced (R363)
  | fenceLane (port lane : Nat)          -- a lane of a Tythal port is fenced (R363)
  | train (lanes rate : Nat)             -- the host port trains (R367)
  | repair (core sub regs : Nat)         -- a register file is to be repaired at the next reset (R303)
deriving DecidableEq, Repr

/-- One choice of what happens next: an event of the table, the issue of a group's next instruction, the next word of
a pavé engine, or a step of a unit that no event names. -/
inductive Move where
  | event (e : Event)
  | issue (g : GRef)
  | pave (chan : Nat)
  | hw (h : HwStep)
deriving DecidableEq, Repr

/-- The module. -/
structure State where
  devId : Nat := 0                     -- this module's device id (R155)
  stepNo : Nat := 0                    -- logical time, the model's own (log entry 1)
  fresh : Nat := 0                     -- index of the next free value, the model's own (log entries 5 and 6)
  cycles : W64 := 0                    -- fabric cycles since cold reset (R364)
  arith : Nat := 0                     -- arithmetic clock since cold reset, in 720ths of a cycle (R10, R373)
  cur : Option GRef := none            -- the group whose instruction is issuing
  input : Option Event := none         -- what the running step without a word acts on (log entry 1)
  curEng : Option Nat := none          -- the pavé engine whose word is running
  agenda : List Move := []             -- what the environment and the schedulers do next (log entry 1)
  mem : List (Nat × Byte) := []        -- bytes by fabric physical address
  side : List (Nat × Sidecar) := []    -- sector sidecars by sector number (R9)
  leases : List Lease := []
  lines : List (Nat × Nat) := []       -- the 1,024-byte lines that L2 holds, by number, with the slice of each (R315)
  errs : List (UnitId × Nat × Nat) := []   -- where errors that cannot be corrected have arisen since the last reset (R363)
  tlb : List TlbEntry := []            -- the cores' L1 TLBs, newest entry first (R161)
  dieTlb : List TlbEntry := []         -- the dies' last-level TLBs, newest entry first (R161)
  retired : List (Nat × Nat) := []     -- the persistent retire list: first sector and sectors of a RETIRED frame (R159)
  posted : List Posted := []
  units : List (UnitId × UState) := []         -- units that are not FREE (R306)
  fencedUnits : List UnitId := []      -- units fenced since the last reset, which keep their states (R306, R363)
  fencedSub : List SubFence := []      -- matrix units with fenced sub-arrays (R213)
  lost : Vector Nat 4 := Vector.ofFn fun _ => 0   -- physical cores of each die fenced up to the last reset (R6, R363)
  caps : List SubCap := []             -- sub-cores of smaller capacity since the last reset (R213, R303)
  nextCaps : List SubCap := []         -- sub-cores of smaller capacity from the next reset on
  lanesOut : List (Nat × Nat) := []    -- fenced lanes of Tythal ports, by port (die × 8 + port) and lane (R5, R363)
  bezels : List Bezel := []            -- bezels that have been formed
  teams : List Team := []
  nextSid : Nat := 1
  cmds : List Cmd := []
  nextCmd : Nat := 1
  rel : List ObjRel := []                 -- releases of objects (R180, R189, R228; log entry 11)
  late : List (Nat × Nat × Nat) := []  -- bytes stored while engine commands are outstanding: space, address, step (R234)
  heldCompletions : List (Obj × Nat) := []     -- completions beyond BITMAP held at a home: counter, ticket (R189)
  heldOps : List HeldOp := []          -- operations on objects of MIGRATING pages (R316)
  flows : List FlowEnd := []
  mirrorQ : List MirrorWrite := []     -- mirror write-backs that wait (R260)
  net : List NetMsg := []
  pvCmds : List PvCmd := []
  engines : List PvEngine := []        -- engines that are not in their reset state (R341)
  pvDescs : List PvDesc := []
  acts : List Activity := []
  actFreed : List Nat := []            -- activity slots freed, oldest first (R320)
  actNext : Nat := 0                   -- lowest activity slot never used
  actSeq : W32 := 1
  stamp : Nat := 1                     -- clasp timestamp counter (R323)
  keys : List KeySlot := []
  openKey : KeySlot := { slot := 0 }   -- the module's open key, slot 0 (R352)
  written : List Nat := []             -- sectors written since the last reset, each once (R352)
  epochs : Nat := 1                    -- next key epoch (log entry 12)
  gen : GenState := .healthy
  fails : Nat := 0
  measurement : List Byte := []        -- firmware measurement M (R357)
  lockets : Vector Locket 4 := Vector.ofFn fun _ => {}
  audits : List Audit := []
  host : HostPort := {}
deriving DecidableEq, Repr

/-- The machine right after reset: MSTATE RESET, no bezel, every unit FREE, every register at its reset value
(R306, R364, R368, R372; registers the manual gives no reset value for: log entry 3). -/
def State.reset : State := {}

/-- Why the machine stops with a fault. -/
inductive Fault where
  /-- The host addresses device memory outside the module's HDM decoder, space 0 of its local addresses (R367);
  raised by HOST_MEM_READ and HOST_MEM_WRITE; safe. -/
  | noSuchAddress
deriving DecidableEq, Repr

/-- Why a step has no meaning. -/
inductive Refusal where
  /-- The instruction's meaning is not written; raised by `exec`'s refused arms; safe. -/
  | notModelled (mnemonic : String)
  /-- The event cannot occur in this state (its object is absent or not in the state the event's rule names); raised
  by the meanings of events and by `step`; safe. -/
  | notEnabled (why : String)
  /-- No group, or no pavé engine, is at an instruction; raised by the meanings of words; safe. -/
  | noIssuer
deriving DecidableEq, Repr

end Sys2Proof.Machine
end

