-- ==== Sys2Proof/Machine/Mem.lean ====
section
/-! DEFINITION. Memory as finite maps in canonical form, sector sidecars, translation (R155 to R161), sector owner
tags (R353), and the plain reads and writes of bytes. -/

namespace Sys2Proof.Machine

open Sys2Proof

/-! ### Finite maps in canonical form -/

/-- What key `k` of a map reads as; an unlisted key reads `d`. -/
def mapGet {α : Type} (d : α) : List (Nat × α) → Nat → α
  | [], _ => d
  | (a, x) :: m, k => if a = k then x else mapGet d m k

/-- The map with key `k` holding `v`; writing `d` removes the entry, and keys stay strictly rising. -/
def mapPut {α : Type} [DecidableEq α] (d : α) : List (Nat × α) → Nat → α → List (Nat × α)
  | [], k, v => if v = d then [] else [(k, v)]
  | (a, x) :: m, k, v =>
    if k < a then (if v = d then (a, x) :: m else (k, v) :: (a, x) :: m)
    else if k = a then (if v = d then m else (a, v) :: m)
    else (a, x) :: mapPut d m k v

/-- Every key of the map is above `lo` when `lo` is given, keys rise strictly, and no entry equals `d`. -/
def mapWfFrom {α : Type} [DecidableEq α] (d : α) : Option Nat → List (Nat × α) → Bool
  | _, [] => true
  | lo, (a, x) :: m =>
    (match lo with | none => true | some l => decide (l < a)) && decide (x ≠ d) && mapWfFrom d (some a) m

/-- The canonical form of memory (log entry 2): addresses strictly rising, no entry 0. -/
def Memory.wf (m : List (Nat × Byte)) : Bool := mapWfFrom 0 none m

/-- A byte of memory; a byte that nothing has written reads 0 (log entry 2). -/
def memByte (m : List (Nat × Byte)) (a : Nat) : Byte := mapGet 0 m a

/-- The `n` bytes from `a` upward. -/
def memBytes (m : List (Nat × Byte)) (a : Nat) : Nat → List Byte
  | 0 => []
  | n + 1 => memByte m a :: memBytes m (a + 1) n

/-- Bytes written from `a` upward. -/
def memWrite (m : List (Nat × Byte)) (a : Nat) : List Byte → List (Nat × Byte)
  | [] => m
  | b :: bs => memWrite (mapPut 0 m a b) (a + 1) bs

/-- Cells written one after another. -/
def memCells (m : List (Nat × Byte)) : List (Nat × Byte) → List (Nat × Byte)
  | [] => m
  | (a, b) :: cs => memCells (mapPut 0 m a b) cs

/-- The sidecar of a sector (R9). -/
def State.sidecar (s : State) (sector : Nat) : Sidecar := mapGet {} s.side sector

/-- The state with another sidecar of a sector. -/
def State.setSidecar (s : State) (sector : Nat) (c : Sidecar) : State :=
  { s with side := mapPut {} s.side sector c }

/-- The key epoch of an owner slot: slot 0 has one key per reset, whose change makes its bytes undefined at the reset
itself (R352); a tenant slot's epoch is the draw that made its keys (R354; log entry 12). -/
def State.epochOf (s : State) (owner : Nat) : Nat :=
  match s.keys.find? (fun k => k.slot == owner) with
  | some k => k.epoch
  | none => 0

/-- A sector lies in a RETIRED frame (R159). -/
def State.inRetired (s : State) (sector : Nat) : Bool := s.retired.any fun f => f.1 ≤ sector && sector < f.1 + f.2

/-- A sector was written under keys that have been replaced since (R354). -/
def State.stale (s : State) (sector : Nat) : Bool :=
  let c := s.sidecar sector
  c.owner ≠ 0 && c.epoch ≠ s.epochOf c.owner

/-- The stash block that holds a sector has failed: its contents serve every read of the sector (R166, R360). -/
def State.blockBad (s : State) (sector : Nat) : Bool :=
  s.teams.any fun t => t.mapped.any fun m => m.sector == sector && m.filled && t.bad.contains (m.off / 256)

/-- A sector reads as poisoned: POISON is set, its frame is RETIRED, its bytes were encrypted under keys that have been
replaced, or the stash block that holds it has failed (R159, R166, R353, R354, R360, R362). -/
def State.poisoned (s : State) (sector : Nat) : Bool :=
  (s.sidecar sector).poison || s.inRetired sector || s.stale sector || s.blockBad sector

/-- CRC-32C of a byte string, bitwise, reflected polynomial 0x82F63B78 (R9, R251). -/
def crc32cBit (c : BitVec 32) : BitVec 32 := if c.getLsbD 0 then (c >>> 1) ^^^ 0x82F63B78 else c >>> 1

/-- One byte of CRC-32C. -/
def crc32cByte (c : BitVec 32) (b : Byte) : BitVec 32 :=
  let x := c ^^^ b.setWidth 32
  crc32cBit (crc32cBit (crc32cBit (crc32cBit (crc32cBit (crc32cBit (crc32cBit (crc32cBit x)))))))

/-- CRC-32C, initial value all ones, complemented at the end. -/
def crc32c (l : List Byte) : BitVec 32 := ~~~ (l.foldl crc32cByte 0xFFFFFFFF)

/-- The 64-bit sidecar of a sector as R9 lays it out. CHECK is computed from the sector's bytes; SPEC is set while a
group's open version holds a store to the sector. -/
def State.sidecarWord (s : State) (sector : Nat) : W64 :=
  let c := s.sidecar sector
  let spec := s.teams.any fun t => t.groups.any fun g => g.ver.held.any fun h => h.pa / 256 == sector
  (crc32c (memBytes s.mem (256 * sector) 256)) ++ c.rseq ++ BitVec.ofNat 12 c.owner ++ BitVec.ofBool c.sync
    ++ BitVec.ofBool c.pave ++ BitVec.ofBool c.poison ++ BitVec.ofBool spec

/-- A byte left open in this step; `i` tells the bytes of one step apart (log entry 5). -/
def State.freeAt (s : State) (i : Nat) : Byte := Config.freeByte (s.fresh * 2 ^ 80 + i)

/-! ### Looking things up -/

/-- A bezel by number. -/
def State.bezel? (s : State) (b : Nat) : Option Bezel := s.bezels.find? (fun x => x.num == b)

/-- A team by its number in the model. -/
def State.team? (s : State) (sid : Nat) : Option Team := s.teams.find? (fun t => t.sid == sid)

/-- A group or shadow group of a team. -/
def Team.group? (t : Team) (r : GRef) : Option Group := if r.sh then t.shadows[r.grp]? else t.groups[r.grp]?

/-- A group by name. -/
def State.group? (s : State) (r : GRef) : Option Group := (s.team? r.team).bind (fun t => t.group? r)

/-- The state with bezel `b` changed by `f`. -/
def State.modBezel (s : State) (b : Nat) (f : Bezel → Bezel) : State :=
  { s with bezels := s.bezels.map fun x => if x.num == b then f x else x }

/-- The state with team `sid` changed by `f`. -/
def State.modTeam (s : State) (sid : Nat) (f : Team → Team) : State :=
  { s with teams := s.teams.map fun t => if t.sid == sid then f t else t }

/-- The team with one group changed by `f`. -/
def Team.modGroup (t : Team) (r : GRef) (f : Group → Group) : Team :=
  if r.sh then { t with shadows := modAt t.shadows r.grp f } else { t with groups := modAt t.groups r.grp f }

/-- The state with one group changed by `f`. -/
def State.modGroup (s : State) (r : GRef) (f : Group → Group) : State :=
  s.modTeam r.team fun t => t.modGroup r f

/-- A kernel of a bezel by slot. -/
def Bezel.kernel? (b : Bezel) (slot : Nat) : Option Kernel := b.kernels.find? (fun k => k.slot == slot)

/-- A kernel by bezel and slot. -/
def State.kernel? (s : State) (b slot : Nat) : Option Kernel := (s.bezel? b).bind (fun x => x.kernel? slot)

/-- The state with a kernel changed by `f`. -/
def State.modKernel (s : State) (b slot : Nat) (f : Kernel → Kernel) : State :=
  s.modBezel b fun x => { x with kernels := x.kernels.map fun k => if k.slot == slot then f k else k }

/-- The state of a unit (R306). -/
def State.unit (s : State) (u : UnitId) : UState :=
  match s.units.find? (fun p => p.1 == u) with
  | some p => p.2
  | none => .free

/-- The state with a unit in another state. -/
def State.setUnit (s : State) (u : UnitId) (x : UState) : State :=
  let l := s.units.filter fun p => p.1 != u
  { s with units := if x = .free then l else (u, x) :: l }

/-- The unit is a member of the bezel, leaving or not (R306, R317). -/
def State.memberOf (s : State) (u : UnitId) (b : Nat) : Bool :=
  match s.unit u with
  | .member x => x == b
  | .leaving x => x == b
  | _ => false

/-- A fabric address lies in a pseudo-channel of this module that accepts no access of a bezel (R317). -/
def State.closedTo (s : State) (b pa : Nat) : Bool :=
  pa / 2 ^ 40 == 8 * s.devId && !s.memberOf (.chan (pa / 2 ^ 30 % 2 ^ 10)) b

/-- The mapped block of any team whose sector is `sector`, with the team (R166). -/
def State.mappedBlock (s : State) (sector : Nat) : Option (Nat × Mapped) :=
  s.teams.findSome? fun t => (t.mapped.find? fun m => m.sector == sector).map fun m => (t.sid, m)

/-- The committed contents of a stash block's byte (R166, R224). -/
def Team.committedByte (t : Team) (off : Nat) : Byte :=
  match t.undo.find? fun u => u.blk == off / 256 with
  | some u => u.old[off % 256]?.getD 0
  | none => memByte t.stash off

/-- A byte as it stands at its home: a filled mapped block holds its sector (R166). -/
def State.homeByte (s : State) (pa : Nat) : Byte :=
  match s.mappedBlock (pa / 256) with
  | some (sid, m) =>
    if m.filled then (match s.team? sid with
      | some t => t.committedByte (m.off + pa % 256)
      | none => memByte s.mem pa)
    else memByte s.mem pa
  | none => memByte s.mem pa

/-- `n` bytes as they stand at their home. -/
def State.homeBytes (s : State) (pa n : Nat) : List Byte := (List.range n).map fun i => s.homeByte (pa + i)

/-- Slot in bits [11:0] of a launch record's KEY (R78, R354). -/
def keySlotOf (record : List Byte) : Nat := leNat (slice record 104 2) % 4096

/-! ### Configuration of a bezel (R309) -/

/-- CTXBASE. -/
def Bezel.ctxBase (b : Bezel) : Nat := leNat (slice b.cfg 56 8)
/-- CTXSIZE. -/
def Bezel.ctxSize (b : Bezel) : Nat := leNat (slice b.cfg 48 8)
/-- MBOX. -/
def Bezel.mbox (b : Bezel) : W64 := dword b.cfg 40
/-- ITABLE. -/
def Bezel.itable (b : Bezel) : Nat := leNat (slice b.cfg 32 8)
/-- ROOT. -/
def Bezel.root (b : Bezel) : Nat := leNat (slice b.cfg 24 8)
/-- DISPATCH. -/
def Bezel.dispatch (b : Bezel) : W64 := dword b.cfg 16
/-- FAULTMB. -/
def Bezel.faultMb (b : Bezel) : Nat := leNat (slice b.cfg 0 8) % 64

/-! ### Translation -/

/-- The fabric physical address of a local address of this module (R155). -/
def State.localPa (s : State) (a : Nat) : Nat := s.devId * 2 ^ 43 + a

/-- KIND of an entry (R157). -/
def leafKind (raw : W64) : Nat := raw.toNat % 8
/-- DEVICE of a leaf. -/
def leafDevice (raw : W64) : Nat := raw.toNat / 2 ^ 51
/-- SPACE of a leaf. -/
def leafSpace (raw : W64) : Nat := bits raw.toNat 50 48
/-- FRAME of a leaf. -/
def leafFrame (raw : W64) : Nat := bits raw.toNat 47 23
/-- IDESC of a leaf. -/
def leafIdesc (raw : W64) : Nat := bits raw.toNat 22 17
/-- OWNER of a leaf. -/
def leafOwner (raw : W64) : Nat := bits raw.toNat 16 5
/-- SYNC of a leaf. -/
def leafSync (raw : W64) : Bool := raw.getLsbD 4
/-- W of a leaf. -/
def leafW (raw : W64) : Bool := raw.getLsbD 3

/-- Bytes a leaf maps at a level (R156). -/
def pageSize (level : Nat) : Nat := if level = 3 then 2 ^ 30 else if level = 2 then 2 ^ 23 else 2 ^ 16

/-- Index of an address at a level (R156). -/
def walkIndex (va level : Nat) : Nat :=
  match level with
  | 5 => bits va 56 48
  | 4 => bits va 47 39
  | 3 => bits va 38 30
  | 2 => bits va 29 23
  | _ => bits va 22 16

/-- Interleave descriptor `i` of a bezel (R158). -/
def State.idesc (s : State) (b : Bezel) (i : Nat) : W64 :=
  BitVec.ofNat 64 (leNat (s.homeBytes (s.localPa (b.itable + 8 * i)) 8))
/-- FIRST of a descriptor. -/
def descFirst (d : W64) : Nat := bits d.toNat 9 0
/-- COUNT of a descriptor. -/
def descCount (d : W64) : Nat := bits d.toNat 19 10
/-- STRIPE of a descriptor. -/
def descStripe (d : W64) : Nat := bits d.toNat 23 20

/-- A descriptor that R158 allows: channels named exist and are members of the bezel. -/
def State.idescOk (s : State) (b : Bezel) (d : W64) : Bool :=
  d.toNat / 2 ^ 24 == 0 && 1 ≤ descCount d && descCount d ≤ 768 && descFirst d + descCount d ≤ 768 &&
  (List.range (descCount d)).all fun i => s.memberOf (.chan (descFirst d + i)) b.num

/-- Fabric physical address of byte `off` of the page of a leaf (R155, R158). -/
def State.leafPa (s : State) (b : Bezel) (l : Leaf) (off : Nat) : Nat :=
  let base := leafDevice l.raw * 2 ^ 43
  if leafSpace l.raw = 1 then base + 2 ^ 40 + (leafFrame l.raw % 2 ^ 24) * 2 ^ 16 + off
  else
    let d := s.idesc b (leafIdesc l.raw)
    let st := 2 ^ descStripe d
    let n := off / 256
    let q := n / st
    base + (descFirst d + q % descCount d) * 2 ^ 30
      + 256 * (leafFrame l.raw + (q / descCount d) * st + n % st) + off % 256

/-- A leaf that R160 does not call bad. -/
def State.leafOk (s : State) (b : Bezel) (l : Leaf) : Bool :=
  let k := leafKind l.raw
  let fr := leafFrame l.raw
  (2 ≤ k && k ≤ 5) && l.level ≤ 3 && (k != 4 || l.level == 2) &&
  (if leafSpace l.raw == 0 then
     let d := s.idesc b (leafIdesc l.raw)
     let st := 2 ^ descStripe d
     let per := 256 * st * descCount d
     fr < 2 ^ 22 && s.idescOk b d &&
       256 * fr + st * 256 * ((pageSize l.level + per - 1) / per) ≤ 2 ^ 30
   else leafSpace l.raw == 1 && leafIdesc l.raw == 0 && fr < 2 ^ 24)

/-- Result of a walk (R160, R162). -/
inductive Walk where
  | leaf (l : Leaf)
  | notPresent (level : Nat)
  | bad (level : Nat)
deriving DecidableEq, Repr

/-- The walk below a table at local address `table`; `n + 1` levels remain (R156, R160). Each entry is read at its home,
with no lease (R161); a table in a channel that is no member of the bezel is none (R317). -/
def State.walkFrom (s : State) (b : Bezel) (va : Nat) : Nat → Nat → Walk
  | 0, _ => .bad 1
  | n + 1, table =>
    let level := n + 1
    let pa := s.localPa (table + 8 * walkIndex va level)
    if s.poisoned (pa / 256) || s.closedTo b.num pa then .bad level
    else
      let raw : W64 := BitVec.ofNat 64 (leNat (s.homeBytes pa 8))
      if leafKind raw = 0 then .notPresent level
      else if leafKind raw = 1 then
        if level = 1 || raw.toNat / 2 ^ 43 ≠ 0 || bits raw.toNat 9 3 ≠ 0 then .bad level
        else s.walkFrom b va n (bits raw.toNat 42 10 * 2 ^ 10)
      else if s.leafOk b { raw := raw, level := level } then .leaf { raw := raw, level := level }
      else .bad level

/-- A walk of the bezel's tables (R156). -/
def State.walk (s : State) (b : Bezel) (va : Nat) : Walk := s.walkFrom b va 5 b.root

/-- The entry of a TLB that covers an address; `at_` is its core or its die (R161). -/
def tlbFind (l : List TlbEntry) (b at_ va : Nat) : Option Leaf :=
  (l.find? fun e => e.bezel == b && e.core == at_ && va / pageSize e.leaf.level * pageSize e.leaf.level == e.page).map (·.leaf)

/-- A TLB of `bound` entries with a leaf in place of one that covers the address; where it is full its oldest entry makes
room (R161; log entry 39). -/
def tlbPut (l : List TlbEntry) (bound b at_ va : Nat) (leaf : Leaf) : List TlbEntry :=
  let covers := fun (e : TlbEntry) => e.bezel == b && e.core == at_ && va / pageSize e.leaf.level * pageSize e.leaf.level == e.page
  let rest := l.filter fun e => !covers e
  let full := bound ≤ (rest.filter fun e => e.core == at_).length
  let old := (rest.filter fun e => e.core == at_).getLast?
  { bezel := b, core := at_, page := va / pageSize leaf.level * pageSize leaf.level, leaf := leaf } ::
    (if full then rest.filter fun e => some e != old else rest)

/-- An agent of die `die` that holds no L1 TLB: it translates through the die's last-level TLB (R4, R161). -/
def noTlb (die : Nat) : Nat := 1000000 + die

/-- The die of a core, or of an agent without an L1 TLB. -/
def coreDie (core : Nat) : Nat := if 1000000 ≤ core then core - 1000000 else core / 64

/-- The cached leaf that covers an address as a core sees it: in its L1 TLB, else in its die's last-level TLB (R161). -/
def State.cached (s : State) (b core va : Nat) : Option Leaf :=
  match tlbFind s.tlb b core va with
  | some l => some l
  | none => tlbFind s.dieTlb b (coreDie core) va

/-- A walk served by a TLB where one holds the leaf (R161). -/
def State.lookup (s : State) (b : Bezel) (core va : Nat) : Walk :=
  match s.cached b.num core va with
  | some l => if leafSpace l.raw == 1 || s.idescOk b (s.idesc b (leafIdesc l.raw)) then .leaf l else .bad l.level
  | none => s.walk b va

/-- The TLBs of a core and of its die with a leaf for an address: 512 entries of a core, 65,536 of a die (R4, R7, R161). -/
def State.putTlb (s : State) (b core va : Nat) (l : Leaf) : State :=
  { s with tlb := if 1000000 ≤ core then s.tlb else tlbPut s.tlb 512 b core va l,
           dieTlb := tlbPut s.dieTlb 65536 b (coreDie core) va l }

/-- The TLBs with the leaf of an address that a core uses: one that its L1 TLB holds stays, another comes from the die's
TLB or from a walk (R161). -/
def State.fillTlb (s : State) (b : Bezel) (core va : Nat) : State :=
  match tlbFind s.tlb b.num core va with
  | some _ => s
  | none =>
    match s.lookup b core va with
    | .leaf l => s.putTlb b.num core va l
    | _ => s

/-- The TLBs after a walk of an address: its leaf takes the place of one held (R161, R162). -/
def State.refillTlb (s : State) (b : Bezel) (core va : Nat) : State :=
  match s.walk b va with
  | .leaf l => s.putTlb b.num core va l
  | _ => s

/-- Kinds of access that R160 tells apart. `sync`: a timeline or mailbox instruction at its object, for which no row of
R160 asks W = 1 (log entry 35); `syncRead`: an instruction that reads an object for the scalar unit. Neither acts on an object of
a MIGRATING page (R316). -/
inductive Acc where | load | scalarLoad | fetch | store | copy | engine | sync | syncRead
deriving DecidableEq, Repr

/-- The fate of one translated access (R160, R353). -/
inductive Tr where
  | ok (pa : Nat) (sync : Bool) (owner : Nat)
  | prot
  | park (cause level : Nat)
  | migrating
  | filling (frame : Nat)        -- the page is being filled (R344)
  | kill
  | uncorr
deriving DecidableEq, Repr

/-- Whether an access writes. -/
def Acc.writes (k : Acc) : Bool := k == .store

/-- The pavé descriptor of a frame under an owner's current keys (R342). -/
def State.pvDesc? (s : State) (frame owner : Nat) : Option PvDesc :=
  s.pvDescs.find? fun d => d.frame == frame && d.owner == owner && d.epoch == s.epochOf owner

/-- A fill of a frame is in progress, and reads of its page wait (R344). -/
def State.filling (s : State) (frame : Nat) : Bool :=
  s.cmds.any fun c => c.begun && (match c.what with | .fill f _ _ _ _ => f == frame | _ => false)

/-- Where the reads of a PAVE page whose frame has never been filled go: bytes that are 0 (R343). -/
def blankPa (pa : Nat) : Nat := 2 ^ 70 + pa

/-- Translation of a global address for a launch's owner slot, with the checks of R160 and the sector's owner tag
(R353). A `copy` access reads for `cpy`, to which a POISONED page answers PROT; an `engine` access is any other read by an engine,
which is performed there and finds what the frame holds (R160). -/
def State.translate (s : State) (b : Bezel) (core key : Nat) (k : Acc) (va : Nat) : Tr :=
  match s.lookup b core va with
  | .notPresent l => .park 1 l
  | .bad l => .park 2 l
  | .leaf l =>
    let ow := leafOwner l.raw
    let kind := leafKind l.raw
    if ow ≠ 0 && ow ≠ key then .prot
    else if k.writes && (!leafW l.raw || kind == 4) then .prot
    else if kind == 5 && k != .engine then
      match k with
      | .load => .kill
      | .scalarLoad => .uncorr
      | .fetch => .uncorr
      | .syncRead => .uncorr
      | _ => .prot
    else if kind == 3 && (k.writes || k == .sync || k == .syncRead) then .migrating
    else
      let pa := s.leafPa b l (va % pageSize l.level)
      let tag := (s.sidecar (pa / 256)).owner
      if tag ≠ 0 && tag ≠ ow then .prot
      else if kind == 4 && s.filling (s.leafPa b l 0) then .filling (s.leafPa b l 0)
      else if kind == 4 && (s.pvDesc? (s.leafPa b l 0) ow).isNone then .ok (blankPa pa) (leafSync l.raw) ow
      else .ok pa (leafSync l.raw) ow

/-- A window address. -/
def isWindow (ad : W64) : Bool := 0x1FE ≤ bits ad.toNat 56 48
/-- Bits [63:57] are not all zero (R155). -/
def badVa (ad : W64) : Bool := decide (2 ^ 57 ≤ ad.toNat)

end Sys2Proof.Machine
end

