-- ==== Sys2Proof/Machine/Operands.lean ====
section
/-! DEFINITION. Operand codes: which codes a field accepts (R57, R58), what a source reads (R27, R115, R119), how a
destination is written and tagged (R116, R117), the mode word (R59) and the effective mask (R91). -/

namespace Sys2Proof.Machine

open Sys2Proof

/-! ### The mode word (R59) -/

/-- ETYPE. -/
def etype (m : BitVec 16) : Nat := m.toNat % 16
/-- RND. -/
def rnd (m : BitVec 16) : Nat := (m.toNat / 16) % 8
/-- SAT. -/
def satBit (m : BitVec 16) : Bool := m.getLsbD 7
/-- GUARD. -/
def guardField (m : BitVec 16) : Nat := (m.toNat / 256) % 16
/-- FTZ. -/
def ftzBit (m : BitVec 16) : Bool := m.getLsbD 12

/-- A float element type: F32, BF16x2 or F16x2 (R135). -/
def isFlt (et : Nat) : Bool := et == 2 || et == 3 || et == 4
/-- An integer element type (R135). -/
def isInt (et : Nat) : Bool := et ≤ 8 && !isFlt et

/-- Bits of one element (R26). -/
def elemBits (et : Nat) : Nat := if et ≤ 2 then 32 else if et ≤ 6 then 16 else 8

/-- A constant operand in every element of the type (R27): `k` is 1 or 2, or 0 for 0.5. -/
def constant (et k : Nat) : W32 :=
  match et with
  | 2 => if k = 1 then 0x3F800000 else if k = 2 then 0x40000000 else 0x3F000000
  | 3 => if k = 1 then 0x3F803F80 else if k = 2 then 0x40004000 else 0x3F003F00
  | 4 => if k = 1 then 0x3C003C00 else if k = 2 then 0x40004000 else 0x38003800
  | 5 | 6 => BitVec.ofNat 32 (k * 0x00010001)
  | 7 | 8 => BitVec.ofNat 32 (k * 0x01010101)
  | _ => BitVec.ofNat 32 k

/-! ### Scalars and masks -/

/-- Scalar register `n`. -/
def Group.sreg (g : Group) (n : Nat) : W64 := if h : n < 32 then g.s[n] else 0

/-- The group with scalar register `n` written. -/
def Group.setS (g : Group) (n : Nat) (v : W64) : Group :=
  { g with s := Vector.ofFn fun i => if i.val = n then v else g.s[i.val], sbad := g.sbad &&& ~~~ (1#32 <<< n) }

/-- The lanes neither dead nor exited (R117). -/
def Group.aliveLanes (g : Group) : W32 := ~~~ (g.dead ||| g.exited)

/-- The mask register of a slot: s30 or s31; a handler runs all lanes (R91, R292). -/
def Group.slotMask (g : Group) : Slot → W32
  | .a => (g.sreg 30).setWidth 32
  | .b => (g.sreg 31).setWidth 32
  | .h => 0xFFFFFFFF

/-- The live mask of a slot (R91). -/
def Group.liveMask (g : Group) (sl : Slot) : W32 := g.slotMask sl &&& g.aliveLanes

/-- The guard term (R59, R91). -/
def Group.guard (g : Group) : W32 :=
  if guardField g.gmode = 0 then 0xFFFFFFFF else (g.sreg (15 + guardField g.gmode)).setWidth 32

/-- The effective mask of a slot (R91). -/
def Group.em (g : Group) (sl : Slot) : W32 := g.liveMask sl &&& g.guard

/-! ### Sources -/

/-- Literal kn of the clause (R25). -/
def Clause.lit (c : Clause) (n : Nat) : W32 := c.lits[n]?.getD 0

/-- A uniform register. -/
def VReg.uni (x : W32) : VReg := { tag := .u, l := Lanes.splat x }

/-- A vector or operand-file register by code; a code outside the allocation reads 0 with tag U. -/
def Group.vreg (g : Group) (code : BitVec 8) : VReg :=
  if code.toNat < 0xC0 then g.v[code.toNat]?.getD {}
  else if h : code.toNat - 0xC0 < 8 then g.o[code.toNat - 0xC0] else {}

/-- What a vector source code reads (R57, R115, R119). -/
def Group.vsrc (g : Group) (c : Clause) (code : BitVec 8) : VReg :=
  let n := code.toNat
  if n < 0xC8 then g.vreg code
  else if n = 0xC8 then
    (match g.latch with
     | some r => if r.toNat < 0xC0 && g.v.length ≤ r.toNat then {} else g.vreg r
     | none => {})
  else if n = 0xC9 then { tag := .a, l := Lanes.affine 0 1 }
  else if n < 0xD0 then VReg.uni (c.lit (n - 0xCC))
  else if n < 0xF0 then VReg.uni ((g.sreg (n - 0xD0)).setWidth 32)
  else if n = 0xF0 then {}
  else if n = 0xF3 then VReg.uni (constant (etype g.gmode) 0)
  else VReg.uni (constant (etype g.gmode) (n - 0xF0))

/-- What a scalar source code reads (R57, R131). -/
def Group.ssrc (g : Group) (c : Clause) (code : BitVec 8) : W64 :=
  let n := code.toNat
  if 0xCC ≤ n && n < 0xD0 then (c.lit (n - 0xCC)).signExtend 64
  else if 0xD0 ≤ n && n < 0xF0 then g.sreg (n - 0xD0)
  else if 0xF0 ≤ n then BitVec.ofNat 64 (n - 0xF0) else 0

/-! ### Destinations -/

/-- The register named by a code, replaced; `#0` discards. -/
def Group.setVreg (g : Group) (code : BitVec 8) (r : VReg) : Group :=
  if code.toNat < 0xC0 then { g with v := modAt g.v code.toNat fun _ => r }
  else if code.toNat < 0xC8 then
    { g with o := Vector.ofFn fun i => if i.val = code.toNat - 0xC0 then r else g.o[i.val] }
  else g

/-- The register a write of `new` under mask `em` leaves (R117): a full write takes the tag, and a U or A result fills
every lane, dead and exited ones too (R114); any other write is general and keeps the lanes outside the mask, failed ones among
them (R360). -/
def VReg.write (old : VReg) (full : Bool) (em : W32) (tag : Tag) (new : Lanes) : VReg :=
  if full && tag != .g then { tag := tag, l := if tag == .u then Lanes.splat (new.lane ((lanesOf em).headD 0)) else new }
  else { tag := .g, l := Lanes.merge em new old.l, bad := old.bad &&& ~~~ em }

/-- A vector destination written in the lanes of `em` (R57, R117); nothing is written when `em` is zero (R130). -/
def Group.writeV (g : Group) (code : BitVec 8) (em : W32) (tag : Tag) (new : Lanes) : Group :=
  if em = 0 then g
  else g.setVreg code ((g.vreg code).write (em == g.aliveLanes) em tag new)

/-- The latch after a class-f write of a vector destination (R119). -/
def Group.setLatch (g : Group) (code : BitVec 8) (em : W32) : Group :=
  if em = 0 || 0xC8 ≤ code.toNat then g else { g with latch := some code }

/-- A class-f vector result: written, tagged and latched. -/
def Group.resultV (g : Group) (code : BitVec 8) (em : W32) (tag : Tag) (new : Lanes) : Group :=
  (g.writeV code em tag new).setLatch code em

/-- A scalar destination written, or discarded for `#0` (R57). -/
def Group.resultS (g : Group) (code : BitVec 8) (v : W64) : Group :=
  if 0xD0 ≤ code.toNat && code.toNat < 0xF0 then g.setS (code.toNat - 0xD0) v else g

/-- What an operand field names. -/
inductive Role where
  | vsrc | vdst | ssrc | sdst | anydst | pairdst | sreg | desc | tile | addr | wait | vreg
deriving DecidableEq, Repr

/-- The fate of an operand code in a field of a given role is not ILLOPERAND (R57, R58). -/
def Group.codeOk (g : Group) (c : Clause) (r : Role) (code : BitVec 8) : Bool :=
  let n := code.toNat
  let v := n < 0xC0 && n < g.v.length
  let o := 0xC0 ≤ n && n < 0xC8
  let k := 0xCC ≤ n && n < 0xD0 && n - 0xCC < c.lits.length
  let s := 0xD0 ≤ n && n < 0xF0
  match r with
  | .vsrc => v || o || n == 0xC8 || n == 0xC9 || k || s || (0xF0 ≤ n && n ≤ 0xF2) || (n == 0xF3 && isFlt (etype g.gmode))
  | .vdst => v || o || n == 0xF0
  | .ssrc => k || s || (0xF0 ≤ n && n ≤ 0xF2)
  | .sdst => s || n == 0xF0
  | .anydst => v || o || s || n == 0xF0
  | .pairdst => 0xD0 ≤ n && n ≤ 0xEE
  | .sreg => s
  | .desc => 0xD0 ≤ n && n ≤ 0xEE
  | .tile => n < g.t.length
  | .addr => k || s || (0xF0 ≤ n && n ≤ 0xF2) || (n ≤ 190 && n + 1 < g.v.length)
  | .wait => k || s || (0xF0 ≤ n && n ≤ 0xF2) || n == 0xF4 || n == 0xF5
  | .vreg => v || o


/-- Every field that its entry restricts holds a permitted value (R55, R59). -/
def fieldsOk : Instr → Bool
  | .brx _ _ n => 2 ≤ n.toNat && n.toNat ≤ 10
  | .mode i => modeOk i
  | .ballot _ _ f => f.toNat < 2
  | .shflx _ _ n => n.toNat < 32
  | .shflu _ _ n => n.toNat < 32
  | .shfld _ _ n => n.toNat < 32
  | .rdlane _ _ n => n.toNat < 192
  | .wrlane _ _ n => n.toNat < 192
  | .scan _ _ f => f.toNat < 4
  | .mcount _ _ f => f.toNat < 2
  | .swaph _ _ f => f.toNat < 3
  | .cvt _ _ f g => f.toNat < 9 && g.toNat < 9
  | .rgrow _ i => 8 ≤ i.toNat && i.toNat ≤ 184 && i.toNat % 8 == 0
  | .rshrink i => 8 ≤ i.toNat && i.toNat ≤ 184 && i.toNat % 8 == 0
  | .trgrow _ i => 1 ≤ i.toNat && i.toNat ≤ 16
  | .trshrink i => 1 ≤ i.toNat && i.toNat ≤ 16
  | .vshape _ _ f => f.toNat < 3
  | .sread _ n => n.toNat ≤ 10 || (16 ≤ n.toNat && n.toNat ≤ 31)
  | .swrite _ n => n.toNat == 4
  | .slit _ n => n.toNat ≤ 2
  | .fence l k s => s.toNat < 5 && !(k == 0 && l == 0)
  | .barr _ f => f.toNat < 2
  | .tlrd _ _ f => f.toNat < 3
  | .tcvt _ _ f g => f.toNat < 3 && g.toNat < 3 && f != g
  | .tcolr _ _ c => c.toNat < 32
  | .tcolw _ _ c => c.toNat < 32
  | .rprd _ f => f.toNat < 5
  | .tscale _ _ f => f.toNat < 2
  | .fstat _ _ f => f.toNat < 5
  | .mbpeek _ _ f => f.toNat < 5
  | .kquery _ _ f => f.toNat < 5
  | .aquery _ _ f => f.toNat < 4
  | .pvstat _ _ f => f.toNat < 2
  | .caprd _ _ f => f.toNat < 2
  | .tlbinv _ f => f.toNat < 4
  | _ => true

/-- The operand fields of an instruction with their roles, in the order D, A, B. -/
def operands : Instr → List (Role × BitVec 8)
  | .brz d _ => [(.ssrc, d)]
  | .brnz d _ => [(.ssrc, d)]
  | .call d _ => [(.sdst, d)]
  | .ret a => [(.ssrc, a)]
  | .brx d a _ => [(.ssrc, d), (.ssrc, a)]
  | .ballot d a _ => [(.sdst, d), (.vsrc, a)]
  | .vall d a => [(.sdst, d), (.vsrc, a)]
  | .vany d a => [(.sdst, d), (.vsrc, a)]
  | .shfl d a b => [(.vdst, d), (.vsrc, a), (.vsrc, b)]
  | .shflx d a _ => [(.vdst, d), (.vsrc, a)]
  | .shflu d a _ => [(.vdst, d), (.vsrc, a)]
  | .shfld d a _ => [(.vdst, d), (.vsrc, a)]
  | .rdlane d a _ => [(.vdst, d), (.ssrc, a)]
  | .wrlane d a _ => [(.vsrc, d), (.ssrc, a)]
  | .lsum d a => [(.anydst, d), (.vsrc, a)]
  | .lmax d a => [(.anydst, d), (.vsrc, a)]
  | .lmin d a => [(.anydst, d), (.vsrc, a)]
  | .scan d a _ => [(.vdst, d), (.vsrc, a)]
  | .mcount d a _ => [(.vdst, d), (.ssrc, a)]
  | .sadd d a b => [(.sdst, d), (.ssrc, a), (.ssrc, b)]
  | .ssub d a b => [(.sdst, d), (.ssrc, a), (.ssrc, b)]
  | .smul d a b => [(.sdst, d), (.ssrc, a), (.ssrc, b)]
  | .smulh d a b => [(.sdst, d), (.ssrc, a), (.ssrc, b)]
  | .smulhu d a b => [(.sdst, d), (.ssrc, a), (.ssrc, b)]
  | .sdivu d a b => [(.sdst, d), (.ssrc, a), (.ssrc, b)]
  | .sremu d a b => [(.sdst, d), (.ssrc, a), (.ssrc, b)]
  | .sand d a b => [(.sdst, d), (.ssrc, a), (.ssrc, b)]
  | .sor d a b => [(.sdst, d), (.ssrc, a), (.ssrc, b)]
  | .sxor d a b => [(.sdst, d), (.ssrc, a), (.ssrc, b)]
  | .sandn d a b => [(.sdst, d), (.ssrc, a), (.ssrc, b)]
  | .sshl d a b => [(.sdst, d), (.ssrc, a), (.ssrc, b)]
  | .sshr d a b => [(.sdst, d), (.ssrc, a), (.ssrc, b)]
  | .ssar d a b => [(.sdst, d), (.ssrc, a), (.ssrc, b)]
  | .smin d a b => [(.sdst, d), (.ssrc, a), (.ssrc, b)]
  | .smax d a b => [(.sdst, d), (.ssrc, a), (.ssrc, b)]
  | .sminu d a b => [(.sdst, d), (.ssrc, a), (.ssrc, b)]
  | .smaxu d a b => [(.sdst, d), (.ssrc, a), (.ssrc, b)]
  | .seq d a b => [(.sdst, d), (.ssrc, a), (.ssrc, b)]
  | .slt d a b => [(.sdst, d), (.ssrc, a), (.ssrc, b)]
  | .sltu d a b => [(.sdst, d), (.ssrc, a), (.ssrc, b)]
  | .ssel d a b => [(.sdst, d), (.ssrc, a), (.ssrc, b)]
  | .sbfe d a b => [(.sdst, d), (.ssrc, a), (.ssrc, b)]
  | .sbfi d a b => [(.sdst, d), (.ssrc, a), (.ssrc, b)]
  | .spopc d a => [(.sdst, d), (.ssrc, a)]
  | .sclz d a => [(.sdst, d), (.ssrc, a)]
  | .sctz d a => [(.sdst, d), (.ssrc, a)]
  | .smov d a => [(.sdst, d), (.ssrc, a)]
  | .smovi d _ => [(.sdst, d)]
  | .smovh d _ => [(.sdst, d)]
  | .add d a b => [(.vdst, d), (.vsrc, a), (.vsrc, b)]
  | .sub d a b => [(.vdst, d), (.vsrc, a), (.vsrc, b)]
  | .mul d a b => [(.vdst, d), (.vsrc, a), (.vsrc, b)]
  | .fma d a b => [(.vdst, d), (.vsrc, a), (.vsrc, b)]
  | .fms d a b => [(.vdst, d), (.vsrc, a), (.vsrc, b)]
  | .fnma d a b => [(.vdst, d), (.vsrc, a), (.vsrc, b)]
  | .min d a b => [(.vdst, d), (.vsrc, a), (.vsrc, b)]
  | .max d a b => [(.vdst, d), (.vsrc, a), (.vsrc, b)]
  | .abs d a => [(.vdst, d), (.vsrc, a)]
  | .neg d a => [(.vdst, d), (.vsrc, a)]
  | .mov d a => [(.vdst, d), (.vsrc, a)]
  | .and d a b => [(.vdst, d), (.vsrc, a), (.vsrc, b)]
  | .or d a b => [(.vdst, d), (.vsrc, a), (.vsrc, b)]
  | .xor d a b => [(.vdst, d), (.vsrc, a), (.vsrc, b)]
  | .not d a => [(.vdst, d), (.vsrc, a)]
  | .shl d a b => [(.vdst, d), (.vsrc, a), (.vsrc, b)]
  | .shr d a b => [(.vdst, d), (.vsrc, a), (.vsrc, b)]
  | .sar d a b => [(.vdst, d), (.vsrc, a), (.vsrc, b)]
  | .mulhi d a b => [(.vdst, d), (.vsrc, a), (.vsrc, b)]
  | .clamp d a b => [(.vdst, d), (.vsrc, a), (.vsrc, b)]
  | .sel d a b => [(.vdst, d), (.vsrc, a), (.vsrc, b)]
  | .cmpeq d a b => [(.sdst, d), (.vsrc, a), (.vsrc, b)]
  | .cmpne d a b => [(.sdst, d), (.vsrc, a), (.vsrc, b)]
  | .cmplt d a b => [(.sdst, d), (.vsrc, a), (.vsrc, b)]
  | .cmple d a b => [(.sdst, d), (.vsrc, a), (.vsrc, b)]
  | .cmpun d a b => [(.sdst, d), (.vsrc, a), (.vsrc, b)]
  | .floor d a => [(.vdst, d), (.vsrc, a)]
  | .ceil d a => [(.vdst, d), (.vsrc, a)]
  | .rnde d a => [(.vdst, d), (.vsrc, a)]
  | .trunc d a => [(.vdst, d), (.vsrc, a)]
  | .fract d a => [(.vdst, d), (.vsrc, a)]
  | .copysign d a b => [(.vdst, d), (.vsrc, a), (.vsrc, b)]
  | .popc d a => [(.vdst, d), (.vsrc, a)]
  | .clz d a => [(.vdst, d), (.vsrc, a)]
  | .bfe d a b => [(.vdst, d), (.vsrc, a), (.vsrc, b)]
  | .bfi d a b => [(.vdst, d), (.vsrc, a), (.vsrc, b)]
  | .dot2 d a b => [(.vdst, d), (.vsrc, a), (.vsrc, b)]
  | .swaph d a _ => [(.vdst, d), (.vsrc, a)]
  | .perm d a b => [(.vdst, d), (.vsrc, a), (.vsrc, b)]
  | .lanes d a b => [(.vdst, d), (.vsrc, a), (.vsrc, b)]
  | .ldexp d a b => [(.vdst, d), (.vsrc, a), (.vsrc, b)]
  | .cvt d a _ _ => [(.vdst, d), (.vsrc, a)]
  | .cvtf d a _ _ _ => [(.vdst, d), (.vsrc, a)]
  | .pack d a b => [(.vdst, d), (.vsrc, a), (.vsrc, b)]
  | .unpkl d a => [(.vdst, d), (.vsrc, a)]
  | .unpkh d a => [(.vdst, d), (.vsrc, a)]
  | .rcp d a => [(.vdst, d), (.vsrc, a)]
  | .rsq d a => [(.vdst, d), (.vsrc, a)]
  | .sqrt d a => [(.vdst, d), (.vsrc, a)]
  | .exp2 d a => [(.vdst, d), (.vsrc, a)]
  | .log2 d a => [(.vdst, d), (.vsrc, a)]
  | .sinpi d a => [(.vdst, d), (.vsrc, a)]
  | .cospi d a => [(.vdst, d), (.vsrc, a)]
  | .rred d a => [(.vdst, d), (.vsrc, a)]
  | .tanh d a => [(.vdst, d), (.vsrc, a)]
  | .div d a b => [(.vdst, d), (.vsrc, a), (.vsrc, b)]
  | .rgrow d _ => [(.sdst, d)]
  | .trgrow d _ => [(.sdst, d)]
  | .vshape d a _ => [(.sdst, d), (.vsrc, a)]
  | .sread d _ => [(.sdst, d)]
  | .swrite a _ => [(.ssrc, a)]
  | .slit d _ => [(.sdst, d)]
  | .ld d a b => [(.vdst, d), (.ssrc, a), (.vsrc, b)]
  | .ld16 d a b => [(.vdst, d), (.ssrc, a), (.vsrc, b)]
  | .ld8 d a b => [(.vdst, d), (.ssrc, a), (.vsrc, b)]
  | .st d a b => [(.vsrc, d), (.ssrc, a), (.vsrc, b)]
  | .st16 d a b => [(.vsrc, d), (.ssrc, a), (.vsrc, b)]
  | .st8 d a b => [(.vsrc, d), (.ssrc, a), (.vsrc, b)]
  | .lds d a b => [(.sdst, d), (.ssrc, a), (.ssrc, b)]
  | .sts d a b => [(.ssrc, d), (.ssrc, a), (.ssrc, b)]
  | .ldb d a b => [(.vdst, d), (.ssrc, a), (.ssrc, b)]
  | .stb d a b => [(.vsrc, d), (.ssrc, a), (.ssrc, b)]
  | .smap d a b => [(.ssrc, d), (.ssrc, a), (.ssrc, b)]
  | .sunmap a => [(.ssrc, a)]
  | .sflush a => [(.ssrc, a)]
  | .cpy d a b => [(.ssrc, d), (.ssrc, a), (.ssrc, b)]
  | .pref a b => [(.ssrc, a), (.vsrc, b)]
  | .binit d a b => [(.ssrc, d), (.ssrc, a), (.ssrc, b)]
  | .barr a _ => [(.ssrc, a)]
  | .barx a b => [(.ssrc, a), (.ssrc, b)]
  | .bwait a b => [(.wait, a), (.ssrc, b)]
  | .atadd d a b => [(.vdst, d), (.addr, a), (.vsrc, b)]
  | .atmin d a b => [(.vdst, d), (.addr, a), (.vsrc, b)]
  | .atmax d a b => [(.vdst, d), (.addr, a), (.vsrc, b)]
  | .atand d a b => [(.vdst, d), (.addr, a), (.vsrc, b)]
  | .ator d a b => [(.vdst, d), (.addr, a), (.vsrc, b)]
  | .atxor d a b => [(.vdst, d), (.addr, a), (.vsrc, b)]
  | .atxch d a b => [(.vdst, d), (.addr, a), (.vsrc, b)]
  | .atcas d a b => [(.vdst, d), (.addr, a), (.vsrc, b)]
  | .tlincSignal d a => [(.sdst, d), (.ssrc, a)]
  | .tlincReserve d a => [(.sdst, d), (.ssrc, a)]
  | .tlincComplete d a => [(.sdst, d), (.ssrc, a)]
  | .tlrd d a _ => [(.sdst, d), (.ssrc, a)]
  | .tzero t => [(.tile, t.setWidth 8)]
  | .mma t a b => [(.tile, t.setWidth 8), (.desc, a), (.desc, b)]
  | .tld t a => [(.tile, t.setWidth 8), (.desc, a)]
  | .tst t a => [(.tile, t.setWidth 8), (.desc, a)]
  | .tcvt t u _ _ => [(.tile, t.setWidth 8), (.tile, u.setWidth 8)]
  | .tcolr d u _ => [(.vdst, d), (.tile, u.setWidth 8)]
  | .tcolw t a _ => [(.tile, t.setWidth 8), (.vsrc, a)]
  | .rprd d _ => [(.sdst, d)]
  | .stest t => [(.tile, t.setWidth 8)]
  | .tscale t a _ => [(.tile, t.setWidth 8), (.vsrc, a)]
  | .fopen d a => [(.sdst, d), (.ssrc, a)]
  | .fsend d a b => [(.ssrc, d), (.ssrc, a), (.ssrc, b)]
  | .fmcast d a b => [(.pairdst, d), (.ssrc, a), (.ssrc, b)]
  | .freseed a => [(.ssrc, a)]
  | .fclose a => [(.ssrc, a)]
  | .fstat d a _ => [(.sdst, d), (.ssrc, a)]
  | .coll _ a b => [(.ssrc, a), (.ssrc, b)]
  | .cringCfg a _ => [(.ssrc, a)]
  | .cringRel a _ => [(.ssrc, a)]
  | .cringClose a _ => [(.ssrc, a)]
  | .tcopy d a b => [(.ssrc, d), (.ssrc, a), (.ssrc, b)]
  | .xroute d a b => [(.ssrc, d), (.ssrc, a), (.ssrc, b)]
  | .xtable a => [(.ssrc, a)]
  | .trap d _ => [(.ssrc, d)]
  | .mbrecv d a => [(.vreg, d), (.sreg, a)]
  | .mbsend d a b => [(.vreg, d), (.ssrc, a), (.ssrc, b)]
  | .mbpeek d a _ => [(.sdst, d), (.ssrc, a)]
  | .launch d a => [(.pairdst, d), (.ssrc, a)]
  | .kquery d a _ => [(.sdst, d), (.ssrc, a)]
  | .kcancel a => [(.ssrc, a)]
  | .kpreemptSave a => [(.ssrc, a)]
  | .kpreemptDiscard a => [(.ssrc, a)]
  | .aopen d a => [(.pairdst, d), (.ssrc, a)]
  | .astep d a b => [(.ssrc, d), (.ssrc, a), (.ssrc, b)]
  | .aclose a => [(.ssrc, a)]
  | .aabandon a => [(.ssrc, a)]
  | .aquery d a _ => [(.sdst, d), (.ssrc, a)]
  | .aresolve a b => [(.ssrc, a), (.ssrc, b)]
  | .acret a => [(.ssrc, a)]
  | .pvsub d a b => [(.ssrc, d), (.ssrc, a), (.ssrc, b)]
  | .pvfill d a => [(.ssrc, d), (.ssrc, a)]
  | .pvstat d a _ => [(.sdst, d), (.ssrc, a)]
  | .bzreq d a => [(.sdst, d), (.ssrc, a)]
  | .keygenGenerate d a => [(.sdst, d), (.ssrc, a)]
  | .keygenDestroy d a => [(.sdst, d), (.ssrc, a)]
  | .keyseal d a b => [(.sdst, d), (.ssrc, a), (.ssrc, b)]
  | .attest d a b => [(.ssrc, d), (.ssrc, a), (.ssrc, b)]
  | .locketw d a _ => [(.ssrc, d), (.ssrc, a)]
  | .caprd d a _ => [(.sdst, d), (.ssrc, a)]
  | .tlbinv a _ => [(.ssrc, a)]
  | .fltret a => [(.ssrc, a)]
  | _ => []

/-- Every operand code is one that its field accepts (R57, R58). -/
def Group.operandsOk (g : Group) (c : Clause) (i : Instr) : Bool :=
  (operands i).all fun p => g.codeOk c p.1 p.2

/-! ### Poisoned sources (R360, R361) -/

/-- Instructions whose D field is a source as well as, or instead of, a destination. -/
def readsD : Instr → Bool
  | .fma _ _ _ | .fms _ _ _ | .fnma _ _ _ | .clamp _ _ _ | .bfi _ _ _ | .dot2 _ _ _ | .perm _ _ _ | .sbfi _ _ _ | .smovh _ _ => true
  | .cvtf _ _ e _ _ => e == 1
  | .atcas d _ _ => d != 0xF0
  | .fmcast _ _ _ | .mbsend _ _ _ => true
  | _ => false

/-- Scalar registers that a field of a role reads. -/
def Role.scalars (r : Role) (code : BitVec 8) : List Nat :=
  let n := code.toNat - 0xD0
  if code.toNat < 0xD0 || 0xF0 ≤ code.toNat then []
  else match r with
    | .desc | .pairdst => [n, n + 1]
    | _ => [n]

/-- Vector and operand-file registers that a field of a role reads. -/
def Role.vectors (r : Role) (code : BitVec 8) : List (BitVec 8) :=
  if r == .tile || 0xC8 < code.toNat then []
  else if r == .addr then [code, code + 1]
  else [code]

/-- The fields that an instruction reads, with their roles. -/
def sources (i : Instr) : List (Role × BitVec 8) :=
  (operands i).filter fun p => match p.1 with
    | .vdst | .sdst | .anydst | .pairdst => readsD i
    | .vreg => readsD i
    | _ => true

/-- Scalar registers that an instruction reads beside its fields: the mask of its slot and the guard (R59, R91), and s29 for the
selections (R139). -/
def Group.implied (g : Group) (sl : Slot) (i : Instr) : List Nat :=
  (match sl with | .a => [30] | .b => [31] | .h => []) ++ (if guardField g.gmode = 0 then [] else [15 + guardField g.gmode]) ++
  (match i with | .sel _ _ _ | .ssel _ _ _ => [29] | _ => [])

/-- A scalar register that the instruction reads has failed. -/
def Group.readsBad (g : Group) (sl : Slot) (i : Instr) : Bool :=
  g.sbad != 0 && ((sources i).flatMap (fun p => p.1.scalars p.2) ++ g.implied sl i).any fun n => g.sbad.getLsbD n

/-- The lanes in which an instruction reads its vector sources: those of EM, but every live lane where it reads across lanes, and
lanes 0 to 13 for a message (R72, R110). -/
def Group.readLanes (g : Group) (sl : Slot) : Instr → W32
  | .shfl _ _ _ | .shflx _ _ _ | .shflu _ _ _ | .shfld _ _ _ => g.aliveLanes
  | .mbsend _ _ _ => 0x3FFF
  | _ => g.em sl

/-- The lanes that read a failed lane of a source (R361). -/
def Group.badLanes (g : Group) (c : Clause) (i : Instr) : W32 :=
  ((sources i).flatMap fun p => p.1.vectors p.2).foldl (fun m code => m ||| (g.vsrc c code).bad) 0 &&& g.readLanes c.slot i

end Sys2Proof.Machine
end

