-- ==== Sys2Proof/Machine/Flags.lean ====
section
/-! DEFINITION. The completion flags f0 to f11 (R51, R52): a flag's count is the number of the group's outstanding
operations tagged with it. -/

namespace Sys2Proof.Machine

open Sys2Proof

/-- The count of a flag (R51). -/
def Group.flagCount (g : Group) (f : Nat) : Nat := (g.ops.filter fun o => o.flag == some f).length

/-- A flag is clear when its count is 0 (R51). -/
def Group.flagClear (g : Group) (f : Nat) : Bool := g.flagCount f == 0

/-- SETA of a header, when it names a flag (R47). -/
def headSetA (h : W32) : Option Nat := let a := bits h.toNat 19 16; if a < 12 then some a else none
/-- SETB of a header, when it names a flag (R47). -/
def headSetB (h : W32) : Option Nat := let b := bits h.toNat 15 12; if b < 12 then some b else none
/-- COUNT + 1 (R47). -/
def headCount (h : W32) : Nat := bits h.toNat 11 8 + 1
/-- LITS (R47). -/
def headLits (h : W32) : Nat := bits h.toNat 7 5
/-- YIELD (R47). -/
def headYield (h : W32) : Bool := h.getLsbD 4

/-- The flag that a class-a instruction of the clause tags (R52). -/
def flagA (h : W32) : Option Nat := (headSetA h).or (headSetB h)
/-- The flag that a class-b instruction of the clause tags (R52). -/
def flagB (h : W32) : Option Nat := (headSetB h).or (headSetA h)

/-- Every flag named in WAIT is clear (R50). -/
def Group.waitMet (g : Group) (h : W32) : Bool :=
  (List.range 12).all fun n => !h.getLsbD (20 + n) || g.flagClear n

/-- A flag that an instruction may raise: its count is below 63 (R51). -/
def Group.canRaise (g : Group) : Option Nat → Bool
  | some f => g.flagCount f < 63
  | none => true

/-- The group with an operation outstanding (R51). -/
def Group.addOp (g : Group) (o : Op) : Group := { g with ops := g.ops ++ [o], nextOp := g.nextOp + 1 }

/-- The group without operation `id`, which lowers its flag (R51). -/
def Group.dropOp (g : Group) (id : Nat) : Group := { g with ops := g.ops.filter fun o => o.id != id }

end Sys2Proof.Machine
end

