-- ==== Sys2Proof/Machine/Obj.lean ====
section
/-! DEFINITION. The Locket (R364), writes at their homes, the team stash with its undo log (R165, R285), and the
objects of the sync engines: barriers (R180), timeline counters (R189), mailboxes (R64 to R68). -/

namespace Sys2Proof.Machine

open Sys2Proof

/-! ### The Locket -/

/-- An event appended to a die's ring; the oldest is overwritten when the ring is full (R364). -/
def State.locket (s : State) (die cls : Nat) (code : Nat) (handle arg : W64) : State :=
  { s with lockets := Vector.ofFn fun i =>
      if i.val = die then
        let l := s.lockets[i.val]
        let e : LocketEvent := { time := s.cycles, seq := l.seq, die := die, cls := cls, code := BitVec.ofNat 16 code,
                                 handle := handle, arg := arg }
        { events := (l.events ++ [e]).drop (l.events.length + 1 - 8192), seq := l.seq + 1 }
      else s.lockets[i.val] }

/-- The 32 bytes of an event (R364). -/
def LocketEvent.bytes (e : LocketEvent) : List Byte :=
  leBytes e.time.toNat 8 ++ leBytes e.seq.toNat 4 ++ leBytes e.die 1 ++ leBytes e.cls 1 ++ leBytes e.code.toNat 2
    ++ leBytes e.handle.toNat 8 ++ leBytes e.arg.toNat 8

/-- The die that holds a fabric address of this module; 0 for the host tier (R5, R155). -/
def dieOfPa (pa : Nat) : Nat := if pa / 2 ^ 40 % 8 = 0 then pa / 2 ^ 30 % 2 ^ 10 / 192 % 4 else 0

/-- A sector read for a kernel, whose CHECK is verified (R362): one under replaced keys fails it, which the Locket records once,
and is poisoned from then on. -/
def State.checkSector (s : State) (handle : W64) (sector : Nat) : State :=
  if s.stale sector && !(s.sidecar sector).poison then
    (s.setSidecar sector { s.sidecar sector with poison := true }).locket (dieOfPa (256 * sector)) 7 12 handle (BitVec.ofNat 64 (256 * sector))
  else s

/-! ### Writes at their homes -/

/-- The sectors of a list of cells, each once. -/
def sectorsOf (cells : List (Nat × Byte)) : List Nat := (cells.map fun c => c.1 / 256).eraseDups

/-- Cells cover a whole sector (R361). -/
def coversSector (cells : List (Nat × Byte)) (sector : Nat) : Bool :=
  ((cells.filter fun x => x.1 / 256 == sector).map (·.1)).eraseDups.length == 256

/-- The sidecar of a sector after a write of `cells` by a launch whose translation gives owner `owner` (R9, R353,
R361): the tag becomes the owner's when it was open, RSEQ becomes 0, a whole-sector write clears POISON, and a partial
write to a sector of replaced keys leaves it poisoned. `page`: whether the translated page, which is no PAVE page, is a SYNC
page; none for a write that no page translates, which leaves both bits. They change at such a write alone, and not as a leaf is
written: a sector of a SYNC page that nothing has written reads SYNC 0 (log entry 61). -/
def State.sidecarAfter (s : State) (cells : List (Nat × Byte)) (owner : Nat) (page : Option Bool) (sector : Nat) : Sidecar :=
  let c := s.sidecar sector
  let ow := if c.owner = 0 then owner else c.owner
  { c with owner := ow, epoch := s.epochOf ow, rseq := 0, poison := if coversSector cells sector then false else s.poisoned sector,
           sync := page.getD c.sync, pave := if page.isSome then false else c.pave }

/-- The bytes of a sector of replaced keys that a partial write does not cover are undefined (R353), and the merge finds that CHECK
does not hold (R362). -/
def State.freeSector (s : State) (sector : Nat) : State :=
  if s.stale sector then
    { s.checkSector 0 sector with mem := memWrite s.mem (256 * sector) ((List.range 256).map fun i => s.freeAt (256 * sector + i)) }
  else s

/-- Cells written at their homes as one operation (R217, R353). Mailbox fields are not treated here. -/
def State.homeCells (s : State) (cells : List (Nat × Byte)) (owner : Nat) (page : Option Bool := none) : State :=
  let secs := sectorsOf cells
  let s1 := (secs.filter fun x => !coversSector cells x).foldl (fun s x => s.freeSector x) s
  let s2 := secs.foldl (fun t x => t.setSidecar x (s.sidecarAfter cells owner page x)) s1
  { s2 with mem := memCells s2.mem cells, written := s2.written ++ secs.filter fun x => !s2.written.contains x }

/-- Bytes as cells from an address. -/
def cellsAt (a : Nat) : List Byte → List (Nat × Byte)
  | [] => []
  | b :: bs => (a, b) :: cellsAt (a + 1) bs

/-- Bytes written at their home. -/
def State.homeWrite (s : State) (pa : Nat) (l : List Byte) (owner : Nat) (page : Option Bool := none) : State :=
  s.homeCells (cellsAt pa l) owner page

/-- A core's leases on some sectors end: a store of its groups has taken effect there, and its groups see it (R225). -/
def State.dropLeases (s : State) (core : Nat) (secs : List Nat) : State :=
  { s with leases := s.leases.filter fun l => !(l.core == core && secs.contains l.sector) }

/-- An engine command is outstanding. -/
def State.enginesBusy (s : State) : Bool :=
  !s.cmds.isEmpty || !s.pvCmds.isEmpty || s.flows.any fun f => !f.queue.isEmpty || f.cur.isSome

/-- Stored bytes are noted while engine commands are outstanding (R234): space 0 holds fabric addresses, space `t + 1` the
stash of team `t`. -/
def State.noteLate (s : State) (space at_ n : Nat) : State :=
  if s.enginesBusy then { s with late := ((List.range n).map fun i => (space, at_ + i, s.stepNo)) ++ s.late }
  else { s with late := [] }

/-- A byte that an engine reads for a command issued at step `since`: undefined when it has been stored to meanwhile
(R234). -/
def State.srcByte (s : State) (since space at_ : Nat) (b : Byte) : Byte :=
  if s.late.any fun x => x.1 == space && x.2.1 == at_ && since < x.2.2 then s.freeAt (2 ^ 75 + space * 2 ^ 60 + at_) else b

/-! ### Committed stores on their way to their homes (R221, R227, R228, R231) -/

/-- A store to memory of this module, which has entered the coherence order and is not yet visible everywhere (R221). -/
def Posted.inside (p : Posted) (dev : Nat) : Bool :=
  p.atomic.isNone && p.arrive.isNone && p.sig.isNone && p.cells.all fun c => c.1 / 2 ^ 43 == dev

/-- An agent of another module, where an agent of this one is named by its core, or by its die as `noTlb` does. -/
abbrev extAgent : Nat := 2000000

/-- Scope `scope`, coded as SCOPE of R173, holds two agents (R228). -/
def scopeHolds (scope a b : Nat) : Bool :=
  match scope with
  | 0 => a == b
  | 1 => a / 8 == b / 8
  | 2 => coreDie a == coreDie b
  | 3 => decide (a < extAgent) == decide (b < extAgent)
  | _ => true

/-- A group on a core sees a committed store that has not reached its home: its own, or one that a release has made visible
to it (R219, R228). -/
def Posted.seenBy (p : Posted) (r : GRef) (core : Nat) : Bool :=
  !p.acked && (p.src == { r with sh := false } || p.vis.any fun v => scopeHolds v p.core core)

/-- A store of the group to a sector is on its way to its home. -/
def State.ownInFlight (s : State) (r : GRef) (sector : Nat) : Bool :=
  s.posted.any fun p => p.src == { r with sh := false } && !p.acked && (sectorsOf p.cells).contains sector

/-- The store of an entry takes effect at its home. -/
def State.takeEffect (s : State) (p : Posted) : State :=
  (p.cells.foldl (fun (s : State) (x : Nat × Byte) => s.noteLate 0 x.1 1) (s.homeCells p.cells p.owner (some p.sync))).dropLeases
    p.core (sectorsOf p.cells)

/-- The stores within this module that satisfy `f` reach their homes now, in the order of their commits. -/
def State.drain (s : State) (f : Posted → Bool) : State :=
  let due := fun (p : Posted) => p.inside s.devId && f p
  (s.posted.filter due).foldl (fun s p => s.takeEffect p) { s with posted := s.posted.filter fun p => !due p }

/-- Every store to a sector that has committed reaches its home, before another agent's operation there: the coherence order
is that of the commits (R217, R221). -/
def State.drainSector (s : State) (sector : Nat) : State := s.drain fun p => (sectorsOf p.cells).contains sector

/-- The state with other stores in flight. -/
def State.withPosted (s : State) (l : List Posted) : State := { s with posted := l }

/-- What a release at a scope by a group does for the stores that the group has observed (R228): at device scope and wider they
reach their homes; at a narrower scope they are visible from now on to every group that the scope holds, and first of all to
those of the core (R225). -/
def State.publish (s : State) (r : GRef) (core scope : Nat) : State :=
  let mine := fun (p : Posted) => p.inside s.devId && p.seenBy r core
  if 3 ≤ scope then
    let secs := (s.posted.filter mine).flatMap fun p => sectorsOf p.cells
    s.drain fun p => (sectorsOf p.cells).any fun x => secs.contains x
  else
    ((s.posted.filter mine).foldl (fun (s : State) p => s.dropLeases p.core (sectorsOf p.cells)) s).withPosted
      (s.posted.map fun (p : Posted) => if mine p then { p with vis := some (max scope (p.vis.getD 0)) } else p)

/-- A sector written whole by an engine, with a ring tag (R216, R269, R361). -/
def State.sectorWrite (s : State) (sector : Nat) (data : List Byte) (owner : Nat) (tag : BitVec 16) (poison : Bool)
    (page : Option Bool := some false) : State :=
  let s := ((s.drainSector sector).homeCells (cellsAt (256 * sector) data) owner page).noteLate 0 (256 * sector) data.length
  s.setSidecar sector { s.sidecar sector with rseq := tag, poison := poison }

/-! ### The stash -/

/-- Bytes of a team's stash. -/
def Team.stashBytes (t : Team) (off n : Nat) : List Byte := memBytes t.stash off n

/-- Another group than `g` holds an uncommitted store in a block (R224). -/
def Team.blockHeld (t : Team) (g : GRef) (blk : Nat) : Bool := t.undo.any fun u => u.blk == blk && u.owner != g

/-- A write into a stash. With an owner the block's first write of its task is logged (R285), a mapped block becomes
dirty (R166), and a whole block written loses its poison (R361). -/
def Team.stashWrite (t : Team) (own : Option GRef) (off : Nat) (l : List Byte) : Team :=
  let blks := ((List.range l.length).map fun i => (off + i) / 256).eraseDups
  let undo := match own with
    | none => t.undo
    | some g => blks.foldl (fun us b =>
        if us.any fun u => u.blk == b then us else us ++ [{ owner := g, blk := b, old := t.stashBytes (256 * b) 256 }]) t.undo
  let whole := fun (b : Nat) => off ≤ 256 * b && 256 * (b + 1) ≤ off + l.length
  { t with stash := memWrite t.stash off l, undo := undo, bad := t.bad.filter fun b => !whole b,
           mapped := t.mapped.map fun m => if blks.contains (m.off / 256) then { m with dirty := true, filled := true } else m }

/-! ### Objects -/

/-- The first `n` bytes of an object. -/
def State.objBytes (s : State) (o : Obj) (n : Nat) : List Byte :=
  match o with
  | .stash t off _ => match s.team? t with
    | some tm => tm.stashBytes off n
    | none => List.replicate n 0
  | .glob pa _ _ => memBytes s.mem pa n

/-- An object's bytes from `at_` upward, written as part of one operation at its home; its sector takes the tag of the page that
named it (R353). -/
def State.objWrite (s : State) (o : Obj) (at_ : Nat) (l : List Byte) : State :=
  match o with
  | .stash t off _ => s.modTeam t fun tm => tm.stashWrite none (off + at_) l
  | .glob pa _ ow => s.homeWrite (pa + at_) l ow (some true)

/-- Sector `j` of a bezel's mailbox block, where its page is mapped (R64). -/
def State.mailboxSector (s : State) (b : Bezel) (j : Nat) : Option Nat :=
  let va := b.mbox.toNat + 256 * j
  match s.walk b va with
  | .leaf l => some (s.leafPa b l (va % pageSize l.level))
  | _ => none

/-- The mailbox of a bezel whose object covers a fabric address: the bezel, the object and the byte within it (R64). -/
def State.mailboxAt (s : State) (pa : Nat) : Option (Bezel × Obj × Nat) :=
  s.bezels.findSome? fun b =>
    if b.st == .vacant then none
    else (List.range 8).findSome? fun j =>
      match s.mailboxSector b j with
      | some base => if base / 256 = pa / 256 then
          some (b, .glob (pa / 32 * 32) (b.mbox + BitVec.ofNat 64 (256 * j + pa % 256 / 32 * 32)) 0, pa % 32) else none
      | none => none

/-- KIND of an object: a stash object is a barrier, and a mailbox carries no KIND (R179). -/
def State.objKind (s : State) (o : Obj) : Nat :=
  match o with
  | .stash _ _ _ => 1
  | .glob pa _ _ => if (s.mailboxAt pa).isSome then 0 else (memByte s.mem (pa + 31)).toNat

/-- A 32-bit field of an object. -/
def State.objW (s : State) (o : Obj) (i : Nat) : W32 := BitVec.ofNat 32 (leNat (slice (s.objBytes o (i + 4)) i 4))

/-- A 64-bit field of an object. -/
def State.objD (s : State) (o : Obj) (i : Nat) : W64 := BitVec.ofNat 64 (leNat (slice (s.objBytes o (i + 8)) i 8))

/-- The address of an object as the Locket records it. -/
def Obj.va : Obj → W64
  | .stash _ _ v => v
  | .glob _ v _ => v

/-- The fabric address of an object in a SYNC page; 0 for one of a stash. -/
def Obj.pa : Obj → Nat
  | .stash _ _ _ => 0
  | .glob pa _ _ => pa

/-- The die whose sync engine homes an object. -/
def Obj.die : Obj → Nat
  | .stash _ _ _ => 0
  | .glob pa _ _ => dieOfPa pa

/-- The object without the address that named it: an object is one whatever window or alias names it (R165, R179). -/
def Obj.place : Obj → Obj
  | .stash t off _ => .stash t off 0
  | .glob pa _ _ => .glob pa 0 0

/-- A release of an object at a scope by an agent is noted at this step; `key` is the phase in which it arrived, or the ticket that
it completed (R180, R189, R68; log entry 11). -/
def State.noteRelease (s : State) (o : Obj) (key agent scope : Nat) : State :=
  { s with rel := { obj := o, key := key, agent := agent, scope := scope, step := s.stepNo } ::
      s.rel.filter fun p => !(p.obj.place == o.place && p.key == key && p.agent == agent && p.scope == scope) }

/-- The step of the last release of an object that synchronises with an acquire by an agent, of those that `f` counts; 0 if none
(R229). -/
def State.releasedAt (s : State) (o : Obj) (agent : Nat) (f : ObjRel → Bool) : Nat :=
  s.rel.foldl (fun n p => if p.obj.place == o.place && scopeHolds p.scope p.agent agent && f p then max n p.step else n) 0

/-- PHASE of an object: its first 32-bit word (R186). -/
def State.objPhase (s : State) (o : Obj) : W32 := s.objW o 0

/-- The test of R180 on the four words of a barrier object: phase, arrivals, expected, pending. -/
def barrierTest (ph arr exp pend : W32) : W32 × W32 × Bool :=
  if exp.toNat ≤ arr.toNat && pend == 0 then (ph + 1, arr - exp, true) else (ph, arr, false)

/-- An object lies in a page that is MIGRATING, and takes no operation there (R316). -/
def State.objMoving (s : State) (o : Obj) : Bool :=
  match o with
  | .stash _ _ _ => false
  | .glob pa va _ => s.bezels.any fun b => match s.walk b va.toNat with
    | .leaf l => leafKind l.raw == 3 && s.leafPa b l (va.toNat % pageSize l.level) == pa
    | _ => false

/-- Where an object that an operation under way names is now: one whose channel leaves its bezel is found through its page once
system software has moved the page (R316; log entry 58). -/
def State.homeOf (s : State) (o : Obj) : Obj :=
  match o with
  | .stash _ _ _ => o
  | .glob pa va _ =>
    match (if pa / 2 ^ 40 = 8 * s.devId && va != 0 then s.unit (.chan (pa / 2 ^ 30 % 2 ^ 10)) else .free) with
    | .leaving b =>
      (match (s.bezel? b).map fun bz => (bz, s.walk bz va.toNat) with
       | some (bz, .leaf l) => if leafKind l.raw == 2 && leafSync l.raw then .glob (s.leafPa bz l (va.toNat % pageSize l.level)) va (leafOwner l.raw) else o
       | _ => o)
    | _ => o

/-- The stores that have committed to the sector of an object reach it, before an operation there (R217). -/
def State.atHome (s : State) : Obj → State
  | .stash _ _ _ => s
  | .glob pa _ _ => s.drainSector (pa / 256)

/-- SCOPE of a barrier or ring object in a SYNC page (R179, R267); that of a stash object holds every group that can name it
(R165, R179). -/
def State.fieldScope (s : State) : Obj → Nat
  | .stash _ _ _ => 1
  | .glob pa _ _ => (memByte s.mem (pa + 16)).toNat % 8

/-- One arrival of `count` lanes with `bytes` added to PENDING, made by `agent` (R180, R181, R184): applied at the home, or
discarded and recorded when the object is no barrier; an object of a MIGRATING page takes it after the migration (R316). -/
def State.arrive (s : State) (o : Obj) (count bytes : W32) (handle : W64) (agent : Nat) : State :=
  let o := s.homeOf o
  let s := s.atHome o
  if s.objMoving o then { s with heldOps := s.heldOps ++ [.arrive o count bytes handle agent] }
  else if s.objKind o ≠ 1 then s.locket o.die 9 (0x0200 + s.objKind o) handle o.va
  else
    let pend := s.objW o 12 + bytes
    let (ph, arr, _) := barrierTest (s.objW o 0) (s.objW o 4 + count) (s.objW o 8) pend
    let s1 := s.objWrite o 0 (leBytes ph.toNat 4 ++ leBytes arr.toNat 4)
    let s2 := s1.objWrite o 12 (leBytes pend.toNat 4)
    s2.noteRelease o (s.objW o 0).toNat agent (s.fieldScope o)

/-- `binit` delivered (R183): PHASE, ARRIVALS and PENDING 0, EXPECTED set; KIND and SCOPE on a sync-engine object. -/
def State.initBarrier (s : State) (o : Obj) (expected : W32) (scope : BitVec 3) : State :=
  let s1 := (s.atHome o).objWrite o 0 (leBytes 0 8 ++ leBytes expected.toNat 4 ++ leBytes 0 4)
  match o with
  | .stash _ _ _ => s1
  | .glob _ _ _ => s1.objWrite o 16 (leBytes scope.toNat 1 ++ List.replicate 14 0 ++ leBytes 1 1)

/-! ### Timeline counters (R189) -/

/-- Outcome of a ticket draw. -/
inductive Draw where
  | ticket (t : W64) (s : State)
  | wait
deriving DecidableEq, Repr

/-- A draw on a counter as one operation at its home (R189): a counter of KIND 0 is created, one of another kind gives
ticket 0 and a Locket event, as does a mailbox, which carries no KIND, and a full counter, or one of a MIGRATING page (R316), makes
the draw wait. -/
def State.draw (s : State) (o : Obj) (handle : W64) : Draw :=
  let s := s.atHome o
  let k := s.objKind o
  let box := match o with | .glob pa _ _ => (s.mailboxAt pa).isSome | .stash _ _ _ => false
  if s.objMoving o then .wait
  else if k = 0 && !box then
    .ticket 1 (s.objWrite o 0 (leBytes 0 8 ++ leBytes 2 8 ++ leBytes 0 8 ++ leBytes 0 7 ++ leBytes 2 1))
  else if k ≠ 2 then .ticket 0 (s.locket o.die 9 (0x0200 + k) handle o.va)
  else
    let done := s.objD o 0
    let next := s.objD o 8
    if next.toNat ≤ done.toNat + 64 then .ticket next (s.objWrite o 8 (leBytes (next.toNat + 1) 8)) else .wait

/-- A posted store, atomic or arrival of the group is on its way to another device and not yet acknowledged as visible at its
destination at a scope (R173, R232): one inside that module is acknowledged first, one at dom when it has arrived for every
module. -/
def State.hasPosted (s : State) (r : GRef) (scope : Nat) : Bool :=
  s.posted.any fun p => p.src == r && p.sig.isNone && !p.inside s.devId && !(scope ≤ 3 && p.acked)

/-- A draw in the program order of the group: it waits behind an older draw of the group on the counter (R236). -/
def State.drawInTurn (s : State) (r : GRef) (o : Obj) (handle : W64) : Draw :=
  let older := (s.group? r).any fun g => g.ops.any fun x => match x.what with | .draw ctr _ _ => ctr.place == o.place | _ => false
  if older then .wait else s.draw o handle

/-! ### Capacity objects (R279, R280) -/

/-- LOAD of a capacity object (R279). -/
def loadOf (claimed cap : Nat) : Nat := if cap = 0 then 65535 else min 65535 (claimed * 65536 / cap)

/-- A claim at a capacity object, as one operation at its home (R279, R280). -/
def State.claimAt (s : State) (o : Obj) (replica : Option Nat) (handle : W64) : State × Claim :=
  let s := s.atHome o
  let claimed := (s.objW o 0).toNat
  let cap := (s.objW o 4).toNat
  if s.objKind o ≠ 4 then
    (s.locket o.die 9 (0x0200 + s.objKind o) handle o.va, { replica := replica, row := none, load := 65535, rows := 0, tags := 0 })
  else if claimed < cap then
    (s.objWrite o 0 (leBytes (claimed + 1) 4),
     { replica := replica, row := some claimed, load := loadOf (claimed + 1) cap, rows := s.objD o 16, tags := s.objD o 8 })
  else (s, { replica := replica, row := none, load := 65535, rows := s.objD o 16, tags := s.objD o 8 })

/-! ### Mailboxes (R64 to R72) -/

/-- Mailbox object `m` of a bezel, if the block's page is mapped. -/
def State.mailbox (s : State) (b : Bezel) (m : Nat) : Option Obj :=
  let va := b.mbox.toNat + 32 * m
  match s.walk b va with
  | .leaf l => some (.glob (s.leafPa b l (va % pageSize l.level)) (BitVec.ofNat 64 va) (leafOwner l.raw))
  | _ => none

/-- ENABLE. -/
def State.mbEnable (s : State) (o : Obj) : Bool := (s.objW o 20).getLsbD 3
/-- DIR: set for an outbound mailbox. -/
def State.mbDir (s : State) (o : Obj) : Bool := (s.objW o 20).getLsbD 0
/-- IRQ. -/
def State.mbIrq (s : State) (o : Obj) : Bool := (s.objW o 20).getLsbD 1
/-- OVERRUN. -/
def State.mbOverrun (s : State) (o : Obj) : Bool := (s.objW o 20).getLsbD 2
/-- HEAD. -/
def State.mbHead (s : State) (o : Obj) : W32 := s.objW o 4
/-- REJECTS. -/
def State.mbRejects (s : State) (o : Obj) : W32 := s.objW o 16
/-- VECTOR. -/
def State.mbVector (s : State) (o : Obj) : Nat := (s.objW o 20).toNat / 2 ^ 16
/-- RING. -/
def State.mbRing (s : State) (o : Obj) : W64 := s.objD o 24

/-- A message is rejected or dropped: REJECTS rises and OVERRUN is set (R67, R72). -/
def State.mbReject (s : State) (o : Obj) : State :=
  let s1 := s.objWrite o 16 (leBytes (s.mbRejects o + 1).toNat 4)
  s1.objWrite o 20 (leBytes ((s1.objW o 20) ||| 4).toNat 4)

/-- The fabric address of slot `i` of a mailbox's ring: device memory of an inbound mailbox through the bezel's
tables, host memory of an outbound one (R64). -/
def State.mbSlot (s : State) (b : Bezel) (o : Obj) (i : Nat) : Option Nat :=
  let a := (s.mbRing o).toNat + 64 * (i % 256)
  if s.mbDir o then some (s.localPa (2 ^ 40 + a % 2 ^ 40))
  else match s.walk b a with
    | .leaf l => some (s.leafPa b l (a % pageSize l.level))
    | _ => none

/-- SYNC of the page in which slot `i` lies; none in host memory, which no page of the module maps (R9, R64). -/
def State.mbPage (s : State) (b : Bezel) (o : Obj) (i : Nat) : Option Bool :=
  if s.mbDir o then none
  else match s.walk b ((s.mbRing o).toNat + 64 * (i % 256)) with
    | .leaf l => some (leafSync l.raw)
    | _ => none

/-- PHASE advances over the slots sealed in sequence (R67). -/
def State.mbAdvance (b : Bezel) (o : Obj) : Nat → State → State
  | 0, s => s
  | n + 1, s =>
    let ph := s.objPhase o
    match s.mbSlot b o (ph.toNat % 256) with
    | none => s
    | some pa =>
      if leNat (memBytes s.mem (pa + 60) 4) = (ph + 1).toNat then
        State.mbAdvance b o n ((s.objWrite o 0 (leBytes (ph + 1).toNat 4)).noteRelease o 0 0 3)
      else s

/-- A record of the module sealed into an inbound mailbox under R67, when it is enabled and a slot is free. -/
def State.mbPost (s : State) (b : Bezel) (m : Nat) (tag : W32) (body : List Byte) : Option State :=
  match s.mailbox b m with
  | none => none
  | some o =>
    let ph := s.objPhase o
    if s.objMoving o || s.mbDir o || !s.mbEnable o || (ph - s.mbHead o).toNat ≥ 256 then none
    else match s.mbSlot b o (ph.toNat % 256) with
      | none => none
      | some pa =>
        let s1 := (s.drainSector (pa / 256)).homeWrite pa ((body ++ List.replicate 56 0).take 56 ++ leBytes tag.toNat 4 ++ leBytes (ph + 1).toNat 4) 0 (s.mbPage b o (ph.toNat % 256))
        some (State.mbAdvance b o 256 s1)

/-- A record for a bezel's fault mailbox joins the queue of records; FAULT_RECORD_DELIVERY seals them in order, and no
record is dropped (R164). -/
def State.queueRecord (s : State) (b : Nat) (tag : W32) (body : List Byte) : State :=
  s.modBezel b fun x => { x with msgs := x.msgs ++ [(tag, body)] }

end Sys2Proof.Machine
end

