-- ==== Sys2Proof/Machine/Ctx.lean ====
section
/-! DEFINITION. The issuing group with everything its instructions read about it; kernel records (R78 to R80, R84);
group numbering and clusters; stops of kernels (R82). -/

namespace Sys2Proof

/-- The group's name of its leader. -/
def GRef.leader (r : GRef) : GRef := { r with sh := false }
/-- The group's name of its shadow. -/
def GRef.shadow (r : GRef) : GRef := { r with sh := true }

end Sys2Proof

namespace Sys2Proof.Machine

open Sys2Proof

/-! ### Launch records (R78, R79) -/

/-- CODE. -/
def recCode (r : List Byte) : W64 := dword r 0
/-- GRIDX. -/
def recGridX (r : List Byte) : Nat := bits (dword r 8).toNat 20 0
/-- GRIDY. -/
def recGridY (r : List Byte) : Nat := bits (dword r 8).toNat 41 21
/-- GRIDZ. -/
def recGridZ (r : List Byte) : Nat := bits (dword r 8).toNat 62 42
/-- ARGS. -/
def recArgs (r : List Byte) : W64 := dword r 16
/-- RECIPES. -/
def recRecipes (r : List Byte) : W64 := dword r 24
/-- HANDLER. -/
def recHandler (r : List Byte) : W64 := dword r 32
/-- DEPCTR. -/
def recDepCtr (r : List Byte) : W64 := dword r 40
/-- DEPVAL. -/
def recDepVal (r : List Byte) : W64 := dword r 48
/-- DONECTR. -/
def recDoneCtr (r : List Byte) : W64 := dword r 56
/-- Role doubleword `n`. -/
def recRole (r : List Byte) (n : Nat) : W64 := dword r (64 + 8 * n)
/-- GROUPS of a role. -/
def roleGroups (x : W64) : Nat := bits x.toNat 7 0
/-- VREGS of a role. -/
def roleVregs (x : W64) : Nat := bits x.toNat 15 8
/-- VMAX of a role. -/
def roleVmax (x : W64) : Nat := bits x.toNat 23 16
/-- TILES of a role. -/
def roleTiles (x : W64) : Nat := bits x.toNat 31 24
/-- TMAX of a role. -/
def roleTmax (x : W64) : Nat := bits x.toNat 39 32
/-- STASH. -/
def recStash (r : List Byte) : Nat := bits (dword r 96).toNat 20 0
/-- CLUSTER. -/
def recCluster (r : List Byte) : Nat := bits (dword r 96).toNat 27 24
/-- PRIORITY. -/
def recPriority (r : List Byte) : Nat := bits (dword r 96).toNat 34 32
/-- PRELOAD. -/
def recPreload (r : List Byte) : BitVec 9 := BitVec.ofNat 9 (bits (dword r 96).toNat 48 40)
/-- KEY. -/
def recKey (r : List Byte) : Nat := bits (dword r 104).toNat 15 0
/-- VBOUND. -/
def recVbound (r : List Byte) : Nat := bits (dword r 104).toNat 23 16
/-- SHADOW. -/
def recShadow (r : List Byte) : Bool := (dword r 104).getLsbD 32
/-- CORESIDENT. -/
def recCoresident (r : List Byte) : Bool := (dword r 104).getLsbD 33
/-- RESTARTABLE. -/
def recRestartable (r : List Byte) : Bool := (dword r 104).getLsbD 34
/-- SUPER. -/
def recSuper (r : List Byte) : Bool := (dword r 104).getLsbD 35
/-- Format slot `n` (R39). -/
def recFslot (r : List Byte) (n : Nat) : W64 := dword r (112 + 8 * n)
/-- Every store of the kernel is its own task (R221). -/
def recOwnTask (r : List Byte) : Bool := !recShadow r && recRecipes r == 0
/-- The role of group `n` of a team and its index within the role (R79). -/
def roleOf (r : List Byte) (n : Nat) : Nat × Nat :=
  let g0 := roleGroups (recRole r 0)
  let g1 := roleGroups (recRole r 1)
  let g2 := roleGroups (recRole r 2)
  if n < g0 then (0, n) else if n < g0 + g1 then (1, n - g0) else if n < g0 + g1 + g2 then (2, n - g0 - g1)
  else (3, n - g0 - g1 - g2)
/-- Groups of a team. -/
def recGroups (r : List Byte) : Nat :=
  roleGroups (recRole r 0) + roleGroups (recRole r 1) + roleGroups (recRole r 2) + roleGroups (recRole r 3)
/-- Teams of a grid. -/
def recTeams (r : List Byte) : Nat := recGridX r * recGridY r * recGridZ r

/-- No team of the kernel is unplaced (R74). -/
def Kernel.allPlaced (k : Kernel) : Bool := k.requeued.isEmpty && recTeams k.record ≤ k.nextTid

/-- The lowest unplaced team id (R76). -/
def Kernel.lowest (k : Kernel) : Option Nat :=
  match k.requeued with
  | t :: _ => some t
  | [] => if k.nextTid < recTeams k.record then some k.nextTid else none

/-- Teams not placed. -/
def Kernel.unplacedCount (k : Kernel) : Nat := k.requeued.length + (recTeams k.record - k.nextTid)

/-- A kernel handle (R84). -/
def handleOf (b slot : Nat) (seq : W32) : W64 := BitVec.ofNat 64 (seq.toNat * 2 ^ 16 + b * 2 ^ 10 + slot)

/-- A final state (R84). -/
def KState.final : KState → Bool
  | .complete => true | .completePartial => true | .failed => true | .refused => true | .cancelled => true
  | .recorded => false | .admitted => false | .running => false | .draining => false

/-- Code of a kernel state (R86). -/
def KState.code : KState → Nat
  | .recorded => 0 | .admitted => 1 | .running => 2 | .draining => 3 | .complete => 4 | .completePartial => 5
  | .failed => 6 | .refused => 7 | .cancelled => 8

/-! ### The issuing group -/

/-- The issuing group with its team, kernel, bezel and clause. -/
structure Ctx where
  g : GRef
  grp : Group
  team : Team
  kern : Kernel
  bez : Bezel
  cl : Clause
  now : Nat := 0
deriving DecidableEq, Repr

/-- Context of a group that has a started clause. -/
def State.ctxOf (s : State) (r : GRef) : Option Ctx :=
  match s.team? r.team with
  | none => none
  | some t =>
    match t.group? r, s.bezel? t.bezel with
    | some g, some b =>
      match g.clause, b.kernel? t.kslot with
      | some c, some k => some { g := r, grp := g, team := t, kern := k, bez := b, cl := c, now := s.stepNo }
      | _, _ => none
    | _, _ => none

/-- Context of the issuing group. -/
def State.ctx (s : State) : Option Ctx := s.cur.bind s.ctxOf

/-- Owner slot of the launch (R353). -/
def Ctx.key (c : Ctx) : Nat := recKey c.kern.record % 4096
/-- Kernel handle. -/
def Ctx.handle (c : Ctx) : W64 := handleOf c.bez.num c.kern.slot c.kern.seq
/-- Module-wide logical core. -/
def Ctx.core (c : Ctx) : Nat := c.team.core
/-- Die of the core. -/
def Ctx.die (c : Ctx) : Nat := c.team.core / 64
/-- The issuing slot. -/
def Ctx.slot (c : Ctx) : Slot := c.cl.slot
/-- Effective mask at issue (R91). -/
def Ctx.em (c : Ctx) : W32 := c.grp.em c.cl.slot
/-- Value of a scalar source. -/
def Ctx.s (c : Ctx) (code : BitVec 8) : W64 := c.grp.ssrc c.cl code
/-- Value of a vector source. -/
def Ctx.v (c : Ctx) (code : BitVec 8) : VReg := c.grp.vsrc c.cl code
/-- The kernel carries SHADOW, and the group is not in a handler, in which its shadow is parked (R97, R292; log entry 50). -/
def Ctx.shadowed (c : Ctx) : Bool := recShadow c.kern.record && c.grp.mode != .handler
/-- Address of the instruction. -/
def Ctx.pc (c : Ctx) : VA := c.cl.hdr + 4 + BitVec.ofNat 57 (4 * c.cl.idx)
/-- Resume point of the instruction (R283). -/
def Ctx.here (c : Ctx) : Pc := { hdr := c.cl.hdr, idx := c.cl.idx }
/-- Address of the word after the clause's last literal (R102). -/
def Clause.next (c : Clause) : VA := c.hdr + BitVec.ofNat 57 (4 * (1 + c.words.length + c.lits.length))
/-- Resume point after the instruction (R283, R286). -/
def Ctx.after (c : Ctx) : Pc :=
  if c.cl.idx + 1 < c.cl.words.length then { hdr := c.cl.hdr, idx := c.cl.idx + 1 } else { hdr := c.cl.next, idx := 0 }
/-- Teams per cluster and the team's rank in its cluster (R90, R165): ranks follow x. -/
def teamRank (r : List Byte) (tid : Nat) : Nat :=
  if recCluster r ≤ 1 then 0 else (tid % recGridX r) % recCluster r
/-- The cluster member of a given rank. -/
def State.clusterTeam (s : State) (t : Team) (r : List Byte) (rank : Nat) : Option Team :=
  s.teams.find? fun x => x.bezel == t.bezel && x.kslot == t.kslot && x.kseq == t.kseq &&
    x.tid == t.tid - teamRank r t.tid + rank
/-- PLACE (R121). -/
def placeWord (t : Team) (n : Nat) : W32 := BitVec.ofNat 32 (t.core * 2 ^ 10 + (n % 4) * 2 ^ 8 + n)

/-- An issuer record for an engine command. -/
def Ctx.issuer (c : Ctx) (op : Option Nat) (ctr : Option (Obj × W64)) : Issuer :=
  { g := c.g, pc := { hdr := c.pc, idx := 0 }, op := op, bezel := c.bez.num, kslot := c.kern.slot, handle := c.handle,
    key := c.key, core := c.core, ctr := ctr, since := c.now }

/-- The state with the issuing group changed. -/
def Ctx.mod (c : Ctx) (s : State) (f : Group → Group) : State := s.modGroup c.g f

end Sys2Proof.Machine
end

