-- ==== Sys2Proof/Machine/Dep.lean ====
section
/-! DEFINITION. Faults on pages (R163, R164), the counters of kernels (R377), and completions of tickets with the tests of
dependences that follow them (R189, R377). -/

namespace Sys2Proof.Machine

open Sys2Proof

/-! ### Faults (R163, R164) -/

/-- The body of a fault record (R164). -/
def FaultEntry.body (f : FaultEntry) : List Byte :=
  leBytes f.va.toNat 8 ++ leBytes f.fid.toNat 4 ++ leBytes (min f.count 65535) 2 ++ leBytes (f.cause + 16 * f.level) 1
    ++ leBytes ((if f.write then 1 else 0) + (if f.fetch then 2 else 0) + (if f.engine then 4 else 0)
      + (if f.smap then 8 else 0)) 1
    ++ leBytes f.handle.toNat 8 ++ leBytes f.place.toNat 4 ++ List.replicate 28 0

/-- A record of a bezel, sealed at once when none waits before it and the mailbox has a slot, else queued (R164). -/
def State.record (s : State) (b : Nat) (tag : W32) (body : List Byte) : State :=
  match s.bezel? b with
  | none => s
  | some bz =>
    if bz.msgs.isEmpty then
      match s.mbPost bz bz.faultMb tag body with
      | some s' => s'
      | none => s.queueRecord b tag body
    else s.queueRecord b tag body

/-- What is known about a faulting access. -/
structure FaultInfo where
  va : W64
  cause : Nat
  level : Nat
  write : Bool := false
  fetch : Bool := false
  engine : Bool := false
  smap : Bool := false
  handle : W64
  place : W32
  joiner : Joiner

/-- The next FID: never 0 (R164). -/
def nextFidOf (f : W32) : W32 := if f = 0xFFFFFFFF then 1 else f + 1

/-- A walk of an address reads an entry from a poisoned sector (R160, R361). -/
def State.walkPoisoned (s : State) (va : Nat) : Nat → Nat → Bool
  | 0, _ => false
  | n + 1, table =>
    let pa := s.localPa (table + 8 * walkIndex va (n + 1))
    let raw : W64 := BitVec.ofNat 64 (leNat (s.homeBytes pa 8))
    s.poisoned (pa / 256) || (leafKind raw == 1 && s.walkPoisoned va n (bits raw.toNat 42 10 * 2 ^ 10))

/-- A fault joins the entry of its granule, or takes an entry and sends one record, or waits for a free entry (R164). -/
def State.fault (s : State) (b : Nat) (f : FaultInfo) : State :=
  match s.bezel? b with
  | none => s
  | some bz =>
    let s := if f.cause = 2 && s.walkPoisoned f.va.toNat 5 bz.root then
        s.locket (f.place.toNat / 2 ^ 10 / 64) 7 12 f.handle f.va else s
    let gr := f.va.toNat / 2 ^ 16
    if bz.faults.any fun e => e.granule == gr then
      s.modBezel b fun x => { x with faults := x.faults.map fun (e : FaultEntry) =>
        if e.granule == gr then { e with count := e.count + 1, joined := e.joined ++ [f.joiner] } else e }
    else if 256 ≤ bz.faults.length then s
    else
      let e : FaultEntry :=
       { fid := bz.nextFid, granule := gr, va := f.va, count := 1, cause := f.cause, level := f.level, write := f.write,
         fetch := f.fetch, engine := f.engine, smap := f.smap, handle := f.handle, place := f.place, joined := [f.joiner] }
      (s.modBezel b fun x => { x with faults := x.faults ++ [e], nextFid := nextFidOf x.nextFid }).record b e.fid e.body

/-! ### The counters of kernels (R377) -/

/-- How a use of a kernel's counter finds it (R377): at a fabric address, waiting for a page (a fault of a cause and level)
or for the end of a migration, or unusable. -/
inductive CtrUse where
  | ok (o : Obj)
  | wait (cause level : Nat)
  | migrating
  | bad
deriving DecidableEq, Repr

/-- A use of DEPCTR, or, with `done`, of DONECTR, for the owner slot of the new kernel's KEY (R377, R81): a 32-byte-aligned
address of a MAPPED SYNC page whose OWNER is 0 or the slot, writable for DONECTR. -/
def State.ctrUse (s : State) (b : Bezel) (key : Nat) (ad : W64) (done : Bool) : CtrUse :=
  if 2 ^ 57 ≤ ad.toNat || ad.toNat % 32 ≠ 0 || 0x1FE ≤ bits ad.toNat 56 48 then .bad
  else match s.walk b ad.toNat with
    | .notPresent l => .wait 1 l
    | .bad l => .wait 2 l
    | .leaf l =>
      let ow := leafOwner l.raw
      if (ow ≠ 0 && ow ≠ key) || !leafSync l.raw || (done && !leafW l.raw) then .bad
      else if leafKind l.raw = 3 then .migrating
      else if leafKind l.raw ≠ 2 then .bad
      else
        let pa := s.leafPa b l (ad.toNat % pageSize l.level)
        let tag := (s.sidecar (pa / 256)).owner
        if tag ≠ 0 && tag ≠ ow then .bad else .ok (.glob pa ad ow)

/-- The dependence of a kernel is met (R377): DEPCTR is 0, or a test has found it met. -/
def Kernel.depMet (k : Kernel) : Bool := recDepCtr k.record == 0 || k.depOk

/-- The die whose sync engine homes a bezel's kernels. -/
def Bezel.die (b : Bezel) : Nat := b.seat / 64

/-- A dependence or completion of a kernel waits on a page: the fault record, with the engine bit (R377). -/
def State.ctrFault (s : State) (b : Bezel) (k : Kernel) (ad : W64) (cause level : Nat) (write : Bool) : State :=
  s.fault b.num { va := ad, cause := cause, level := level, write := write, engine := true,
                  handle := handleOf b.num k.slot k.seq, place := BitVec.ofNat 32 (b.seat * 2 ^ 10), joiner := .kernel k.slot }

/-- The kernel has joined a pending fault at an address. -/
def Bezel.kernelJoined (b : Bezel) (slot : Nat) (ad : W64) : Bool :=
  b.faults.any fun e => e.granule == ad.toNat / 2 ^ 16 && e.joined.contains (.kernel slot)

/-- The dependence of an ADMITTED kernel tested, with what the test leaves (R377): met where DONE is at least DEPVAL, which a
counter of KIND 0 reads as 0; a fault record for a page that is not there, a wait for the end of a migration, and one event for a
counter that never meets it. -/
def State.testDep (s : State) (bn slot : Nat) : State :=
  match s.bezel? bn, s.kernel? bn slot with
  | some b, some k =>
    if k.st != .admitted || k.depMet || k.depBad || k.depWait || k.depMigr then s
    else
      let mark := fun (s : State) (f : Kernel → Kernel) => s.modKernel bn slot f
      let never := fun (code : Nat) => (s.modKernel bn slot fun k => { k with depBad := true }).locket b.die 9 code
        (handleOf bn slot k.seq) (recDepCtr k.record)
      match s.ctrUse b (recKey k.record % 4096) (recDepCtr k.record) false with
      | .ok o =>
        let s := mark s fun k => { k with depPa := some o.pa, depWait := false, depMigr := false }
        let kind := s.objKind o
        if kind ≠ 0 && kind ≠ 2 then never (0x0200 + kind)
        else if (recDepVal k.record).toNat ≤ (if kind = 0 then 0 else (s.objD o 0).toNat) then
          mark s fun k => { k with depOk := true }
        else s
      | .wait c l => mark (s.ctrFault b k (recDepCtr k.record) c l false) fun k => { k with depWait := true }
      | .migrating => mark s fun k => { k with depMigr := true }
      | .bad => never 0x0600
  | _, _ => s

/-- The home of a counter informs the kernels that depend on it when its DONE advances (R377): those whose last test found it there,
and those whose DEPCTR leads there now. -/
def State.dependsOn (s : State) (b : Bezel) (k : Kernel) (pa : Nat) : Bool :=
  k.st == .admitted && recDepCtr k.record != 0 && (k.depPa == some pa ||
    (match s.ctrUse b (recKey k.record % 4096) (recDepCtr k.record) false with | .ok o => o.pa == pa | _ => false))

/-- The dependences on a counter at a fabric address tested (R377). -/
def State.testDeps (s : State) (pa : Nat) : State :=
  s.bezels.foldl (fun s b => (b.kernels.filter fun k => s.dependsOn b k pa).foldl (fun s k => s.testDep b.num k.slot) s) s

/-! ### Completions (R189) -/

/-- DONE and BITMAP after moving past the completed tickets at the bottom of BITMAP. -/
def shiftBitmap : Nat → Nat → Nat → Nat × Nat
  | 0, done, bm => (done, bm)
  | n + 1, done, bm => if bm % 2 = 1 then shiftBitmap n (done + 1) (bm / 2) else (done, bm)

/-- One completion within BITMAP by `agent` (R189). Answers the state and whether the ticket was outstanding. On an object whose KIND
is not 2, for which R189 gives no result, it does nothing (log entry 59). -/
def State.completeNow (s : State) (o : Obj) (t agent : Nat) : State × Bool :=
  let done := (s.objD o 0).toNat
  let next := (s.objD o 8).toNat
  let bm := (s.objD o 16).toNat
  if s.objKind o = 2 && done < t && t < next && !bm.testBit (t - done - 1) then
    let (done', bm') := shiftBitmap 64 done (bm + 2 ^ (t - done - 1))
    let s1 := s.objWrite o 0 (leBytes done' 8)
    let s2 := s1.objWrite o 16 (leBytes bm' 8)
    (s2.noteRelease o t agent 3, true)
  else (s, false)

/-- The completions of a counter held beyond BITMAP that now lie within it are applied (R189). -/
def State.releaseHeld (o : Obj) (agent : Nat) : Nat → State → State
  | 0, s => s
  | n + 1, s =>
    match s.heldCompletions.find? fun h => h.1.place == o.place && h.2 ≤ (s.objD o 0).toNat + 64 with
    | none => s
    | some h =>
      State.releaseHeld o agent n
        { (s.completeNow o h.2 agent).1 with heldCompletions := s.heldCompletions.erase h }

/-- The completion of a ticket is held at a counter's home (R189). -/
def State.isHeld (s : State) (o : Obj) (t : Nat) : Bool := s.heldCompletions.any fun h => h.1.place == o.place && h.2 == t

/-- complete(t) (R189): applied, or held while the ticket lies beyond BITMAP; where DONE advances, the dependences on the counter are
tested (R377). Answers the state, whether the ticket was
outstanding and now completed, and whether it is held. -/
def State.complete (s : State) (o : Obj) (t : Nat) (agent : Nat := 0) : State × Bool × Bool :=
  match o with
  | .stash _ _ _ => (s, false, false)
  | .glob _ _ _ =>
    let s := s.atHome o
    let done := (s.objD o 0).toNat
    let next := (s.objD o 8).toNat
    if s.objKind o = 2 && done < t && t < next && done + 64 < t then
      if s.isHeld o t then (s, false, false)
      else ({ s with heldCompletions := s.heldCompletions ++ [(o, t)] }, true, true)
    else
      let (s1, ok) := s.completeNow o t agent
      let s2 := State.releaseHeld o agent s1.heldCompletions.length s1
      (if s2.objD o 0 = s.objD o 0 then s2 else s2.testDeps o.pa, ok, false)

/-- The ticket of a finished command completes; ticket 0 is no ticket (R189). A counter of a MIGRATING page takes the completion
after the migration (R316). -/
def State.completeTicket (s : State) : Option (Obj × W64) → State
  | none => s
  | some (o', t) =>
    let o := s.homeOf o'
    if t = 0 then s
    else if s.objMoving o then { s with heldOps := s.heldOps ++ [.complete o t] }
    else (s.complete o t.toNat).1

end Sys2Proof.Machine
end

