-- ==== Sys2Proof/Machine/Units.lean ====
section
/-! DEFINITION. Units leaving a bezel and the transitions of a bezel that follow from them (R306, R310, R314). -/

namespace Sys2Proof.Machine

open Sys2Proof

/-- A team occupies its core (R297). -/
def Team.placed (t : Team) : Bool :=
  !t.ended && (t.ctx == .loading || t.ctx == .running || t.ctx == .stopping || t.ctx == .restoring)

/-- A kernel leaves its queue (R74, R76): a die that served it last goes on at the kernel that followed it, and, when that one leaves
in its turn, at the one that follows then (log entry 57). -/
def Bezel.leaveQueue (b : Bezel) (slot : Nat) : Bezel :=
  match b.queues.find? fun p => p.2 == slot with
  | none => b
  | some (pr, _) =>
    let q := (b.queues.filter fun p => p.1 == pr).map (·.2)
    let next := (q.drop ((q.idxOf slot) + 1)).head?
    { b with
      queues := b.queues.filter fun p => p.2 != slot
      lastServed := b.lastServed.filterMap fun (p : Nat × Nat × Nat × Bool) =>
        if p.2.1 == pr && p.2.2.1 == slot then
          (match next with
           | some n => some (p.1, pr, n, false)
           | none => none)
        else some p }

/-- A unit enters QUARANTINE (R306). -/
def State.quarantine (s : State) (u : UnitId) : State := s.setUnit u .quarantine

/-- The units of a bezel, leaving ones included. -/
def State.unitsOf (s : State) (b : Nat) : List UnitId :=
  (s.units.filter fun p => p.2 == .member b || p.2 == .leaving b).map (·.1)

/-- A key slot; one that is not listed is EMPTY and sealed to no bezel. -/
def State.keySlot (s : State) (n : Nat) : KeySlot :=
  match s.keys.find? fun k => k.slot == n with
  | some k => k
  | none => { slot := n }

/-- A slot's keys zeroed and its seal removed (R354). -/
def State.clearSlot (s : State) (slot : Nat) : State :=
  { s with keys := s.keys.filter fun k => k.slot != slot }

/-- A `keygen` fn 0 takes its status (R355). -/
def State.keyStatus (s : State) (n : Nat) (status : W64) : State :=
  let put := fun (g : Group) => { g with
    lvq := g.lvq.map fun (e : LvqEntry) =>
      if g.ops.any fun o => o.id == e.op && o.what == .keyDraw n then
        { e with dest := e.dest.map fun d => match d with | .scal i _ => .scal i status | x => x } else e
    ops := g.ops.map fun (o : Op) => if o.what == .keyDraw n then
      { o with what := .ready, dest := o.dest.map fun d => match d with | .scal i _ => .scal i status | x => x } else o }
  { s with teams := s.teams.map fun (t : Team) => { t with groups := t.groups.map put } }

/-- A key slot whose bezel dissolves (R354); a `keygen` whose draw is under way there gets no key, and the status ENTROPY (log entry
26). -/
def State.unbindKey (s : State) (k : KeySlot) : State :=
  (if k.st == .generating then s.keyStatus k.slot 1 else s).clearSlot k.slot

/-- A bezel vacated (R310): its key slots unbound, its units in QUARANTINE, the ticket of the dissolve completed. -/
def State.vacate (s : State) (bz : Bezel) : State :=
  let s1 := (s.unitsOf bz.num).foldl (fun s u => s.quarantine u) s
  let s2 := (s1.keys.filter fun k => k.sealed == some bz.num).foldl (fun s k => s.unbindKey k) s1
  let s3 := { s2 with
    bezels := s2.bezels.map fun (x : Bezel) => if x.num == bz.num then { num := bz.num } else x
    teams := s2.teams.filter fun t => t.bezel != bz.num
    tlb := s2.tlb.filter fun e => e.bezel != bz.num
    dieTlb := s2.dieTlb.filter fun e => e.bezel != bz.num
    audits := s2.audits.filter fun a => a.bezel != bz.num }
  s3.completeTicket bz.ticket

/-- Leaving cores on which no team of the bezel stands enter QUARANTINE (R314). -/
def State.freeCores (s : State) (b : Nat) : State :=
  let out := (s.unitsOf b).filter fun u => match u with
    | .core c => s.unit u == .leaving b && !s.teams.any fun t => t.bezel == b && t.core == c && t.placed
    | _ => false
  out.foldl (fun s u => s.quarantine u) s

/-- What a bezel does when a team, a kernel or a unit of it has gone (R310): a shrink ends when its last leaving unit is in
QUARANTINE, and a dissolve when every kernel has retired. -/
def State.settleBezel (s : State) (b : Nat) : State :=
  let s1 := s.freeCores b
  match s1.bezel? b with
  | none => s1
  | some bz =>
    match bz.st with
    | .shrinking =>
      if s1.units.any fun p => p.2 == .leaving b then s1
      else (s1.modBezel b fun x => { x with st := .active, ticket := none }).completeTicket bz.ticket
    | .dissolving => if bz.kernels.all fun k => k.st.final then s1.vacate bz else s1
    | _ => s1

end Sys2Proof.Machine
end

