-- ==== Sys2Proof/Machine/Mirror.lean ====
section
/-! DEFINITION. Flow ends: the fields of their records (R242), and the mirror area and its write-back (R13, R244, R245,
R260). -/

namespace Sys2Proof.Machine

open Sys2Proof

/-! ### Flow records (R242) -/

/-- PRED = REPEAT. -/
def FlowEnd.repeat_ (f : FlowEnd) : Bool := (dword f.record 0).getLsbD 1
/-- MCAST of a record. -/
def frMcast (r : List Byte) : Bool := (dword r 0).getLsbD 2
/-- DIR of a record: a receive end. -/
def frRecv (r : List Byte) : Bool := (dword r 0).getLsbD 0
/-- WIDTH of a record. -/
def frWidth (r : List Byte) : Nat := bits (dword r 0).toNat 5 4
/-- CLASS of a record. -/
def frClass (r : List Byte) : Nat := bits (dword r 0).toNat 9 8
/-- W of a record. -/
def frWin (r : List Byte) : Nat := bits (dword r 0).toNat 27 16 + 1
/-- NMEM of a record. -/
def frNmem (r : List Byte) : Nat := bits (dword r 0).toNat 39 36
/-- FLOW of a record. -/
def frFlow (r : List Byte) : Nat := bits (dword r 0).toNat 63 48
/-- PFLOW of a record. -/
def frPflow (r : List Byte) : Nat := bits (dword r 8).toNat 15 0
/-- PDIE of a record. -/
def frPdie (r : List Byte) : Nat := bits (dword r 8).toNat 17 16
/-- PDEV of a record. -/
def frPdev (r : List Byte) : Nat := bits (dword r 8).toNat 30 18
/-- MIRROR of a record. -/
def frMirror (r : List Byte) : W64 := dword r 16
/-- LAND of a record. -/
def frLand (r : List Byte) : W64 := dword r 24
/-- RXOBJ of a record. -/
def frRxobj (r : List Byte) : W64 := dword r 32
/-- MEMBERS of a record. -/
def frMembers (r : List Byte) : W64 := dword r 40

/-- A must-be-zero bit of the record is set, or WIDTH is reserved (R242, R260). -/
def frBad (r : List Byte) : Bool :=
  let d0 := (dword r 0).toNat
  bits d0 3 3 ≠ 0 || bits d0 7 6 ≠ 0 || bits d0 15 10 ≠ 0 || bits d0 35 28 ≠ 0 || bits d0 47 40 ≠ 0 ||
  bits (dword r 8).toNat 63 31 ≠ 0 || (slice r 48 80).any (· ≠ 0) || frWidth r = 3

/-- Device, die and flow number of the end that member `m` names (R242, R243). -/
def FlowEnd.peer (f : FlowEnd) (m : Nat) : Nat × Nat × Nat :=
  if frMcast f.record then
    let x := (f.members[m]?.getD 0).toNat
    (bits x 30 18, bits x 17 16, bits x 15 0)
  else (frPdev f.record, frPdie f.record, frPflow f.record)

/-- The member numbers of a send end. -/
def FlowEnd.memberNos (f : FlowEnd) : List Nat := if frMcast f.record then List.range (frNmem f.record + 1) else [0]

/-- A slot of an end (R244). -/
def FlowEnd.slot (f : FlowEnd) (s : Nat) : FSlot := (f.slots.find? fun x => x.s == s).getD { s := s }

/-- An end with a slot replaced. -/
def FlowEnd.setSlot (f : FlowEnd) (x : FSlot) : FlowEnd := { f with slots := x :: f.slots.filter fun y => y.s != x.s }

/-- A receive end (R242). -/
def FlowEnd.isRecv (f : FlowEnd) : Bool := (dword f.record 0).getLsbD 0

/-- The working state of an end: the state held at save while it is SUSPENDED (R245). -/
def FlowEnd.work (f : FlowEnd) : FState := if f.st == .suspended then f.held else f.st

/-- An end in another working state. -/
def FlowEnd.setWork (f : FlowEnd) (x : FState) : FlowEnd :=
  if f.st == .suspended then { f with held := x } else { f with st := x }

/-- A global address translated for the launch that opened a flow end. -/
def State.flowTr (s : State) (f : FlowEnd) (k : Acc) (va : W64) : Tr :=
  if badVa va || isWindow va then .prot
  else match s.bezel? f.bezel with
    | some b => s.translate b (noTlb f.die) f.key k va.toNat
    | none => .prot

/-- What the mirror cache holds for an end with prediction, as the mirror area lays it out (R244): slot data, retry copies
and the state doublewords, each piece inside one sector. -/
def FlowEnd.mirrorPieces (f : FlowEnd) : List (Nat × List Byte) :=
  if !f.repeat_ then []
  else
    let w := frWin f.record
    let pad := fun (l : List Byte) => (l ++ List.replicate 256 0).take 256
    let st := fun (i : Nat) => leBytes ((f.slot i).gen.toNat + if (f.slot i).valid then 2 ^ 16 else 0) 8
    f.slots.map (fun x => (256 + 256 * x.s, pad x.data)) ++
    (match f.cur with
     | some t => t.chunks.map fun c => (256 + 256 * w + 256 * c.1, pad c.2.2)
     | none => []) ++
    (List.range ((w + 31) / 32)).map fun j =>
      (256 + 512 * w + 256 * j, (List.range (min 32 (w - 32 * j))).flatMap fun i => st (32 * j + i))

/-- A mirror write-back waits for `fltret`, or for the end of a migration (R260). -/
def State.mirrorParked (s : State) (w : MirrorWrite) : Bool :=
  w.migr || (s.bezel? w.f.bezel).any fun b => b.faults.any fun e => e.joined.contains (.mirror w.f.num w.f.handle w.off)

/-- The mirror cache of an end put out to its mirror area (R13, R244, R245): each piece whose page takes it at once is
written, and the others wait (R166, R260). -/
def State.flushMirror (s : State) (f : FlowEnd) : State :=
  f.mirrorPieces.foldl (fun (s : State) (x : Nat × List Byte) =>
    match s.flowTr f .store (frMirror f.record + BitVec.ofNat 64 x.1) with
    | .ok pa sync ow =>
      if (s.mappedBlock (pa / 256)).isSome then { s with mirrorQ := s.mirrorQ ++ [{ f := f, off := x.1, data := x.2 }] }
      else (s.drainSector (pa / 256)).homeWrite pa x.2 ow (some sync)
    | _ => { s with mirrorQ := s.mirrorQ ++ [{ f := f, off := x.1, data := x.2 }] }) s

/-- The mirror of an end that closes; the ACK of a transfer that it has accepted leaves first (R254, R256). -/
def State.closeMirror (s : State) (f : FlowEnd) : State :=
  let s1 := match f.ackDue with
    | some seq => { s with net := s.net ++ [NetMsg.ack (frPdev f.record) (frPdie f.record) (frPflow f.record) s.devId f.num seq false] }
    | none => s
  s1.flushMirror f

end Sys2Proof.Machine
end

