-- ==== Sys2Proof/Machine/Task.lean ====
section
/-! DEFINITION. Tasks: versions and their units (R221 to R224, R285), commit (R287), checkpoints (R281 to R284),
flashback (R290), lane kills (R96), the end of a kernel by an error (R82), and delivery of what a version held. -/

namespace Sys2Proof.Machine

open Sys2Proof

/-! ### Ends and kills -/

/-- A tile as its task left it, or undone (R196). -/
def Tile.flip (t : Tile) : Tile := if t.wr then { t with cur := !t.cur, wr := false } else t
/-- A tile rewound (R196). -/
def Tile.undo (t : Tile) : Tile := { t with wr := false }
/-- The tile's value within the task (R196). -/
def Tile.val (t : Tile) : TileBuf := if t.wr != t.cur then t.p1 else t.p0
/-- The tile's committed value. -/
def Tile.committed (t : Tile) : TileBuf := if t.cur then t.p1 else t.p0
/-- The rows of the tile's value whose storage has failed (R360). -/
def Tile.bad (t : Tile) : W32 := if t.wr != t.cur then t.bad1 else t.bad0
/-- A tile-writing operation: writes go to buffer ¬CUR and WR is set (R196). `rows`: the rows that it writes. -/
def Tile.store (t : Tile) (b : TileBuf) (rows : W32 := -1) : Tile :=
  if t.cur then { t with p0 := b, wr := true, bad0 := t.bad &&& ~~~ rows } else { t with p1 := b, wr := true, bad1 := t.bad &&& ~~~ rows }

/-- The team's stash with the undo log of one group written back (R285, R290), or dropped (R287). -/
def Team.settleUndo (t : Team) (g : GRef) (back : Bool) : Team :=
  let mine := t.undo.filter fun u => u.owner == g
  { t with undo := t.undo.filter fun u => u.owner != g,
           stash := if back then mine.foldl (fun m u => memWrite m (256 * u.blk) u.old) t.stash else t.stash }

/-- Step 1 of R290 on the group: version discarded, tiles flipped back, allocation restored (R125). -/
def Group.discardVersion (g : Group) : Group :=
  let n := g.ver.allocStart
  { g with ver := { allocStart := n, tilesStart := g.ver.tilesStart },
           v := if g.v.length ≤ n then g.v ++ List.replicate (n - g.v.length) {} else g.v.take n,
           t := (List.range g.ver.tilesStart).map fun i =>
             ((match g.ver.heldTiles.find? fun (p : Nat × Tile) => p.1 == i with | some p => some p.2 | none => g.t[i]?).getD {}).undo }

/-- Step 2 of R290 on the group: the task's class-a and class-m operations and held operations are discarded and their
flags lowered. Engine commands and deliveries of committed tasks keep running. -/
def Group.discardOps (g : Group) : Group :=
  { g with ops := g.ops.filter (fun o => o.task != g.taskSeq || o.ck ||
             (match o.what with
               | .engine _ => true | .event => true | .keyDraw _ => true | .inval _ _ _ _ => true
               | .draw _ why _ => (match why with | .tlinc _ => false | _ => true)
               | _ => false)),
           mq := g.mq.filter fun m => match m.what with | .coll _ _ => true | _ => false }

/-- The activities that a discarded task opened are freed while their stacks are empty (R324, R333). -/
def State.freeTaskActs (s : State) (g : GRef) (seq : W32) : State :=
  let gone := s.acts.filter fun a => a.task == some (g, seq) && a.stack.isEmpty && a.st == .opened
  let s1 := gone.foldl (fun s a => s.completeTicket (a.ctr.map fun o => (o, a.ticket))) s
  { s1 with acts := s1.acts.filter fun a => !gone.any fun x => x.slot == a.slot,
            actFreed := s1.actFreed ++ gone.map (·.slot) }

/-- A group's version discarded: steps 1 and 2 of R290. The ticket of an `astep` that is discarded before its commit completes, as the
ticket of a discarded `aopen` does (log entry 22). -/
def State.discardTask (s : State) (r : GRef) : State :=
  match s.group? r with
  | none => s
  | some g =>
    let s1 := s.modGroup r fun g => (g.discardOps).discardVersion
    let s2 := { s1 with teams := s1.teams.map fun (t : Team) =>
      let t1 := t.settleUndo r true
      if t.sid == r.team && !r.sh then { t1 with requests := t1.requests.filter fun q => q.grp != r.grp } else t1 }
    ((s2.completeTicket g.ticket).modGroup r fun g => { g with ticket := none }).freeTaskActs r g.taskSeq

/-- Lanes that die in a leader and its shadow, counted by the kernel (R96, R86). -/
def State.deadLanes (s : State) (r : GRef) (m : W32) : State :=
  match s.team? r.team, s.group? r with
  | some t, some g =>
    let new := m &&& ~~~ g.dead
    let s1 := (s.modGroup r.leader fun g => { g with dead := g.dead ||| new }).modGroup r.shadow fun g =>
      { g with dead := g.dead ||| new }
    s1.modKernel t.bezel t.kslot fun k => { k with lost := k.lost + BitVec.ofNat 32 (popc new.toNat 32) }
  | _, _ => s

/-- Lanes killed by an uncorrectable error at an address, with the event (R96, R364). -/
def State.killLanes (s : State) (r : GRef) (m : W32) (addr : W64) : State :=
  match s.team? r.team, s.group? r with
  | some t, some g =>
    if m &&& ~~~ g.dead = 0 then s
    else (s.deadLanes r m).locket (t.core / 64) 2 12 (handleOf t.bezel t.kslot t.kseq) addr
  | _, _ => s

/-- The committed contents of a filled and dirty mapped block written to its sector, poison included; the leases of the block's
core on the sector end, since its groups may have read later contents in the block (R166, R217, R225, R361). -/
def State.storeBlock (s : State) (t : Team) (m : Mapped) : State :=
  if m.filled && m.dirty then
    let s1 := (s.homeWrite (256 * m.sector) ((List.range 256).map fun i => t.committedByte (m.off + i)) m.owner (some false)).dropLeases
      t.core [m.sector]
    if t.bad.contains (m.off / 256) then s1.setSidecar m.sector { s1.sidecar m.sector with poison := true } else s1
  else s.dropLeases t.core [m.sector]

/-- A program stores to an address: the predictions of an open flow end of its bezel whose mirror area holds the address become
undefined (R244). -/
def State.spoilMirrors (s : State) (bezel : Nat) (va : W64) : State :=
  { s with flows := s.flows.map fun (f : FlowEnd) =>
      if f.bezel == bezel && f.repeat_ && (frMirror f.record).toNat ≤ va.toNat &&
          va.toNat < (frMirror f.record).toNat + 256 + 520 * frWin f.record then { f with spoiled := true } else f }

/-- A store into a block that holds a sector has taken effect: the sector takes the tag of the mapping's owner where it had none
(R353), the storing core's leases on it end (R225), and the predictions of a mirror area there are undefined (R244). -/
def State.blockStored (s : State) (bezel core sid blk : Nat) : State :=
  match (s.team? sid).bind fun t => t.mapped.find? fun m => m.off == 256 * blk with
  | none => s
  | some m =>
    let c := s.sidecar m.sector
    let s1 := (s.spoilMirrors bezel m.va).dropLeases core [m.sector]
    if c.owner = 0 && m.owner ≠ 0 then s1.setSidecar m.sector { c with owner := m.owner, epoch := s.epochOf m.owner } else s1

/-- A dirty mapped block written back to its sector; it stays filled (R166). -/
def State.writeBack (s : State) (sid off : Nat) : State :=
  match s.team? sid with
  | none => s
  | some t =>
    match t.mapped.find? fun m => m.off == off with
    | none => s
    | some m =>
      (s.storeBlock t m).modTeam sid fun t =>
        { t with mapped := t.mapped.map fun x => if x.off == off then { x with dirty := false } else x }

/-- A mapped block recalled (R166): committed contents written back, block unfilled, unmapped when asked. -/
def State.recall (s : State) (sid off : Nat) (unmap : Bool) : State :=
  match s.team? sid with
  | none => s
  | some t =>
    match t.mapped.find? fun m => m.off == off with
    | none => s
    | some m =>
      (s.storeBlock t m).modTeam sid fun t =>
        { t with bad := t.bad.filter fun b => b != off / 256,
                 mapped := if unmap then t.mapped.filter fun x => x.off != off
                           else t.mapped.map fun x => if x.off == off then { x with filled := false, dirty := false } else x }

/-- A team's dirty mapped blocks written back and unmapped (R166). -/
def State.unmapAll (s : State) (sid : Nat) : State :=
  match s.team? sid with
  | none => s
  | some t => t.mapped.foldl (fun s m => s.recall sid m.off true) s

/-- The flow ends of a kernel closed as if by `fclose` at its end (R245): receive ends go at once; `drop`: the commands of
send ends have stopped at their units. -/
def State.closeFlows (s : State) (b slot : Nat) (drop : Bool) : State :=
  let s := (s.flows.filter fun f => f.bezel == b && f.kslot == slot && f.isRecv).foldl State.closeMirror s
  { s with flows := s.flows.filterMap fun (f : FlowEnd) =>
      if f.bezel == b && f.kslot == slot then
        if f.isRecv then none
        else some { f with st := .closing, queue := if drop then [] else f.queue, cur := if drop then none else f.cur }
      else some f }

/-- A team that no longer runs: every group EXITED, current tasks discarded (R82). -/
def State.haltTeam (s : State) (t : Team) : State :=
  let refs := (List.range t.groups.length).map fun i => ({ team := t.sid, grp := i } : GRef)
  let s1 := (refs.foldl (fun s r => s.discardTask r) s).unmapAll t.sid
  s1.modTeam t.sid fun t =>
    { t with ended := true, ctx := .retired, requests := [], rings := [],
             groups := t.groups.map fun g => { g with life := .exited, inSet := false, clause := none, wait := .none,
                                                      ops := [], mq := [], alive := false, blive := false, pend := none, deferredTrap := none },
             shadows := t.shadows.map fun g => { g with life := .exited, inSet := false, clause := none, wait := .none,
                                                        ops := [], alive := false, blive := false } }

/-- A kernel stops (R82): resident and saved teams end, no further team is placed, its engine commands stop at their
units. `err` is the recorded error, 0 for `kcancel`. -/
def State.stopKernel (s : State) (b slot err : Nat) (cancel : Bool) : State :=
  match s.kernel? b slot with
  | none => s
  | some k =>
    let ts := s.teams.filter fun t => t.bezel == b && t.kslot == slot && t.kseq == k.seq && !t.ended
    let s1 := ts.foldl (fun s t => s.haltTeam t) s
    let mine := fun (i : Issuer) => i.bezel == b && i.kslot == slot
    let s2 := { s1 with cmds := s1.cmds.filter fun c => !mine c.by_,
                        pvCmds := s1.pvCmds.filter fun c => !mine c.by_,
                        engines := s1.engines.map fun (e : PvEngine) =>
                          if e.cur.any fun i => s1.pvCmds.any fun c => c.id == i && mine c.by_ then
                            { chan := e.chan, st := if e.st == PvState.fenced then PvState.fenced else PvState.idle, lastErr := e.lastErr, completed := e.completed }
                          else e }
    let s3 := (s2.closeFlows b slot true).modBezel b fun x => x.leaveQueue slot
    State.settleBezel (b := b) <| s3.modKernel b slot fun k =>
      { k with st := .draining, err := if k.err = 0 then err else k.err,
               cancel := k.cancel || cancel, requeued := [], nextTid := recTeams k.record }

/-- A team is terminated by an error, which ends its kernel (R82); the Locket records it. -/
def State.terminate (s : State) (r : GRef) (err : Nat) (code : Nat) (arg : W64) : State :=
  match s.team? r.team with
  | none => s
  | some t => (s.stopKernel t.bezel t.kslot err false).locket (t.core / 64) 1 code (handleOf t.bezel t.kslot t.kseq) arg

/-! ### Signatures (R98, R288) -/

/-- One bit of the CRC-64 of R98, most significant bit first. -/
def crc64Step (c : W64) (bit : Bool) : W64 :=
  let top := c.getLsbD 63
  if top != bit then (c <<< 1) ^^^ 0x42F0E1EBA9EA3693 else c <<< 1

/-- One byte of the CRC-64. -/
def crc64Byte (c : W64) (b : Byte) : W64 :=
  [7, 6, 5, 4, 3, 2, 1, 0].foldl (fun c i => crc64Step c (b.getLsbD i)) c

/-- Bytes appended to a signature. -/
def crc64 (c : W64) (l : List Byte) : W64 := l.foldl crc64Byte c

/-- A class-b instruction with lane addresses appended to the signatures (R98, R288). -/
def Group.signLanes (g : Group) (em : W32) (addr : Nat → W64) (data : Nat → List Byte) : Group :=
  let item := fun i => leBytes (addr i).toNat 8 ++ data i
  { g with sig := crc64 g.sig ((lanesOf em).flatMap item ++ leBytes em.toNat 4),
           laneSig := Vector.ofFn fun i => if em.getLsbD i.val then crc64 g.laneSig[i.val] (item i.val) else g.laneSig[i.val] }

/-- A class-b instruction without lane addresses: its scalar operands are appended (R98). -/
def Group.signScalars (g : Group) (l : List W64) : Group :=
  { g with sig := crc64 g.sig (l.flatMap fun x => leBytes x.toNat 8) }

/-- The data of some lanes of a class-b instruction without lane addresses, in the lane signatures (R288). -/
def Group.signData (g : Group) (lanes : W32) (data : Nat → List Byte) : Group :=
  { g with laneSig := Vector.ofFn fun i => if lanes.getLsbD i.val then crc64 g.laneSig[i.val] (data i.val) else g.laneSig[i.val] }

/-! ### Delivery of deferred instructions (R287 step 3) -/

/-- A switch-table replica from an image (R276); `none` when VALID is clear. -/
def replicaOf (expert k : Nat) (l : List Byte) : Option Replica :=
  let hi := dword l 8
  if hi.getLsbD 15 then some { expert := expert, k := k, die := bits hi.toNat 14 13, device := bits hi.toNat 12 0, ctr := dword l 0 }
  else none

/-- An outbound message is written to its slot and waits for CXL.cache, or is dropped (R72). While earlier messages wait for
CXL.cache, PHASE stands for the number it has once they have arrived (log entry 52). -/
def State.deliverMbsend (s : State) (b : Bezel) (o : Obj) (body : List Byte) (tag : W32) (irq : Bool) (r : GRef) (op : Nat) : State :=
  let ph := s.objPhase o
  let inFlight := (s.host.outbound.filter fun p => (s.homeOf p.1).place == o.place).length
  let ph' := ph + BitVec.ofNat 32 inFlight
  if !s.mbDir o || !s.mbEnable o || ph' - s.mbHead o = 256 then s.mbReject o
  else match s.mbSlot b o (ph'.toNat % 256) with
    | none => s.mbReject o
    | some pa =>
      let s1 := (s.drainSector (pa / 256)).homeWrite pa (body ++ leBytes tag.toNat 4 ++ leBytes (ph' + 1).toNat 4) 0
      { s1 with host := { s1.host with outbound := s1.host.outbound ++ [(o, ph' + 1, irq, r, op)] } }

/-- The ring index of a team, changed. -/
def Team.modRing (t : Team) (n : Nat) (f : Ring → Ring) : Team :=
  { t with rings := t.rings.map fun r => if r.n == n then f r else r }

/-- A ring of a team. -/
def Team.ring? (t : Team) (n : Nat) : Option Ring := t.rings.find? (fun r => r.n == n)

/-- Fabric address of a byte as a launch sees it, 0 when the translation stops: for addresses that have passed the checks of
an access. -/
def State.paOf (s : State) (b : Bezel) (core key va : Nat) : Nat :=
  match s.translate b core key .load va with
  | .ok pa _ _ => pa
  | _ => 0

/-- A `tcopy` of a team on a ring is outstanding (R270). -/
def State.ringBusy (s : State) (sid n : Nat) : Bool :=
  s.cmds.any fun c => c.by_.g.team == sid && (match c.what with | .tcopy _ r _ _ => r == n | _ => false)

/-- A ring that waits to close closes once no `tcopy` on it is outstanding (R270). -/
def State.closeRing (s : State) (sid n : Nat) : State :=
  match (s.team? sid).bind fun t => t.ring? n with
  | none => s
  | some ring =>
    if ring.closing.isEmpty || s.ringBusy sid n then s
    else ring.closing.foldl (fun s x => s.modGroup x.1 fun g => g.dropOp x.2)
      (s.modTeam sid fun t => { t with rings := t.rings.filter fun x => x.n != n })

/-- The ring that a record opens (R267). `pas`: the fabric address of each sector of BUF. -/
def ringOf (record : List Byte) (n : Nat) (ctrl : Obj) (pas : List Nat) : Ring :=
  let d0 := (dword record 0).toNat
  { n := n, buf := dword record 8, bufPa := pas, ctrl := ctrl, peers := dword record 16, scope := bits d0 50 48,
    ranks := bits d0 43 32 + 1, rank := bits d0 27 16, mode := d0.testBit 8, depth := bits d0 7 0 + 1 }

/-- `cring` delivered (R270): `kind` 0 opens a ring from its record, 1 releases lines, 2 closes the ring. `ctrl`: CTRL's object, and
`pas` the fabric address of each sector of BUF, as translated at the issue. -/
def State.deliverCring (s : State) (r : GRef) (core : Nat) (kind n : Nat) (arg : W64) (record : List Byte) (ctrl : Obj)
    (pas : List Nat) (op : Nat) : State :=
  match s.team? r.team with
  | none => s
  | some t =>
    if kind = 0 then
      let ctrl := s.homeOf ctrl
      let depth := bits (dword record 0).toNat 7 0 + 1
      let ring := ringOf record n ctrl pas
      let s1 := (s.atHome ctrl).objWrite ctrl 0 (leBytes 0 12 ++ leBytes (depth - 1) 4 ++ leBytes ring.scope 1 ++ List.replicate 14 0 ++ leBytes 3 1)
      let s2 := pas.foldl (fun s pa =>
        let s := s.drainSector (pa / 256)
        s.setSidecar (pa / 256) { s.sidecar (pa / 256) with rseq := 0 }) s1
      (s2.modTeam r.team fun t => { t with rings := (t.rings.filter fun x => x.n != n) ++ [ring] }).modGroup r fun g => g.dropOp op
    else match t.ring? n with
      | none => s.modGroup r fun g => g.dropOp op
      | some ring =>
        if kind = 1 then
          let s := s.publish r core ring.scope
          let ctrl := s.homeOf ring.ctrl
          let rel := max (s.objW ctrl 4).toNat (min (arg.toNat % 2 ^ 32) (s.objPhase ctrl).toNat)
          (s.objWrite ctrl 4 (leBytes rel 4)).modGroup r fun g => g.dropOp op
        else
          let s1 := s.modTeam r.team fun t => t.modRing n fun x => { x with closing := x.closing ++ [(r, op)] }
          (s1.modGroup r fun g => { g with ops := g.ops.map fun o => if o.id == op then { o with what := .event } else o }).closeRing r.team n

/-- `xtable` delivered (R277): each named expert's entry is replaced by that of the image and its load values become 0. -/
def State.deliverXtable (s : State) (b : Bezel) (image : List Byte) (hdr : W64) : State :=
  let first := bits hdr.toNat 11 0
  let count := bits hdr.toNat 27 16 + 1
  let new := (List.range count).flatMap fun i =>
    (List.range 4).filterMap fun k =>
      replicaOf (first + i) k (slice image (64 * i + 16 * k) 16)
  s.modBezel b.num fun x =>
    { x with switch := (x.switch.filter fun e => !(first ≤ e.expert && e.expert < first + count)) ++ new }

/-- A flow end by number. -/
def State.flow? (s : State) (n : Nat) : Option FlowEnd := s.flows.find? (fun f => f.num == n)

/-- The state with a flow end changed. -/
def State.modFlow (s : State) (n : Nat) (f : FlowEnd → FlowEnd) : State :=
  { s with flows := s.flows.map fun e => if e.num == n then f e else e }

/-- The flow end of a number, where the launch of a handle opened it. -/
def State.flowOf (s : State) (n : Nat) (handle : W64) : Option FlowEnd := (s.flow? n).filter fun f => f.handle == handle

/-- `fclose` delivered (R262): a receive end frees its number at once, a send end closes after its commands; an end that is closed
already takes no effect. -/
def State.deliverFclose (s : State) (flow : Nat) (handle : W64) (r : GRef) (op : Nat) : State :=
  match s.flowOf flow handle with
  | none => s.modGroup r fun g => g.dropOp op
  | some f =>
    if f.isRecv then
      let s := s.closeMirror f
      ({ (s.modKernel f.bezel f.kslot fun k => { k with closed := f.num :: k.closed }) with flows := s.flows.filter fun e => e.num != flow }).modGroup r fun g => g.dropOp op
    else
      let s1 := s.modFlow flow fun f => { f.setWork .closing with closeOps := f.closeOps ++ [(r, op)] }
      s1.modGroup r fun g => { g with ops := g.ops.map fun o => if o.id == op then { o with what := .event } else o }

/-- `wrlane` delivered (R111): the lanes of the register and, where the register is in the live set of the target's
current checkpoint, of the checkpoint. The registers of the target's shadow stay as they are (log entry 51). -/
def Group.takeWrlane (g : Group) (n : Nat) (mask : W32) (l : Lanes) : Group :=
  if n < g.v.length && g.life != .exited then
    let put := fun (r : VReg) => ({ tag := .g, l := Lanes.merge mask l r.l, bad := r.bad &&& ~~~ mask } : VReg)
    let ck := fun (c : Ckpt) => { c with vec := c.vec.map fun p => if p.1 == n then (n, put p.2) else p }
    let g1 := { g with v := modAt g.v n put }
    if g.ckCur then { g1 with ck1 := ck g.ck1 } else { g1 with ck0 := ck g.ck0 }
  else g

/-- An operation that completes with an event of its own from now on. -/
def Group.opEvent (g : Group) (op : Nat) : Group :=
  { g with ops := g.ops.map fun o => if o.id == op then { o with what := .event } else o }

/-- The object on which a deferred instruction acts, with its operation. -/
def State.deferObj (s : State) (r : GRef) : Deferred → Option (Obj × Nat)
  | .binit o _ _ op => some (o, op)
  | .mbsend o _ _ _ op => some (o, op)
  | .cring k n _ _ ctrl _ op =>
    if k = 0 then some (ctrl, op)
    else if k = 1 then ((s.team? r.team).bind fun t => t.ring? n).map fun x => (x.ctrl, op)
    else none
  | _ => none

/-- One deferred instruction delivered where its object takes it. -/
def State.deliverNow (s : State) (r : GRef) (b : Bezel) (core : Nat) (d : Deferred) : State :=
  match d with
  | .binit o e sc op => (s.initBarrier (s.homeOf o) e sc).modGroup r fun g => g.dropOp op
  | .wrlane grp n m l op =>
    (s.modGroup { team := r.team, grp := grp } fun g => g.takeWrlane n m l).modGroup r fun g => g.dropOp op
  | .mbsend o body tag irq op =>
    let s1 := (s.publish r core 3).deliverMbsend b (s.homeOf o) body tag irq r op
    if s1.host.outbound.length = s.host.outbound.length then s1.modGroup r fun g => g.dropOp op
    else s1.modGroup r fun g => g.opEvent op
  | .cring k n arg rec_ ctrl pas op => s.deliverCring r core k n arg rec_ ctrl pas op
  | .xtable im h op => (s.deliverXtable b im h).modGroup r fun g => g.dropOp op
  | .freseed f h op =>
    (match s.flowOf f h with
    | none => s.modGroup r fun g => g.dropOp op
    | some _ =>
      (s.modFlow f fun e =>
        let re := fun (x : FState) => if x == .opened || x == .desync then FState.reseeding else x
        { e with queue := e.queue ++ [.reseed op r], st := re e.st, held := re e.held }).modGroup r fun g => g.opEvent op)
  | .fclose f h op => s.deliverFclose f h r op
  | .locketw code a bb op => (s.locket (core / 64) 8 code.toNat a bb).modGroup r fun g => g.dropOp op

/-- One deferred instruction delivered (R287 step 3); one whose object lies in a MIGRATING page waits for the `tlbinv` that ends
the migration (R316). -/
def State.deliver (s : State) (r : GRef) (b : Bezel) (core : Nat) (d : Deferred) : State :=
  match s.deferObj r d with
  | some (o, op) =>
    if s.objMoving (s.homeOf o) then
      { s.modGroup r fun g => g.opEvent op with heldOps := s.heldOps ++ [.deliver r b.num core d] }
    else s.deliverNow r b core d
  | none => s.deliverNow r b core d

/-! ### Stores taking effect -/

/-- A device store to the fields of a mailbox object (R64, R65): `o` the object, `at_` the byte offset, `l` the bytes. HEAD
and OVERRUN, which R65 does not name, take their write whatever ENABLE holds (log entry 52), but for the store that clears ENABLE,
which is accepted for ENABLE alone; a store that would enable an inbound mailbox over a ring that is not open is discarded whole. -/
def State.mailboxStore (s : State) (b : Bezel) (o : Obj) (at_ : Nat) (l : List Byte) (handle : W64) : State :=
  let old := s.objBytes o 32
  let byte := fun i => if at_ ≤ i && i < at_ + l.length then l[i - at_]?.getD 0 else old[i]?.getD 0
  let covers := fun i => at_ ≤ i && i < at_ + l.length
  let f := byte 20
  let flags := old[20]?.getD 0
  let w1c : Byte := if covers 20 && f.getLsbD 2 then 0 else flags &&& 4
  let rej := fun (s : State) => s.locket o.die 9 0x0500 handle o.va
  let head := fun (s : State) => if (List.range 4).any fun i => covers (4 + i) then
      s.objWrite o 4 ((List.range 4).map fun i => byte (4 + i)) else s
  let setFlags := fun (s : State) (x : Byte) => if covers 20 then s.objWrite o 20 [(x &&& 0x0B) ||| w1c] else s
  if s.mbEnable o then
    if covers 20 && !f.getLsbD 3 then s.objWrite o 20 [flags &&& 0x07]
    else
      let s1 := setFlags (head s) flags
      if (List.range 32).any fun i => covers i && (i == 20 || i == 22 || i == 23 || 24 ≤ i) then rej s1 else s1
  else
    let ring := leNat ((List.range 8).map fun i => byte (24 + i))
    let pageOk := [0, 16383].all fun i =>
      let va := ring + i
      decide (va < 2 ^ 57) && !isWindow (BitVec.ofNat 64 va) && (match s.walk b va with
      | .leaf lf => leafKind lf.raw == 2 && leafW lf.raw && leafOwner lf.raw == 0
      | _ => false)
    if covers 20 && f.getLsbD 3 && !f.getLsbD 0 && !pageOk then rej s
    else
      let s1 := (head s).objWrite o 22 ((List.range 10).map fun i => byte (22 + i))
      setFlags s1 f

/-- A store as it goes to its home: its place, the address that the program used, the owner and SYNC of its translation, its
bytes, and the step of its instruction (R221, R353). -/
structure Access where
  pa : Nat
  va : W64 := 0
  owner : Nat := 0
  sync : Bool := false
  instr : Nat := 0
  data : List Byte
deriving DecidableEq, Repr

/-- The accesses of held bytes: consecutive bytes of one lane of one store instruction are one access (R216, R217). -/
def joinHeld : List HeldByte → List Access
  | [] => []
  | h :: hs =>
    let one : Access := { pa := h.pa, va := h.va, owner := h.owner, sync := h.sync, instr := h.instr, data := [h.val] }
    match joinHeld hs, hs with
    | a :: r, n :: _ =>
      if n.instr == h.instr && n.lane == h.lane && a.pa == h.pa + 1 && a.owner == h.owner && a.pa % 8 != 0 then
        { a with pa := h.pa, va := h.va, data := h.val :: a.data } :: r
      else one :: a :: r
    | r, _ => one :: r

/-- A sector of an ordinary page that a task's stores cover whole is stored as one, so that its POISON is cleared (R361). -/
def wholeStores (held : List HeldByte) (l : List Access) : List Access :=
  let of := fun (n : Nat) => held.filter fun h => h.pa / 256 == n
  let secs := ((held.filter fun h => !h.sync).map (·.pa / 256)).eraseDups.filter fun n =>
    256 ≤ (of n).length && ((of n).map (·.pa)).eraseDups.length == 256
  secs.foldl (fun l n => match (of n).getLast? with
    | none => l
    | some h => (l.filter fun a => a.pa / 256 != n) ++
        [{ pa := 256 * n, va := h.va / 256 * 256, owner := h.owner, instr := h.instr,
           data := (List.range 256).map fun i => (((of n).reverse.find? fun x => x.pa == 256 * n + i).map (·.val)).getD 0 }]) l

/-- Bytes reach this module's memory by an agent's write: earlier commits to the sectors come first, another stash's mapped
block is recalled (R166, R221). -/
def State.landHome (s : State) (pa : Nat) (l : List Byte) (owner : Nat) (page : Option Bool) : State :=
  let s1 := s.drainSector (pa / 256)
  let s2 := match s1.mappedBlock (pa / 256) with
    | some (sid, m) => s1.recall sid m.off false
    | none => s1
  (s2.homeWrite pa l owner page).noteLate 0 pa l.length

/-- One committed store takes its way (R217, R221): to a mailbox object and to a sector that a block maps at once, to other memory
of this module among the stores in flight (R231), to another device as a posted store (R232). A channel that the bezel has released
since the translation takes none (R317). -/
def State.storeEffect (s : State) (r : GRef) (t : Team) (handle : W64) (x : Access) : State :=
  let p : Posted :=
   { src := { r with sh := false }, kernel := (t.bezel, t.kslot), core := t.core, instr := x.instr, cells := cellsAt x.pa x.data,
     owner := x.owner, sync := x.sync }
  let s := s.spoilMirrors t.bezel x.va
  if s.closedTo t.bezel x.pa then s
  else if x.pa / 2 ^ 43 ≠ s.devId then { s with posted := s.posted ++ [p] }
  else match s.mailboxAt x.pa with
    | some (b, o, at_) => s.mailboxStore b o at_ x.data handle
    | none =>
      if (s.mappedBlock (x.pa / 256)).isSome then
        (s.landHome x.pa x.data x.owner (some x.sync)).dropLeases t.core [x.pa / 256]
      else { s with posted := s.posted ++ [p] }

/-! ### Checkpoints and commit -/

/-- The recipe entry bytes: RECOMPUTE, VLIST, SLIVE (R282). -/
def recipeVlist (e : List Byte) : List Nat := ((slice e 8 8).map (·.toNat)).filter (· < 192)
/-- The live scalars of an entry. -/
def recipeSlive (e : List Byte) : List Nat := (List.range 32).filter fun n => (dword e 16).getLsbD n

/-- A register that a checkpoint takes, or its control state, has failed (R361). -/
def Group.ckptBad (g : Group) (scal : List Nat) (vec : List Nat) : Bool :=
  (g.sbad != 0 && (30 :: 31 :: scal).any fun n => g.sbad.getLsbD n) || vec.any fun n => (g.v[n]?.getD {}).bad != 0

/-- The checkpoint of a group's current state for a recipe entry (R283). -/
def Group.checkpoint (g : Group) (entry : List Byte) (full : Bool) (resume : Pc) (sl : Slot) : Ckpt :=
  { scal := if full then (List.range 32).map fun n => (n, g.sreg n) else (recipeSlive entry).map fun n => (n, g.sreg n),
    vec := if full then (List.range g.v.length).map fun n => (n, g.v[n]?.getD {})
           else (recipeVlist entry).map fun n => (n, g.v[n]?.getD {}),
    pcA := if sl == .a then resume else g.pcA, pcB := if sl == .b then resume else g.pcB,
    s30 := g.sreg 30, s31 := g.sreg 31, dsp := g.dsp, gmode := g.gmode, latch := g.latch, blive := g.blive,
    bjoin := g.bjoin, ajoin := g.ajoin, masked := g.masked, exited := g.exited, mbat := g.mbat, cbat := g.cbat, taskSeq := g.taskSeq,
    recipe := g.recipe, bound := g.bound, explicit := g.explicit, alloc := g.v.length, tiles := g.t.length,
    recompute := (dword entry 0).setWidth 57, full := full, entry := entry,
    cutM := g.clause.any fun (c : Clause) => c.issuedM, cutC := g.clause.any fun (c : Clause) => c.issuedC,
    lastCopy := g.lastCopyBatch,
    bad := g.ckptBad (if full then List.range 32 else recipeSlive entry) (if full then List.range g.v.length else recipeVlist entry) }

/-- The current checkpoint (R283). -/
def Group.ckpt (g : Group) : Ckpt := if g.ckCur then g.ck1 else g.ck0

/-- The new checkpoint in the other half, named current (R287 step 4). -/
def Group.setCkpt (g : Group) (c : Ckpt) : Group :=
  if g.ckCur then { g with ck0 := c, ckCur := false } else { g with ck1 := c, ckCur := true }

/-- Bytes 124 and 125 of a checkpoint: the tag of the register of VLIST entry `m` at bits [2m+1:2m] (R283). -/
def Ckpt.tagBits (c : Ckpt) : Nat :=
  let code := fun (t : Tag) => match t with | .u => 0 | .a => 1 | .g => 2
  ((List.range 8).map fun m => match c.vec.find? fun p => (slice c.entry (8 + m) 1) == [BitVec.ofNat 8 p.1] with
    | some p => code p.2.tag * 4 ^ m
    | none => 0).foldl (· + ·) 0

/-- The 256-byte sector of a checkpoint as R283 lays it out. -/
def Ckpt.sector (c : Ckpt) : List Byte :=
  let pcw := fun (p : Pc) => leBytes (p.hdr.toNat + p.idx * 2 ^ 60) 8
  let bit := fun (b : Bool) => if b then 1 else 0
  ((c.scal.flatMap fun (p : Nat × W64) => leBytes p.2.toNat 8) ++ List.replicate 64 0).take 64 ++ pcw c.pcA ++ pcw c.pcB
    ++ leBytes c.s30.toNat 8 ++ leBytes c.s31.toNat 8 ++ leBytes c.dsp.toNat 4 ++ leBytes c.gmode.toNat 2
    ++ [match c.latch with | some x => x | none => 0xFF]
    ++ leBytes (bit c.blive + 2 * bit c.bjoin + 4 * bit c.masked) 1 ++ leBytes c.exited.toNat 4
    ++ leBytes c.mbat.toNat 4 ++ leBytes c.cbat.toNat 4 ++ leBytes c.taskSeq.toNat 4 ++ [c.recipe] ++ leBytes c.bound 1
    ++ leBytes (c.alloc / 8) 1 ++ leBytes c.tiles 1
    ++ leBytes c.tagBits 2 ++ List.replicate 130 0

/-- The bytes of a register in a checkpoint line (R114, R283). -/
def VReg.packed (r : VReg) : List Byte :=
  match r.tag with
  | .u => leBytes (r.l.lane 0).toNat 4
  | .a => leBytes (r.l.lane 0).toNat 4 ++ leBytes (r.l.lane 1 - r.l.lane 0).toNat 4
  | .g => (List.range 32).flatMap fun i => leBytes (r.l.lane i).toNat 4

/-- The 1,024-byte line of a checkpoint (R283). -/
def Ckpt.line (c : Ckpt) : List Byte := ((c.vec.flatMap fun (p : Nat × VReg) => p.2.packed) ++ List.replicate 1024 0).take 1024

/-- The kernel takes full checkpoints (R290). -/
def fullCkpt (record : List Byte) : Bool := recShadow record && recRecipes record == 0

/-- Signatures of a group at a commit: the checkpointed registers are appended in register order (R98, R288): vector registers before
scalars, and every lane of a vector register whatever its tag (log entry 50). -/
def Group.signCkpt (g : Group) (entry : List Byte) (full : Bool) : Group :=
  let vs := (if full then List.range g.v.length else (List.range 192).filter fun n => (recipeVlist entry).contains n)
  let ss := if full then List.range 32 else recipeSlive entry
  let sig := crc64 g.sig (vs.flatMap (fun n => (List.range 32).flatMap fun i => leBytes ((g.v[n]?.getD {}).l.lane i).toNat 4)
    ++ ss.flatMap fun n => leBytes (g.sreg n).toNat 8)
  { g with sig := sig,
           laneSig := Vector.ofFn fun i => crc64 g.laneSig[i.val] (vs.flatMap fun n => leBytes ((g.v[n]?.getD {}).l.lane i.val).toNat 4) }

/-- The group's next instruction is a `tret` in its handler, whose commit is no boundary of R222 (R281, R295). -/
def Group.atTret (g : Group) : Bool :=
  g.mode == .handler && g.clause.any fun (c : Clause) => (c.words[c.idx]?.getD 0).extractLsb' 24 8 == 0xD2

/-- The group after its version is released and the new checkpoint written (R287 steps 3 and 4, R196, R123). TASKSEQ rises, but
at the commit of a `tret` (R281). -/
def Group.afterCommit (g : Group) (entry : List Byte) (full : Bool) (resume : Pc) (sl : Slot) (vbound : Nat)
    (rewind : Bool) : Group :=
  let g1 := { g with ver := { allocStart := g.v.length, tilesStart := g.t.length }, t := g.t.map Tile.flip,
                     taskSeq := if g.atTret then g.taskSeq else g.taskSeq + 1, bound := vbound, explicit := false, sig := -1,
                     laneSig := Vector.ofFn fun _ => -1, diff1 := none, killed1 := false, entry := entry, nextEntry := none }
  if rewind then g1.setCkpt (g1.checkpoint entry full resume sl) else g1

/-- Recipe entry 0 as `launch` read it (R85, R281). -/
def Kernel.entry0 (k : Kernel) : List Byte := slice k.recipe0 8 32

/-- The recipe entry of the task that a boundary begins: the one its `task` has read; else under recipe 0 the copy of
`launch`, and otherwise the entry in force (R281, R286). -/
def Group.boundaryEntry (g : Group) (k : Kernel) : List Byte :=
  g.nextEntry.getD (if g.recipe = 0 then k.entry0 else g.entry)

/-- A held store of the group, or a held `binit`, lies in a stash block that another group's open task holds: its recall
or its access waits (R166, R224). -/
def State.commitHeldUp (s : State) (r : GRef) (g : Group) : Bool :=
  (g.ver.held.any fun h => match s.mappedBlock (h.pa / 256) with
    | some (sid, m) => (match s.team? sid with | some t => t.blockHeld r (m.off / 256) | none => false)
    | none => false) ||
  (g.ver.deferred.any fun d => match d with
    | .binit (.stash sid off _) _ _ _ => (match s.team? sid with | some t => t.blockHeld r (off / 256) | none => false)
    | _ => false)

/-- Step 1 of R287: every class-a operation of the task has returned, and its tile instructions have left the queue, among
which the entry of a `coll` does not count (log entry 63). -/
def Group.drained (g : Group) : Bool :=
  (g.ops.all fun o => !(o.classA && o.task == g.taskSeq)) &&
  (g.mq.all fun m => m.task != g.taskSeq || (match m.what with | .coll _ _ => true | _ => false))

/-- The stash bytes that a group's task has changed are stored at its commit (R234). -/
def State.noteUndo (s : State) (r : GRef) : State :=
  s.teams.foldl (fun s (t : Team) => (t.undo.filter fun u => u.owner == r).foldl (fun s (u : Undo) =>
    (List.range 256).foldl (fun s i =>
      if u.old[i]?.getD 0 != memByte t.stash (256 * u.blk + i) then s.noteLate (t.sid + 1) (256 * u.blk + i) 1 else s) s) s) s

/-- Steps 3 and 4 of R287 for one group; a handler's task writes no checkpoint (R292). The stores take effect in program order, then deferred instructions are
delivered in program order. `entry`: the recipe entry of the new task; `resume` its resume point. -/
def State.release (s : State) (r : GRef) (entry : List Byte) (resume : Pc) (sl : Slot) : State :=
  match s.team? r.team, s.group? r with
  | some t, some g =>
    match s.bezel? t.bezel, s.kernel? t.bezel t.kslot with
    | some b, some k =>
      let h := handleOf t.bezel t.kslot t.kseq
      let s1 := (wholeStores g.ver.held (joinHeld g.ver.held)).foldl (fun s x => s.storeEffect r t h x) (s.noteUndo r)
      let s2 := g.ver.deferred.foldl (fun s d => s.deliver r b t.core d) s1
      let stored := s2.teams.flatMap fun (x : Team) => (x.undo.filter fun u => u.owner == r).map fun u => (x.sid, u.blk)
      let s2 := stored.foldl (fun s (x : Nat × Nat) => s.blockStored b.num t.core x.1 x.2) s2
      let s3 := { s2 with teams := s2.teams.map fun (t : Team) => t.settleUndo r false,
                          acts := s2.acts.map fun (a : Activity) => if a.task == some (r, g.taskSeq) then { a with task := none } else a }
      s3.modGroup r fun g => g.afterCommit entry (fullCkpt k.record) resume sl (recVbound k.record)
        ((recRecipes k.record != 0 || recShadow k.record) && g.mode == .normal)
    | _, _ => s
  | _, _ => s

end Sys2Proof.Machine
end

