-- ==== Sys2Proof/Machine/Ops.lean ====
section
/-! DEFINITION. What every instruction shares: the order of checks (R60), the end of an instruction and of a clause,
class-a and class-b operations (R51 to R53, R97), the commit before a task-ending instruction (R222, R287), taking a
trap (R292, R293) and the flashback that returns from one (R290). -/

namespace Sys2Proof.Machine

open Sys2Proof

/-! ### Trap codes (R291) -/

/-- ILLOP. -/
abbrev ILLOP : Nat := 1
/-- ILLCLAUSE. -/
abbrev ILLCLAUSE : Nat := 2
/-- ILLOPERAND. -/
abbrev ILLOPERAND : Nat := 3
/-- PRIV. -/
abbrev PRIV : Nat := 4
/-- ALIGN. -/
abbrev ALIGN : Nat := 5
/-- PROT. -/
abbrev PROT : Nat := 6
/-- RANK. -/
abbrev RANK : Nat := 7
/-- TASKBOUND. -/
abbrev TASKBOUND : Nat := 8
/-- SWTRAP. -/
abbrev SWTRAP : Nat := 9

/-- How an instruction does not complete at this issue. -/
inductive Stop where
  | trap (code : Nat) (addr : W64 := 0) (sw : BitVec 16 := 0)   -- no effect, and the trap is taken (R60)
  | wait (w : Wait) (s : State)                                -- it issues again, or completes by an event
  | done (s : State)                                           -- the instruction ends here and the group does not advance
deriving DecidableEq, Repr

/-- Result of an instruction's own effect. -/
abbrev Res := Except Stop State

/-! ### Preloads (R89, R90) -/

/-- The preloaded scalars of group `n` of a team. -/
def preScalars (k : Kernel) (tid n : Nat) : List (Nat × W64) :=
  let r := k.record
  let x := tid % recGridX r
  let y := tid / recGridX r % recGridY r
  let z := tid / recGridX r / recGridY r
  let role := roleOf r n
  let vals : List W64 :=
    [BitVec.ofNat 64 x, BitVec.ofNat 64 y, BitVec.ofNat 64 z, BitVec.ofNat 64 (teamRank r tid),
     BitVec.ofNat 64 (role.1 * 256 + role.2),
     BitVec.ofNat 64 (recGridX r + recGridY r * 2 ^ 21 + recGridZ r * 2 ^ 42), k.recAddr, recArgs r]
  (List.range 8).filterMap fun i => if (recPreload r).getLsbD i then some (i, vals[i]?.getD 0) else none

/-- The preloaded v0 of group `n` of a team. -/
def preV0 (k : Kernel) (tid n : Nat) : Option VReg :=
  if (recPreload k.record).getLsbD 8 then
    some { tag := .a, l := Lanes.affine (BitVec.ofNat 32 ((tid * recGroups k.record + n) * 32)) 1 }
  else none

/-! ### Flashback (R290) -/

/-- Step 3 of R290 on the group: registers, control state and allocation from the current checkpoint; every other
register 0 with tag U, preloaded registers outside the live set preloaded again. -/
def Group.restore (g : Group) (k : Kernel) (tid : Nat) : Group :=
  let c := g.ckpt
  let pre := preScalars k tid g.num
  let sval := fun n =>
    if n = 30 then c.s30 else if n = 31 then c.s31
    else match c.scal.find? (fun p => p.1 == n) with
      | some p => p.2
      | none => match pre.find? (fun p => p.1 == n) with
        | some p => p.2
        | none => 0
  let vval := fun n =>
    match c.vec.find? (fun p => p.1 == n) with
    | some p => p.2
    | none => if n = 0 then (preV0 k tid g.num).getD {} else {}
  { g with s := Vector.ofFn fun i => sval i.val, v := (List.range c.alloc).map vval, t := (List.range c.tiles).map fun i => g.t[i]?.getD {},
           ver := { g.ver with allocStart := c.alloc, tilesStart := c.tiles }, sbad := 0,
           o := Vector.ofFn fun _ => {},
           pcA := { c.pcA with resume := true }, pcB := { c.pcB with resume := true }, dsp := c.dsp, gmode := c.gmode, latch := c.latch, blive := c.blive,
           bjoin := c.bjoin, ajoin := c.ajoin, masked := c.masked, exited := c.exited, mbat := c.mbat, lastBatch := c.mbat,
           lastCopyBatch := c.lastCopy, copies := g.copies.map fun (p : Nat × Option Nat) =>
             (p.1, match p.2 with | some n => if c.lastCopy.toNat < n then none else some n | none => none),
           entry := c.entry, nextEntry := none, cutM := c.cutM, cutC := c.cutC, taskSeq := c.taskSeq, recipe := c.recipe, bound := c.bound, explicit := c.explicit,
           clause := none, wait := .none, bnd := .idle, bndHere := false, alive := true, sig := -1,
           laneSig := Vector.ofFn fun _ => -1, lvq := [], side := [], pend := none,
           mode := if c.recompute = 0 then .normal else .recompute,
           pcH := { hdr := c.recompute, idx := 0 } }

/-- `cbat` after a flashback: copies that ended meanwhile stay ended (R176, R290). -/
def Group.settleCbat (g : Group) : Group :=
  { g with cbat := match (g.copies.filterMap (·.2)) with
      | [] => g.lastCopyBatch
      | n :: ns => BitVec.ofNat 32 (ns.foldl min n - 1) }

/-- A flashback of one group (R290). Recompute code, if any, runs next, in slot A under the checkpointed s30. A checkpoint that
holds poison ends the team (R361). -/
def State.flashback (s : State) (r : GRef) : State :=
  match s.team? r.team with
  | none => s
  | some t =>
    match s.kernel? t.bezel t.kslot with
    | none => s
    | some k => if (t.group? r).any fun g => g.ckpt.bad then s.terminate r 19 12 0
      else (s.discardTask r).modGroup r fun g =>
        { (g.restore k t.tid).settleCbat with life := if g.life == .trapped || g.life == .waiting || g.life == .parked then
            (if g.inSet then .active else .pending) else g.life }

/-- The shadow takes over its leader's checkpoint and dead lanes, which equal its own at every commit. -/
def Group.twin (leader : Group) (g : Group) : Group :=
  { g with ck0 := leader.ck0, ck1 := leader.ck1, ckCur := leader.ckCur, dead := leader.dead }

/-- A flashback of a group and of its shadow, where it has one: both return to one checkpoint. -/
def State.flashbackPair (s : State) (r : GRef) : State :=
  let s1 := s.flashback r.leader
  match s.group? r.shadow, s1.group? r.leader with
  | some _, some ld => (s1.modGroup r.shadow (Group.twin ld)).flashback r.shadow
  | _, _ => s1

/-- A shadow mismatch (R289): the version is discarded and both groups go back; a repeat in the same task kills the
lanes that differed both times, and the team ends with SDC when there are none or when the task mismatches again after
such a kill. -/
def State.mismatch (s : State) (r : GRef) : State :=
  match s.team? r.team, s.group? r.leader, s.group? r.shadow with
  | some t, some a, some b =>
    let d : W32 := (List.range 32).foldl (fun m i =>
      if (a.laneSig.toList[i]?) != (b.laneSig.toList[i]?) then m ||| (1#32 <<< i) else m) 0
    let h := handleOf t.bezel t.kslot t.kseq
    let s1 := s.locket (t.core / 64) 4 10 h (d.setWidth 64)
    if a.killed1 then s1.terminate r 17 10 (d.setWidth 64)
    else match a.diff1 with
      | none => (s1.flashbackPair r).modGroup r.leader fun g => { g with diff1 := some d }
      | some d1 =>
        if d1 &&& d = 0 then s1.terminate r 17 10 (d.setWidth 64)
        else ((s1.killLanes r (d1 &&& d) 0).flashbackPair r).modGroup r.leader fun g => { g with diff1 := some d1, killed1 := true }
  | _, _, _ => s

/-! ### Taking a trap (R292, R293) -/

/-- The kernel flashes back at `tret` (R292): it is rewindable, or takes full checkpoints. -/
def flashesBack (record : List Byte) : Bool := recRecipes record != 0 || recShadow record

/-- The clause of a group broken off; its batches close when it goes on (R176, R199). -/
def Group.cut (g : Group) : Group :=
  match g.clause with
  | some c => { g with clause := none, cutM := c.issuedM, cutC := c.issuedC }
  | none => g

/-- The trap report (R293). -/
def Group.reportOf (g : Group) (t : Team) (k : Kernel) (p : Pend) : TrapReport :=
  let again := if g.report.tcode != 0 && g.trapSeq == g.taskSeq then min 255 (bits g.report.tcode.toNat 31 24 + 1) else 1
  let x := t.tid % recGridX k.record
  let y := t.tid / recGridX k.record % recGridY k.record
  let z := t.tid / recGridX k.record / recGridY k.record
  { tcode := BitVec.ofNat 64 (p.code + p.swcode.toNat * 2 ^ 8 + again * 2 ^ 24),
    tpc := p.pc, tkernel := handleOf t.bezel t.kslot t.kseq,
    tteam := BitVec.ofNat 64 (x + y * 2 ^ 21 + z * 2 ^ 42),
    ttask := BitVec.ofNat 64 (g.taskSeq.toNat + g.num * 2 ^ 32), taddr := p.addr,
    tem := BitVec.ofNat 64 (p.em.toNat + (if p.slotB then 2 ^ 32 else 0)), tgmode := g.gmode.setWidth 64,
    tresume := BitVec.ofNat 64 (p.resume.hdr.toNat + p.resume.idx * 2 ^ 60) }

/-- Steps 2 and 3 of R292: the report is written, MASKED set, the group TRAPPED, and the handler starts at HANDLER in the
third slot; slots A and B issue nothing. -/
def Group.enterHandler (g : Group) (t : Team) (k : Kernel) (p : Pend) : Group :=
  { g.cut with
    report := g.reportOf t k p, trapSeq := g.taskSeq, masked := true, life := .trapped, mode := .handler,
    explicit := false, bound := recVbound k.record,
    pcH := { hdr := (recHandler k.record).setWidth 57, idx := 0 }, wait := .none, bnd := .idle,
    bndHere := false, pend := none }

/-- A fatal trap of a group: its kernel records the report, and the team ends with error 16 (R82, R292). -/
def State.fatalTrap (s : State) (r : GRef) (p : Pend) : State :=
  match s.team? r.team, s.group? r with
  | some t, some g =>
    (match s.kernel? t.bezel t.kslot with
     | some k => s.modKernel t.bezel t.kslot fun x => { x with report := x.report.or (some (g.reportOf t k p)) }
     | none => s).terminate r 16 p.code p.pc
  | _, _ => s

/-- A trap of a group taken: a fatal one ends the team (R82, R292); otherwise the version is settled, or the group waits until
it can be, and the handler is entered (R292). A shadow runs behind its leader, which takes the trap: the shadow waits, or,
when the leader waits to commit past this point, the pair has diverged (R289; log entry 15). -/
def State.takeTrap (s : State) (r : GRef) (p : Pend) : State :=
  match s.team? r.team, s.group? r with
  | some t, some g =>
    match s.kernel? t.bezel t.kslot with
    | none => s
    | some k =>
      if r.sh then
        if (s.group? r.leader).any fun ld => ld.bnd == .waiting then s.mismatch r
        else s.modGroup r fun g => { g with wait := .leader }
      else if recHandler k.record == 0 || g.masked || g.mode == .recompute then
        s.fatalTrap r p
      else if flashesBack k.record then
        let s1 := s.discardTask r
        s1.modGroup r fun g => { g.enterHandler t k p with mbat := g.lastBatch }
      else
        let g0 := if p.matrix then { g with mq := [], ops := g.ops.filter fun o => match o.what with | .matrix _ => false | _ => true } else g
        if (g0.ops.all fun o => !o.classA) && g0.mq.isEmpty && g0.ver.deferred.isEmpty then
          (s.modGroup r fun g =>
            { g with mq := g0.mq, ops := g0.ops, t := g.t.map Tile.flip,
                     ver := { g.ver with heldRegs := 0, heldTileN := 0, heldTiles := [], allocStart := g.v.length, tilesStart := g.t.length },
                     mbat := if p.matrix then g.lastBatch else g.mbat }).modGroup r fun g => g.enterHandler t k p
        else s.modGroup r fun g => { g.cut with mq := g0.mq, ops := g0.ops, pend := some p, wait := .drain }
  | _, _ => s

/-- A trap raised by the instruction at issue (R60, R292). `resume`: where the group would go on. -/
def State.raise (s : State) (c : Ctx) (code : Nat) (addr : W64) (sw : BitVec 16) (resume : Pc) : State :=
  s.takeTrap c.g { code := code, swcode := sw, pc := c.pc.setWidth 64, addr := addr, em := c.em,
                   slotB := c.slot == .b, resume := resume }

/-! ### The end of an instruction and of a clause -/

/-- The slot's PC, written. -/
def Group.setPc (g : Group) (sl : Slot) (p : Pc) : Group :=
  match sl with
  | .a => { g with pcA := p }
  | .b => { g with pcB := p }
  | .h => { g with pcH := p }

/-- Batches close at the end of a clause that issued one of their operations (R176, R199). -/
def Group.closeBatches (g : Group) (c : Clause) : Group :=
  let g1 := if c.issuedM then
      let n := g.lastBatch + 1
      let mq := g.mq.map fun (m : MOp) => if m.batch.isNone && m.joins then { m with batch := some n.toNat } else m
      { g with lastBatch := n, mq := mq, mbat := if mq.any fun (m : MOp) => m.batch.isSome then g.mbat else n }
    else g
  if c.issuedC then
    let n := g1.lastCopyBatch + 1
    let cs := g1.copies.map fun (p : Nat × Option Nat) => if p.2.isNone then (p.1, some n.toNat) else p
    { g1 with lastCopyBatch := n, copies := cs, cbat := if cs.isEmpty then n else g1.cbat }
  else g1

/-- The end of a clause (R46, R93): batches close, the slot's PC moves to the branch target or to the next clause, and a
yield asks for a swap (R107). -/
def Group.endClause (g : Group) (c : Clause) : Group :=
  let g1 := g.closeBatches c
  let g2 := if c.close then
      g1.setPc (if g.mode == .recompute then .h else c.slot) { hdr := c.target.getD c.next, idx := 0 } else g1
  { g2 with clause := none, lastSlot := c.slot, yielded := c.yield || headYield c.head }

/-- The group one instruction further on. -/
def Group.forward (g : Group) : Group :=
  match g.clause with
  | none => g
  | some c =>
    if c.idx + 1 < c.words.length then { g with clause := some { c with idx := c.idx + 1 } } else g.endClause c

/-- Where the slot of a clause goes on after the instruction has completed (R283). -/
def Group.resumeAfter (g : Group) (c : Clause) : Pc :=
  match g.clause with
  | some d => { hdr := d.hdr, idx := d.idx }
  | none => if c.slot == .b then g.pcB else g.pcA

/-- A scalar put into a checkpoint, in ascending order (R283). -/
def insertScal : List (Nat × W64) → Nat → W64 → List (Nat × W64)
  | [], n, v => [(n, v)]
  | (m, x) :: l, n, v => if n < m then (n, v) :: (m, x) :: l else if n = m then (n, v) :: l else (m, x) :: insertScal l n v

/-- A vector register put into a checkpoint: at its place in the live set, else behind it (R283, R284). -/
def insertVec (l : List (Nat × VReg)) (n : Nat) (r : VReg) : List (Nat × VReg) :=
  if l.any fun p => p.1 == n then l.map fun p => if p.1 == n then (n, r) else p else l ++ [(n, r)]

/-- A returned value in a checkpoint, which holds no operand-file register (R118, R284). -/
def Ckpt.put (c : Ckpt) : Deliver → Ckpt
  | .scal n v => if n < 32 then
      { c with scal := insertScal c.scal n v, s30 := if n = 30 then v else c.s30, s31 := if n = 31 then v else c.s31 } else c
  | .vec code m l tag =>
    if 0xC0 ≤ code.toNat then c else
    let old := match c.vec.find? fun p => p.1 == code.toNat with | some p => p.2 | none => {}
    { c with vec := insertVec c.vec code.toNat (old.write false m tag l) }

/-- A register that a returning instruction will write, as it stands, in the checkpoint of the task that the instruction begins
(R284). -/
def Group.ckptDest (g : Group) (k : Ckpt) : Deliver → Ckpt
  | .scal n _ => k.put (.scal n (g.sreg n))
  | .vec code _ _ _ =>
    if 0xC0 ≤ code.toNat then k
    else { k with vec := insertVec k.vec code.toNat (g.vreg code), bad := k.bad || (g.vreg code).bad != 0 }

/-- The new task begins after the instruction that ended the old one (R222): the current checkpoint is written again with
the control state and live registers that the instruction left, and with the destinations of what it returns (R284). -/
def Group.reCkpt (g : Group) (c : Clause) : Group :=
  let k := g.ckpt
  let k' := (g.ops.filter fun o => o.ck).foldl (fun k o => o.dest.foldl g.ckptDest k) (g.checkpoint g.entry k.full (g.resumeAfter c) c.slot)
  if g.ckCur then { g with ck1 := k' } else { g with ck0 := k' }

/-- The group moves past the instruction it has completed. -/
def Group.advance (g : Group) : Group :=
  let g1 := { g with bnd := .idle, bndHere := false, wait := .none }.forward
  match g.clause with
  | some c => if g.bnd == .passed && !g.bndHere && g.mode == .normal then g1.reCkpt c else g1
  | none => g1

/-- The clause of the issuing group, changed. -/
def Group.modClause (g : Group) (f : Clause → Clause) : Group := { g with clause := g.clause.map f }

/-! ### The order of checks (R60) -/

/-- The opcode of a word. -/
def opcodeOf (i : Instr) : BitVec 8 := match encode i with | some w => w.extractLsb' 24 8 | none => 0

/-- Class-a instructions that publish, which recompute code may not issue (R290, R222, R312, R355); `tlinc` 1 is none of them
(R190). -/
def publishesA (i : Instr) : Bool :=
  match i with
  | .tlincReserve _ _ => false
  | _ =>
    let op := opcodeOf i
    op == 0xAC || op == 0xD8 || op == 0xDC || op == 0xF0 || op == 0xF1 || op == 0xF2

/-- The first failing check of R60 steps 3 to 5, and of recompute code (R290), whose ILLOP the model tests after PRIV and before the
other checks of a word that decodes (log entry 29). -/
def precheck (c : Ctx) (i : Instr) : Option Nat :=
  let op := opcodeOf i
  if isPrivileged op && !recSuper c.kern.record then some PRIV
  else if c.grp.mode == .recompute &&
      !(classOf op == .f || (classOf op == .a && !publishesA i)) then some ILLOP
  else if !fieldsOk i then some ILLOP
  else if !c.grp.operandsOk c.cl i then some ILLOPERAND
  else none

/-- What an instruction's own effect leaves: the group advances, traps, or waits. -/
def settle (s : State) (c : Ctx) : Res → State
  | .ok s' => s'.modGroup c.g Group.advance
  | .error (.trap code addr sw) => s.raise c code addr sw c.here
  | .error (.wait w s') => s'.modGroup c.g fun g => { g with wait := w }
  | .error (.done s') => s'

/-- What an instruction that reads poison does first (R361): none where the scalar unit reads it, which ends the team; the lanes
that read it are killed, and the instruction runs in the others. -/
def Ctx.sound (c : Ctx) (i : Instr) (s : State) : Option (Ctx × State) :=
  if c.grp.readsBad c.slot i then none
  else if c.grp.badLanes c.cl i = 0 then some (c, s)
  else
    let s1 := s.killLanes c.g (c.grp.badLanes c.cl i) 0
    (s1.ctxOf c.g).map fun c1 => (c1, s1)

/-- An instruction at its issue: the checks of R60, the poison that it reads, then its own effect. -/
def issue (i : Instr) (s : State) (f : Ctx → State → Res) : Host.Outcome State Fault Refusal :=
  match s.ctx with
  | none => .refused .noIssuer
  | some c => .next (match precheck c i with
      | some code => settle s c (.error (.trap code))
      | none => match c.sound i s with
        | some (c1, s1) => settle s1 c1 (f c1 s1)
        | none => s.terminate c.g 19 12 (c.pc.setWidth 64))

/-! ### Completion classes -/

/-- A class-a operation of a leader (R51, R52, R97): it waits while its flag's count is 63 or the load-value queue is
full; it tags its flag and, under SHADOW, takes a queue entry. -/
def issueA (c : Ctx) (s : State) (dest : List Deliver) (what : OpWhat) (ck : Bool) : Res :=
  match s.group? c.g with
  | none => .ok s
  | some g =>
    let fl := flagA c.cl.head
    if !g.canRaise fl then .error (.wait (.count (fl.getD 0)) s)
    else if c.shadowed && 8 ≤ g.lvq.length then .error (.wait .lvq s)
    else
      let op : Op := { id := g.nextOp, flag := fl, classA := true, task := g.taskSeq, dest := dest, what := what,
                       ck := ck }
      .ok (c.mod s fun g =>
        let g1 := g.addOp op
        if c.shadowed then { g1 with lvq := g1.lvq ++ [{ pc := c.pc.setWidth 64, dest := dest, filled := false, op := op.id }] } else g1)

/-- Data written to a group's registers by a returning operation (R53): lanes not dead, with the operation's tag when the
write is full. -/
def Group.receive (g : Group) (lanes : W32) : Deliver → Group
  | .scal n v => g.setS n v
  | .vec code mask l tag =>
    let m := mask &&& lanes &&& ~~~ g.dead
    if m = 0 then g else g.setVreg code ((g.vreg code).write (m == g.aliveLanes) m tag l)

/-- A shadow group's class-a instruction takes the oldest entry of its leader's queue (R97): it waits for an entry that
is filled, and an entry of another PC is a mismatch. -/
def takeLvq (c : Ctx) (s : State) : Res :=
  match s.group? c.g.leader with
  | none => .ok s
  | some ld =>
    match ld.lvq with
    | [] => .error (.wait .lvq s)
    | e :: rest =>
      if !e.filled then .error (.wait .lvq s)
      else if e.pc != c.pc.setWidth 64 then .error (.done (s.mismatch c.g))
      else
        let s1 := s.modGroup c.g.leader fun g => { g with lvq := rest }
        .ok (c.mod s1 fun g => e.dest.foldl (fun g d => g.receive (-1) d) g)

/-- A class-b operation of a leader: it waits while its flag's count is 63, and tags its flag (R51, R52). Answers the
operation's number through `k`. -/
def issueB (c : Ctx) (s : State) (what : OpWhat) (k : Nat → State → Res) : Res :=
  match s.group? c.g with
  | none => .ok s
  | some g =>
    let fl := flagB c.cl.head
    if !g.canRaise fl then .error (.wait (.count (fl.getD 0)) s)
    else k g.nextOp (c.mod s fun g => g.addOp { id := g.nextOp, flag := fl, classA := false, task := g.taskSeq, what := what })

/-! ### Commit before a task-ending instruction (R222, R287) -/

/-- The commit may run: step 1 of R287, and no store that must wait for a recall (R166). The entries of the group's
`astep`s are in place, since the model puts an entry in place at its `astep` (R326). -/
def State.canCommit (s : State) (c : Ctx) : Bool :=
  match s.group? c.g with
  | some g => g.drained && !s.commitHeldUp c.g g
  | none => true

/-- The commit of the current task before an instruction takes any effect of its own (R222). It is made at once when
every operation has drained and no comparison is needed; otherwise the group waits for TASK_COMMIT (R287). `here`: the
new task begins at the instruction itself (R186, R285); otherwise its checkpoint is written again when the instruction
completes (R222). -/
def boundary (c : Ctx) (s : State) (here : Bool) : Res :=
  if c.grp.bnd == .passed then .ok s
  else if s.canCommit c && (!c.shadowed || c.grp.mode == .handler) then
    .ok ((s.release c.g (c.grp.boundaryEntry c.kern) { c.here with passed := !here } c.slot).modGroup c.g fun g => { g with bnd := .passed, bndHere := here })
  else .error (.wait .boundary (c.mod s fun g => { g with bnd := .waiting, bndHere := here }))

/-- An instruction deferred to the commit: held with the version, also in a kernel where every store is its own task (R221,
R222; 17_prog_repeat on the `fclose` of `repsend`). -/
def defer (c : Ctx) (s : State) (mk : Nat → Deferred) : Res :=
  issueB c s .held fun op s =>
    .ok (c.mod s fun g => { g with ver := { g.ver with deferred := g.ver.deferred ++ [mk op] } })

/-- An acquire: leases begun before `floor` are not used by the group any more (R173, R228). -/
def Group.acquireAt (g : Group) (floor : Nat) : Group := { g with acquire := max g.acquire floor }

end Sys2Proof.Machine
end

