-- ==== Sys2Proof/Machine/Access.lean ====
section
/-! DEFINITION. Memory as a group and the engines reach it: windows (R155, R165), the checks of an access (R160, R163,
R169), parking on a fault (R163, R164), what a load reads (R219, R223, R226), and the holding of stores (R221, R285). -/

namespace Sys2Proof.Machine

open Sys2Proof

/-! ### Places -/

/-- Where an address leads: a fabric address of a global page, or a byte of a team's stash. -/
inductive Place where
  | glob (pa : Nat) (sync : Bool) (owner : Nat) (va : W64)
  | stash (team off : Nat) (va : W64)
deriving DecidableEq, Repr

/-- The fate of one address (R155, R160, R165). -/
inductive PR where
  | ok (p : Place)
  | trap (code : Nat)
  | park (cause level : Nat)
  | migrating
  | filling (frame : Nat)
  | kill
  | uncorr
deriving DecidableEq, Repr

/-- A window address resolved (R165), for a team of a kernel with this record. -/
def State.window (s : State) (t : Team) (record : List Byte) (ad : W64) : PR :=
  let a := ad.toNat
  let off := bits a 19 0
  if bits a 56 48 = 0x1FF then
    if bits a 47 20 ≠ 0 || recStash record ≤ off then .trap PROT else .ok (.stash t.sid off ad)
  else
    let rank := bits a 47 45
    if max 1 (recCluster record) ≤ rank then .trap RANK
    else if bits a 44 20 ≠ 0 || recStash record ≤ off then .trap PROT
    else match s.clusterTeam t record rank with
      | some x => .ok (.stash x.sid off ad)
      | none => .trap RANK

/-- A global address resolved (R160, R353). A sector that the team itself maps is the stash block (R166). -/
def State.globalPlace (s : State) (sid : Nat) (b : Bezel) (core key : Nat) (k : Acc) (ad : W64) : PR :=
  match s.translate b core key k ad.toNat with
  | .ok pa sync ow =>
    (match s.mappedBlock (pa / 256) with
     | some (x, m) => if x = sid then .ok (.stash x (m.off + pa % 256) ad) else .ok (.glob pa sync ow ad)
     | none => .ok (.glob pa sync ow ad))
  | .prot => .trap PROT
  | .park c l => .park c l
  | .migrating => .migrating
  | .filling f => .filling f
  | .kill => .kill
  | .uncorr => .uncorr

/-- Any address resolved for a team of a kernel (R155, R165, R160, in that order). -/
def State.place (s : State) (t : Team) (k : Kernel) (b : Bezel) (kind : Acc) (ad : W64) : PR :=
  if badVa ad then .trap PROT
  else if isWindow ad then s.window t k.record ad
  else s.globalPlace t.sid b t.core (recKey k.record % 4096) kind ad

/-- The address of an object by its place. -/
def Place.obj : Place → Obj
  | .glob pa _ ow va => .glob pa va ow
  | .stash t off va => .stash t off va

/-- The block of another group's open task that an access must wait for (R224). -/
def State.heldBlock (s : State) (r : GRef) (p : Place) : Option (Nat × Nat) :=
  let test := fun (t off : Nat) => match s.team? t with
    | some tm => if tm.blockHeld r (off / 256) then some (t, off / 256) else none
    | none => none
  match p with
  | .stash t off _ => test t off
  | .glob pa _ _ _ => match s.mappedBlock (pa / 256) with
    | some (sid, m) => test sid m.off
    | none => none

/-! ### Parking (R163) -/

/-- The group parks (R88, R163); a trapped group stays TRAPPED and leaves the active set. -/
def Group.park (g : Group) (w : Wait) : Group :=
  { g with inSet := false, wait := w, life := if g.life == .trapped then .trapped else .parked, bnd := .idle }

/-- A group parks on a not-present or bad entry. -/
def State.parkGroup (s : State) (c : Ctx) (va : W64) (cause level : Nat) (write smap : Bool) : State :=
  let f : FaultInfo :=
   { va := va, cause := cause, level := level, write := write, smap := smap, handle := c.handle,
     place := placeWord c.team c.grp.num, joiner := .grp c.g }
  (s.fault c.bez.num f).modGroup c.g (Group.park · (.page va))

/-- A group that no longer waits: PENDING when it is out of the active set (R88). -/
def Group.wake (g : Group) (now : Nat) : Group :=
  { g with wait := .none, readySince := now, asleep := false,
           life := if g.life == .waiting || g.life == .parked then (if g.inSet then .active else .pending) else g.life }

/-! ### The checks of an access (R169) -/

/-- The first lane whose test gives a value. -/
def firstLane {α : Type} (lanes : List Nat) (f : Nat → Option α) : Option (Nat × α) :=
  lanes.findSome? fun i => (f i).map fun x => (i, x)

/-- The translations of some addresses, with the TLB filled (R161). -/
def State.touch (s : State) (b : Bezel) (core : Nat) (ads : List W64) : State :=
  ads.foldl (fun s a => if badVa a || isWindow a then s else s.fillTlb b core a.toNat) s

/-- The checks of R155, alignment, R165, R160, R163, R344 and R224 over all lanes, in that order. Answers the state, each
lane's place, and the lanes that a POISONED page kills. -/
def checkLanes (c : Ctx) (s : State) (kind : Acc) (lanes : List Nat) (ad : Nat → W64) (align : Nat) :
    Except Stop (State × List (Nat × Place) × List Nat) :=
  let pl := fun i => s.place c.team c.kern c.bez kind (ad i)
  match lanes.find? fun i => badVa (ad i) with
  | some i => .error (.trap PROT (ad i))
  | none =>
  match lanes.find? fun i => (ad i).toNat % align ≠ 0 with
  | some i => .error (.trap ALIGN (ad i))
  | none =>
  match firstLane lanes fun i => if isWindow (ad i) then (match pl i with | .trap code => some code | _ => none) else none with
  | some (i, code) => .error (.trap code (ad i))
  | none =>
  match firstLane lanes fun i => match pl i with | .trap code => some code | _ => none with
  | some (i, code) => .error (.trap code (ad i))
  | none =>
  match firstLane lanes fun i => match pl i with | .park ca l => some (ca, l) | _ => none with
  | some (i, ca, l) => .error (.done (s.parkGroup c (ad i) ca l kind.writes false))
  | none =>
  if lanes.any fun i => pl i == .migrating then .error (.done (s.modGroup c.g (Group.park · .migrating)))
  else match firstLane lanes fun i => match pl i with | .filling f => some f | _ => none with
  | some (_, f) => .error (.wait (.fill f) s)
  | none =>
  if lanes.any fun i => pl i == .uncorr then .error (.done (s.terminate c.g 19 12 (c.pc.setWidth 64)))
  else
    let ps := lanes.filterMap fun i => match pl i with | .ok p => some (i, p) | _ => none
    let kills := lanes.filter fun i => pl i == .kill
    match ps.findSome? fun p => s.heldBlock c.g p.2 with
    | some (t, blk) => .error (.wait (.block t blk) s)
    | none => .ok (s.touch c.bez c.core (lanes.map ad), ps, kills)

/-! ### What a load reads -/

/-- An unfilled mapped block filled by its first access, with its sector's poison (R166, R361). -/
def State.fillBlock (s : State) (sid off : Nat) : State :=
  match s.team? sid with
  | none => s
  | some t =>
    match t.mapped.find? fun m => m.off == off / 256 * 256 && !m.filled with
    | none => s
    | some m => s.modTeam sid fun t =>
        { t with stash := memWrite t.stash m.off (memBytes s.mem (256 * m.sector) 256),
                 bad := (if s.poisoned m.sector then [m.off / 256] else []) ++ t.bad.filter fun b => b != m.off / 256,
                 mapped := t.mapped.map fun x => if x.off == m.off then { x with filled := true, dirty := false } else x }

/-- The blocks that an access of the team touches, filled. -/
def State.fillPlaces (s : State) (ps : List Place) : State :=
  ps.foldl (fun s p => match p with | .stash t off _ => s.fillBlock t off | .glob _ _ _ _ => s) s

/-- The lease of a core that a load of a group may be served from (R226): current, and not ended by an acquire. -/
def State.leaseFor (s : State) (core acq sector : Nat) : Option Lease :=
  s.leases.find? fun l => l.core == core && l.sector == sector && acq ≤ l.start && (s.cycles - l.cycle).toNat ≤ 8192

/-- The byte that the last store in flight of those that satisfy `f` gives an address (R219, R221). -/
def State.inFlight (s : State) (f : Posted → Bool) (pa : Nat) : Option Byte :=
  s.posted.reverse.findSome? fun p => if f p then (p.cells.reverse.find? fun c => c.1 == pa).map (·.2) else none

/-- What a core's L1 takes from the home of a sector now: the bytes at the home, under the stores in flight that releases have
made visible to the core (R226, R228). -/
def State.freshLease (s : State) (core sector : Nat) : Lease :=
  { core := core, sector := sector, start := s.stepNo, cycle := s.cycles,
    data := (List.range 256).map fun i =>
      (s.inFlight (fun p => p.vis.any fun v => scopeHolds v p.core core) (256 * sector + i)).getD (s.homeByte (256 * sector + i)) }

/-- The lines of one core's L1: 256 KiB of 256-byte sectors (R7). -/
def l1Lines : Nat := 1024

/-- A lease in place of the core's older one; the core's oldest line makes room (R7; log entry 39). -/
def putLease (ls : List Lease) (l : Lease) : List Lease :=
  let rest := ls.filter fun x => !(x.core == l.core && x.sector == l.sector)
  let mine := rest.filter fun x => x.core == l.core
  l :: (if l1Lines ≤ mine.length then rest.filter fun x => some x != mine.getLast? else rest)

/-- The lease that serves a load of a group at a fabric address: none in a SYNC page (R226), and none while a store of the group to
the sector is on its way, which the load must see (R219). -/
def State.servedBy (s : State) (r : GRef) (core acq pa : Nat) (sync : Bool) : Option Lease :=
  if sync || s.ownInFlight r (pa / 256) then none else s.leaseFor core acq (pa / 256)

/-- A load of a global sector outside SYNC pages takes a lease where none serves it (R226, R233; log entry 11). -/
def State.takeLease (s : State) (r : GRef) (core acq : Nat) (p : Place) : State :=
  match p with
  | .stash _ _ _ => s
  | .glob pa sync _ _ =>
    if sync then s
    else match s.servedBy r core acq pa sync with
      | some _ => s
      | none => { s with leases := putLease s.leases (s.freshLease core (pa / 256)) }

/-- One byte as a load of group `r` returns it (R219): its own held store first; else the lease that serves the load, or the last
store in flight that the group sees, or the home. One source serves all the bytes of an access (R216). -/
def State.loadByte (s : State) (r : GRef) (g : Group) (core : Nat) (p : Place) (i : Nat) : Byte :=
  match p with
  | .stash t off _ => (match s.team? t with
      | some tm => memByte tm.stash (off + i)
      | none => 0)
  | .glob pa sync _ _ =>
    match g.ver.held.reverse.find? fun h => h.pa == pa + i with
    | some h => h.val
    | none =>
      match s.servedBy r core g.acquire pa sync with
      | some l => l.data[(pa + i) % 256]?.getD 0
      | none => (s.inFlight (fun p => p.seenBy r core) (pa + i)).getD (s.homeByte (pa + i))

/-- `n` bytes as a group's load returns them. -/
def State.loadBytes (s : State) (r : GRef) (g : Group) (core : Nat) (p : Place) (n : Nat) : List Byte :=
  (List.range n).map fun i => s.loadByte r g core p i

/-- The sector or the stash block of a place carries poison (R360, R361). -/
def State.placePoisoned (s : State) : Place → Bool
  | .glob pa _ _ _ => s.poisoned (pa / 256)
  | .stash t off _ => (s.team? t).any fun tm => tm.bad.contains (off / 256)

/-- Some places read for a kernel, with the CHECK of their sectors verified (R362). -/
def State.checkPlaces (s : State) (handle : W64) (ps : List Place) : State :=
  ps.foldl (fun s p => match p with | .glob pa _ _ _ => s.checkSector handle (pa / 256) | .stash _ _ _ => s) s

/-! ### Holding stores (R221, R285) -/

/-- The units of some places, as added to a version (R285). -/
def Version.withUnits (v : Version) (ps : List Place) : Version :=
  ps.foldl (fun v p => match p with
    | .glob _ _ _ va => if v.units.contains (va.toNat / 256) then v else { v with units := v.units ++ [va.toNat / 256] }
    | .stash t off _ => if v.blocks.contains (t, off / 256) then v else { v with blocks := v.blocks ++ [(t, off / 256)] }) v

/-- Number of units of a version. -/
def Version.count (v : Version) : Nat := v.units.length + v.blocks.length

/-- The units of an instruction counted at its issue (R285): a trap, an implicit boundary first, or room. -/
def countUnits (c : Ctx) (s : State) (ps : List Place) : Res :=
  if recOwnTask c.kern.record then .ok s
  else match s.group? c.g with
    | none => .ok s
    | some g =>
      if g.bound < (({} : Version).withUnits ps).count then .error (.trap TASKBOUND)
      else
        let fits := (g.ver.withUnits ps).count ≤ g.bound
        if fits then .ok (s.modGroup c.g fun g => { g with ver := g.ver.withUnits ps })
        else if g.explicit then .error (.trap TASKBOUND)
        else do
          let s1 ← boundary c s true
          .ok (s1.modGroup c.g fun g => { g with ver := g.ver.withUnits ps })

/-- One store held in the version, or committed at once in a kernel where every store is its own task (R221). `lane`: the lane
or element of the instruction. -/
def holdOne (c : Ctx) (s : State) (p : Place) (lane : Nat) (l : List Byte) : State :=
  match p with
  | .stash t off _ =>
    if recOwnTask c.kern.record then
      ((s.noteLate (t + 1) off l.length).modTeam t fun tm => tm.stashWrite none off l).blockStored c.team.bezel c.core t (off / 256)
    else s.modTeam t fun tm => tm.stashWrite (some c.g) off l
  | .glob pa sync ow va =>
    if recOwnTask c.kern.record then
      s.storeEffect c.g c.team c.handle { pa := pa, va := va, owner := ow, sync := sync, instr := s.stepNo, data := l }
    else s.modGroup c.g fun g =>
      { g with ver := { g.ver with held := g.ver.held ++ (cellsAt pa l).map fun x =>
          ({ pa := x.1, val := x.2, va := va, owner := ow, instr := s.stepNo, lane := lane, sync := sync } : HeldByte) } }

/-- The space and first address of a place, as the tile operations tell bytes apart. -/
def Place.key : Place → Nat × Nat
  | .glob pa _ _ _ => (0, pa)
  | .stash t off _ => (t + 1, off)

/-- Bytes stored while tile operations wait are noted, so that an operation that issued earlier finds them undefined
(R204). -/
def Group.noteLate (g : Group) (p : Place) (n : Nat) : Group :=
  match g.mq.getLast? with
  | none => g
  | some m => { g with late := g.late ++ (List.range n).map fun i => (m.id, p.key.1, p.key.2 + i) }

/-- The stores of one instruction that agents may observe: of several to one place the highest lane's alone (R169, R220). -/
def highest : List (Place × List Byte) → List (Place × List Byte)
  | [] => []
  | x :: r => if r.any fun y => y.1.key == x.1.key then highest r else x :: highest r

/-- The place of an object, as a load names it. -/
def Obj.at_ (o : Obj) (sync : Bool) : Place :=
  match o with
  | .glob pa va ow => .glob pa sync ow va
  | .stash t off va => .stash t off va

/-- The fabric sectors of some places. -/
def globSectors (ps : List Place) : List Nat := ps.filterMap fun p => match p with | .glob pa _ _ _ => some (pa / 256) | _ => none

/-- A place of either kind by its space and its sector or block there. -/
def Place.unit (p : Place) : Nat × Nat := (p.key.1, p.key.2 / 256)

/-- A group's loads that have not returned, of sectors or blocks that some places share, are performed now: a later access there
follows (R217, R219, R227). -/
def Group.fixLoads (g : Group) (ps : List Place) : Group :=
  { g with ops := g.ops.map fun (o : Op) => match o.again with
      | some (_, l) => if l.any fun x => ps.any fun p => p.unit == (x.2.2.at_ x.2.1).unit then { o with again := none } else o
      | none => o }

/-- Every load of the group is performed now (R227, R229). -/
def Group.fixAll (g : Group) : Group := { g with ops := g.ops.map fun (o : Op) => { o with again := none } }

/-- The stores of one instruction, in lane order. -/
def holdStores (c : Ctx) (s : State) (l : List (Place × List Byte)) : State :=
  (highest l).zipIdx.foldl (fun s x => (holdOne c s x.1.1 x.2 x.1.2).modGroup c.g fun g => g.noteLate x.1.1 x.1.2.length)
    (c.mod s fun g => g.fixLoads (l.map (·.1)))

/-- A class-b instruction that completes as soon as it has issued: it waits while its flag's count is 63 (R51). -/
def instantB (c : Ctx) (s : State) (k : State → Res) : Res :=
  match s.group? c.g with
  | none => .ok s
  | some g => if g.canRaise (flagB c.cl.head) then k s else .error (.wait (.count ((flagB c.cl.head).getD 0)) s)

/-- A class-a instruction that finds nothing to do: it completes at once (R51). -/
def instantA (c : Ctx) (s : State) : Res :=
  match s.group? c.g with
  | none => .ok s
  | some g =>
    if !g.canRaise (flagA c.cl.head) then .error (.wait (.count ((flagA c.cl.head).getD 0)) s)
    else if !c.shadowed then .ok s
    else if 8 ≤ g.lvq.length then .error (.wait .lvq s)
    else .ok (c.mod s fun g =>
      { g with lvq := g.lvq ++ [({ pc := c.pc.setWidth 64, dest := [], filled := true, op := 0 } : LvqEntry)] })

/-- A class-a instruction must wait at issue (R51, R97). -/
def gateA (c : Ctx) (s : State) : Except Stop Unit :=
  if !c.grp.canRaise (flagA c.cl.head) then .error (.wait (.count ((flagA c.cl.head).getD 0)) s)
  else if c.shadowed && 8 ≤ c.grp.lvq.length then .error (.wait .lvq s)
  else .ok ()

/-- A class-b instruction must wait at issue (R51). -/
def gateB (c : Ctx) (s : State) : Except Stop Unit :=
  if !c.grp.canRaise (flagB c.cl.head) then .error (.wait (.count ((flagB c.cl.head).getD 0)) s) else .ok ()

/-- The scalar operands of a class-b instruction enter the signatures of leader and shadow (R98). -/
def sign (c : Ctx) (s : State) (l : List W64) : State :=
  if c.shadowed then c.mod s fun g => g.signScalars l else s

/-- The lanes of a register that a class-b instruction sends away enter the lane signatures (R288). -/
def signData (c : Ctx) (s : State) (lanes : W32) (x : VReg) : State :=
  if c.shadowed then c.mod s fun g => g.signData lanes fun i => leBytes (x.l.lane i).toNat 4 else s

/-- A class-b instruction: a shadow group only signs it, and a leader performs it and signs it (R97, R98). -/
def classB (c : Ctx) (s : State) (l : List W64) (k : State → Res) : Res := do
  let s1 ← if c.g.sh then .ok s else k s
  .ok (sign c s1 l)

/-- A class-a instruction: a shadow group takes the result from the load-value queue (R97). -/
def classA (c : Ctx) (s : State) (k : State → Res) : Res := if c.g.sh then takeLvq c s else k s

/-- A record that an instruction reads at issue by an access of kind `k`: `n` bytes of one sector, at an aligned address (R155,
R160, R163); a poisoned record ends the team (R361). -/
def readRecordAs (k : Acc) (c : Ctx) (s : State) (ad : W64) (n : Nat) : Except Stop (State × List Byte) := do
  let (s1, ps, _) ← checkLanes c s k [0] (fun _ => ad) 1
  match ps with
  | (_, p) :: _ =>
    let s2 := (s1.fillPlaces [p]).takeLease c.g c.core c.grp.acquire p
    if s2.placePoisoned p then .error (.done ((s2.checkPlaces c.handle [p]).terminate c.g 19 12 ad))
    else .ok (s2, s2.loadBytes c.g ((s2.group? c.g).getD c.grp) c.core p n)
  | [] => .error (.trap PROT ad)

/-- A record that the scalar unit reads at issue. -/
def readRecord (c : Ctx) (s : State) (ad : W64) (n : Nat) : Except Stop (State × List Byte) := readRecordAs .scalarLoad c s ad n

/-- Lanes killed one by one, each with the address it consumed (R96, R364). -/
def State.killEach (s : State) (r : GRef) (l : List (Nat × W64)) : State :=
  l.foldl (fun s x => s.killLanes r (1#32 <<< x.1) x.2) s

/-- Lane addresses of R169. -/
def laneAd (base : W64) (off : VReg) (i : Nat) : W64 := base + (off.l.lane i).signExtend 64

/-- The kernel, team and bezel of an engine command's issuer. -/
def State.owner? (s : State) (i : Issuer) : Option (Team × Kernel × Bezel) :=
  match s.team? i.g.team, s.kernel? i.bezel i.kslot, s.bezel? i.bezel with
  | some t, some k, some b => some (t, k, b)
  | _, _, _ => none

/-- A deferred trap recorded for a group by a unit (R375); a second one before the first is taken goes to the Locket
(R376). -/
def State.deferPend (s : State) (r : GRef) (core : Nat) (handle : W64) (p : Pend) : State :=
  match s.group? r with
  | none => s
  | some g =>
    match g.deferredTrap with
    | none => s.modGroup r fun g => { g with deferredTrap := some p }
    | some _ => s.locket (core / 64) 1 p.code handle p.pc

/-- A deferred trap of an engine command (R375). -/
def State.deferTrap (s : State) (i : Issuer) (code : Nat) (addr : W64) : State :=
  s.deferPend i.g i.core i.handle
    { code := code, pc := i.pc.hdr.setWidth 64, addr := addr, em := 0, slotB := false, resume := {} }

end Sys2Proof.Machine
end

