-- ==== Sys2Proof/Machine/Num.lean ====
section
/-! DEFINITION. Numbers: element layouts (R26), integer results (R28), binary floating point with its rounding (R29 to
R33), exact dyadic arithmetic, tapered formats (R34 to R38), and conversions between formats (R42). -/

namespace Sys2Proof.Machine

open Sys2Proof

/-! ### Elements of a lane (R26) -/

/-- Element `j` of a lane. -/
def elem (et : Nat) (x : W32) (j : Nat) : Nat := (x.toNat >>> (elemBits et * j)) % 2 ^ elemBits et

/-- Elements of a lane. -/
def elemCount (et : Nat) : Nat := 32 / elemBits et

/-- The lane whose element `j` is `f j`. -/
def ofElems (et : Nat) (f : Nat → Nat) : W32 :=
  BitVec.ofNat 32 ((List.range (elemCount et)).foldl (fun a j => a + f j % 2 ^ elemBits et * 2 ^ (elemBits et * j)) 0)

/-- The 32-bit mask of the lanes that satisfy a test (R25). -/
def maskOf (f : Nat → Bool) : W32 := BitVec.ofNat 32 ((List.range 32).foldl (fun a i => a + if f i then 2 ^ i else 0) 0)

/-- A signed integer type. -/
def isSigned (et : Nat) : Bool := et == 0 || et == 5 || et == 7

/-- Value of an `n`-bit pattern, signed or unsigned. -/
def intVal (signed : Bool) (n x : Nat) : Int := if signed && 2 ^ (n - 1) ≤ x then (x : Int) - 2 ^ n else x

/-- The bounds of an `n`-bit integer type. -/
def intMin (signed : Bool) (n : Nat) : Int := if signed then -(2 ^ (n - 1)) else 0
/-- The upper bound. -/
def intMax (signed : Bool) (n : Nat) : Int := if signed then 2 ^ (n - 1) - 1 else 2 ^ n - 1

/-- An integer result wrapped to `n` bits. -/
def wrapInt (n : Nat) (v : Int) : Nat := (v % 2 ^ n).toNat

/-- An integer clamped to its type. -/
def clampInt (signed : Bool) (n : Nat) (v : Int) : Int := max (intMin signed n) (min (intMax signed n) v)

/-- An integer result (R28). -/
def intRes (signed : Bool) (n : Nat) (sat : Bool) (v : Int) : Nat := wrapInt n (if sat then clampInt signed n v else v)

/-! ### Binary floating point (R29 to R33) -/

/-- A binary format: exponent bits and fraction bits (R29). -/
structure Fmt where
  eb : Nat
  mb : Nat
deriving DecidableEq, Repr

/-- F32. -/
def f32 : Fmt := { eb := 8, mb := 23 }
/-- BF16. -/
def bf16 : Fmt := { eb := 8, mb := 7 }
/-- F16. -/
def f16 : Fmt := { eb := 5, mb := 10 }
/-- Format of a float element type. -/
def fmtOf (et : Nat) : Fmt := if et = 2 then f32 else if et = 3 then bf16 else f16

/-- Weight of the sign bit. -/
def Fmt.sgn (f : Fmt) : Nat := 2 ^ (f.eb + f.mb)
/-- Pattern of +∞. -/
def Fmt.infMag (f : Fmt) : Nat := (2 ^ f.eb - 1) * 2 ^ f.mb
/-- The canonical NaN (R31). -/
def Fmt.nan (f : Fmt) : Nat := f.infMag + 2 ^ (f.mb - 1)
/-- Exponent of the smallest subnormal. -/
def Fmt.qmin (f : Fmt) : Int := 2 - 2 ^ (f.eb - 1) - f.mb

/-- An exact value: NaN, an infinity, or ±m × 2^e. -/
inductive Flo where
  | nan
  | inf (neg : Bool)
  | num (neg : Bool) (m : Nat) (e : Int)
deriving DecidableEq, Repr

/-- The value of a pattern; a subnormal reads as zero of its sign under FTZ (R32). -/
def Fmt.dec (f : Fmt) (ftz : Bool) (x : Nat) : Flo :=
  let neg := x / f.sgn % 2 == 1
  let mag := x % f.sgn
  if f.infMag < mag then .nan
  else if mag = f.infMag then .inf neg
  else
    let ex := mag / 2 ^ f.mb
    let fr := mag % 2 ^ f.mb
    if ex = 0 then .num neg (if ftz then 0 else fr) f.qmin else .num neg (fr + 2 ^ f.mb) (f.qmin + ex - 1)

/-- `m` divided by 2^sh, rounded in a mode (R30). A shift far beyond the value is cut short: the result is the same. -/
def roundNat (rnd : Nat) (neg : Bool) (m sh : Nat) : Nat :=
  let sh := min sh (Nat.log2 m + 2)
  if sh = 0 then m
  else
    let n := m / 2 ^ sh
    let r := m % 2 ^ sh
    let half := 2 ^ (sh - 1)
    let up := match rnd with
      | 0 => decide (half < r) || (r == half && n % 2 == 1)
      | 1 => false
      | 2 => !neg && decide (0 < r)
      | 3 => neg && decide (0 < r)
      | _ => decide (half ≤ r)
    if up then n + 1 else n

/-- Overflow gives the largest finite value rather than an infinity (R30). -/
def overflowsToMax (rnd : Nat) (neg : Bool) : Bool := rnd == 1 || (rnd == 2 && neg) || (rnd == 3 && !neg)

/-- The pattern of an exact value rounded once, with overflow, SAT and FTZ (R30 to R33). -/
def Fmt.round (f : Fmt) (rnd : Nat) (sat ftz : Bool) : Flo → Nat
  | .nan => f.nan
  | .inf neg => (if neg then f.sgn else 0) + f.infMag
  | .num neg m e =>
    let s := if neg then f.sgn else 0
    if m = 0 then s
    else
      let q := max ((Nat.log2 m : Int) + e - f.mb) f.qmin
      let n := if q ≤ e then m * 2 ^ (e - q).toNat else roundNat rnd neg m (q - e).toNat
      let mag := (q - f.qmin).toNat * 2 ^ f.mb + n
      if f.infMag ≤ mag then s + (if sat || overflowsToMax rnd neg then f.infMag - 1 else f.infMag)
      else if ftz && mag < 2 ^ f.mb then s
      else s + mag

/-- Exact negation. -/
def Flo.neg : Flo → Flo
  | .nan => .nan
  | .inf n => .inf (!n)
  | .num n m e => .num (!n) m e

/-- Exact product; 0 × ∞ is invalid (R136). -/
def Flo.mul : Flo → Flo → Flo
  | .nan, _ => .nan
  | _, .nan => .nan
  | .inf a, .inf b => .inf (a != b)
  | .inf a, .num b m _ => if m = 0 then .nan else .inf (a != b)
  | .num b m _, .inf a => if m = 0 then .nan else .inf (a != b)
  | .num a m e, .num b n g => .num (a != b) (m * n) (e + g)

/-- The signed integer of a value in units of 2^q, for q not above its exponent. -/
def scaled (neg : Bool) (m : Nat) (e q : Int) : Int :=
  let v : Int := (m : Int) * 2 ^ (e - q).toNat
  if neg then -v else v

/-- Exact sum; ∞ − ∞ is invalid, and an exact zero of opposite signs is −0 under RDN only (R136). -/
def Flo.add (rdn : Bool) : Flo → Flo → Flo
  | .nan, _ => .nan
  | _, .nan => .nan
  | .inf a, .inf b => if a == b then .inf a else .nan
  | .inf a, .num _ _ _ => .inf a
  | .num _ _ _, .inf a => .inf a
  | .num a m e, .num b n g =>
    if m = 0 && n = 0 then .num (if a == b then a else rdn) 0 0
    else
      let q := if m = 0 then g else if n = 0 then e else min e g
      let v := (if m = 0 then 0 else scaled a m e q) + (if n = 0 then 0 else scaled b n g q)
      if v = 0 then .num rdn 0 0 else .num (v < 0) v.natAbs q

/-- NaN. -/
def Flo.isNan : Flo → Bool
  | .nan => true
  | _ => false

/-- A pattern that is NaN. -/
def Fmt.isNan (f : Fmt) (x : Nat) : Bool := decide (f.infMag < x % f.sgn)

/-- A float element as an instruction that returns operands reads it: FTZ applied, NaN canonical (R31, R32, R44). -/
def Fmt.read (f : Fmt) (ftz : Bool) (x : Nat) : Nat :=
  if f.isNan x then f.nan else if ftz && x % f.sgn < 2 ^ f.mb then x / f.sgn % 2 * f.sgn else x

/-- Order key of a pattern that is not NaN, with −0 below +0 (R137). -/
def Fmt.key (f : Fmt) (x : Nat) : Int := if x / f.sgn % 2 = 1 then -(x % f.sgn : Nat) - 1 else (x % f.sgn : Nat)

/-- Order key with −0 = +0 (R140). -/
def Fmt.cmpKey (f : Fmt) (x : Nat) : Int := if x / f.sgn % 2 = 1 then -(x % f.sgn : Nat) else (x % f.sgn : Nat)

/-! ### Element operations -/

/-- The arithmetic of R136. -/
inductive AOp where | add | sub | mul | fma | fms | fnma
deriving DecidableEq, Repr

/-- The exact float value of R136. -/
def AOp.flo (op : AOp) (rdn : Bool) (x y z : Flo) : Flo :=
  match op with
  | .add => x.add rdn y
  | .sub => x.add rdn y.neg
  | .mul => x.mul y
  | .fma => (x.mul y).add rdn z
  | .fms => (x.mul y).add rdn z.neg
  | .fnma => z.add rdn (x.mul y).neg

/-- The exact integer value of R136. -/
def AOp.int (op : AOp) (x y z : Int) : Int :=
  match op with
  | .add => x + y
  | .sub => x - y
  | .mul => x * y
  | .fma => x * y + z
  | .fms => x * y - z
  | .fnma => z - x * y

/-- One element of `add` to `fnma` under a mode word (R136). -/
def arith (op : AOp) (m : BitVec 16) (x y z : Nat) : Nat :=
  let et := etype m
  if isFlt et then
    let f := fmtOf et
    let rd := fun (v : Nat) => f.dec (ftzBit m) v
    f.round (rnd m) (satBit m) (ftzBit m) (op.flo (rnd m == 3) (rd x) (rd y) (rd z))
  else
    let n := elemBits et
    let sg := isSigned et
    intRes sg n (satBit m) (op.int (intVal sg n x) (intVal sg n y) (intVal sg n z))

/-- `min` and `max` of two elements (R137). -/
def minMax (mx : Bool) (m : BitVec 16) (x y : Nat) : Nat :=
  let et := etype m
  if isFlt et then
    let f := fmtOf et
    let a := f.read (ftzBit m) x
    let b := f.read (ftzBit m) y
    if f.isNan a || f.isNan b then f.nan
    else if (decide (f.key a < f.key b)) != mx then a else b
  else
    let n := elemBits et
    let sg := isSigned et
    if (decide (intVal sg n x < intVal sg n y)) != mx then x else y

/-- `abs` of an element (R136). -/
def absE (m : BitVec 16) (x : Nat) : Nat :=
  let et := etype m
  if isFlt et then
    let f := fmtOf et
    let a := f.read (ftzBit m) x
    if f.isNan a then f.nan else a % f.sgn
  else intRes (isSigned et) (elemBits et) (satBit m) (intVal (isSigned et) (elemBits et) x).natAbs

/-- `neg` of an element (R136). -/
def negE (m : BitVec 16) (x : Nat) : Nat :=
  let et := etype m
  if isFlt et then
    let f := fmtOf et
    let a := f.read (ftzBit m) x
    if f.isNan a then f.nan else (a + f.sgn) % (2 * f.sgn)
  else intRes (isSigned et) (elemBits et) (satBit m) (-(intVal (isSigned et) (elemBits et) x))

/-- The relations of R140. -/
inductive Rel where | eq | lt | le | un
deriving DecidableEq, Repr

/-- A relation between two elements (R140). -/
def Rel.holds (r : Rel) (m : BitVec 16) (x y : Nat) : Bool :=
  let et := etype m
  if isFlt et then
    let f := fmtOf et
    let a := f.read (ftzBit m) x
    let b := f.read (ftzBit m) y
    let un := f.isNan a || f.isNan b
    match r with
    | .eq => !un && f.cmpKey a == f.cmpKey b
    | .lt => !un && decide (f.cmpKey a < f.cmpKey b)
    | .le => !un && decide (f.cmpKey a ≤ f.cmpKey b)
    | .un => un
  else
    let a := intVal (isSigned et) (elemBits et) x
    let b := intVal (isSigned et) (elemBits et) y
    match r with
    | .eq => a == b
    | .lt => decide (a < b)
    | .le => decide (a ≤ b)
    | .un => false

/-- An exact value rounded to an integer in a mode: 2 up, 3 down (R141, R42). -/
def roundInt (rnd : Nat) (neg : Bool) (m : Nat) (e : Int) : Int :=
  let n := if 0 ≤ e then m * 2 ^ e.toNat else roundNat rnd neg m (-e).toNat
  if neg then -(n : Int) else n

/-- A finite float rounded to an integral float, sign of zero kept (R141). -/
def Flo.integral (rnd : Nat) : Flo → Flo
  | .num neg m e => .num neg (roundInt rnd neg m e).natAbs 0
  | x => x

/-- `floor`, `ceil`, `rnde` and `trunc` of an element (R141). -/
def integralE (mode : Nat) (m : BitVec 16) (x : Nat) : Nat :=
  let f := fmtOf (etype m)
  f.round 0 false false ((f.dec (ftzBit m) x).integral mode)

/-- `fract` (R141). -/
def fractE (m : BitVec 16) (x : Nat) : Nat :=
  let f := fmtOf (etype m)
  match f.dec (ftzBit m) x with
  | .num neg a e =>
    f.round (rnd m) false (ftzBit m) ((Flo.num neg a e).add (rnd m == 3) ((Flo.num neg a e).integral 3).neg)
  | _ => f.nan

/-- `copysign` (R142). -/
def copysignE (m : BitVec 16) (x y : Nat) : Nat :=
  let f := fmtOf (etype m)
  let a := f.read (ftzBit m) x
  if f.isNan a then f.nan else a % f.sgn + y / f.sgn % 2 * f.sgn

/-- `ldexp` (R146); y is a signed integer of the element's width. -/
def ldexpE (m : BitVec 16) (x y : Nat) : Nat :=
  let f := fmtOf (etype m)
  match f.dec (ftzBit m) x with
  | .num neg a e =>
    f.round (rnd m) (satBit m) (ftzBit m) (.num neg a (if a = 0 then e else e + intVal true (elemBits (etype m)) y))
  | v => f.round 0 false false v

/-- `dot2` of one lane, with F32 accumulation (R144). -/
def dot2E (m : BitVec 16) (x0 y0 x1 y1 z : Nat) : Nat :=
  let f := fmtOf (etype m)
  let rd := fun (v : Nat) => f.dec (ftzBit m) v
  let rdn := rnd m == 3
  f32.round (rnd m) (satBit m) (ftzBit m)
    ((((rd x0).mul (rd y0)).add rdn ((rd x1).mul (rd y1))).add rdn (f32.dec (ftzBit m) z))

/-- Leading zero bits of an `n`-bit value. -/
def leadingZeros (n x : Nat) : Nat := if x = 0 then n else n - 1 - Nat.log2 x
/-- Trailing zero bits of a value, `n` when none is set. -/
def trailingZeros (x : Nat) : Nat → Nat
  | 0 => 0
  | n + 1 => if x % 2 = 1 then 0 else 1 + trailingZeros (x / 2) n

/-! ### Correctly rounded functions (R151, R154) -/

/-- Integer square root, bit by bit from bit `k` down. -/
def isqrtFrom (n : Nat) : Nat → Nat → Nat
  | 0, r => r
  | k + 1, r => let t := r + 2 ^ k; isqrtFrom n k (if t * t ≤ n then t else r)

/-- Integer square root of a value below 2^140. -/
def isqrt (n : Nat) : Nat := isqrtFrom n 70 0

/-- The exact quotient with a sticky bit below its last bit. -/
def Flo.div : Flo → Flo → Flo
  | .nan, _ => .nan
  | _, .nan => .nan
  | .inf _, .inf _ => .nan
  | .inf a, .num b _ _ => .inf (a != b)
  | .num a _ _, .inf b => .num (a != b) 0 0
  | .num a m e, .num b n g =>
    if n = 0 then (if m = 0 then .nan else .inf (a != b))
    else
      let q := m * 2 ^ 64 / n
      .num (a != b) (if m = 0 then 0 else 2 * q + (if q * n = m * 2 ^ 64 then 0 else 1)) (e - g - 65)

/-- The square root with a sticky bit. -/
def Flo.sqrt : Flo → Flo
  | .nan => .nan
  | .inf neg => if neg then .nan else .inf false
  | .num neg m e =>
    if m = 0 then .num neg 0 0
    else if neg then .nan
    else
      let (m, e) := if e % 2 = 0 then (m, e) else (2 * m, e - 1)
      let r := isqrt (m * 2 ^ 64)
      .num false (2 * r + (if r * r = m * 2 ^ 64 then 0 else 1)) (e / 2 - 33)

/-- The reciprocal square root with a sticky bit. -/
def Flo.rsqrt : Flo → Flo
  | .nan => .nan
  | .inf neg => if neg then .nan else .num false 0 0
  | .num neg m e =>
    if m = 0 then .inf neg
    else if neg then .nan
    else
      let (m, e) := if e % 2 = 0 then (m, e) else (2 * m, e - 1)
      let r := isqrt (2 ^ 120 / m)
      .num false (2 * r + (if r * r * m = 2 ^ 120 then 0 else 1)) (-(e / 2) - 61)

/-- x − 2·rnde(x/2), computed exactly; from 2^23 on (2^7 in BF16, 2^10 in F16) the value x itself, also where R178 bounds an error there
(R153, R154; log entry 62). -/
def rredE (m : BitVec 16) (x : Nat) : Nat :=
  let f := fmtOf (etype m)
  match f.dec (ftzBit m) x with
  | .num neg a e =>
    if (f.mb : Int) ≤ (Nat.log2 a : Int) + e then x
    else
      let k := roundInt 0 neg a (e - 1)
      match (Flo.num neg a e).add false (Flo.num (decide (k < 0)) k.natAbs 1).neg with
      | .num s v q => f.round 0 false false (.num (if v = 0 then neg else s) v q)
      | v => f.round 0 false false v
  | _ => f.nan

/-! ### Tapered formats (R34 to R38) -/

/-- Length of the run of bits equal to `b` at the top of the low `n` bits of `m`. -/
def runLength (b : Bool) (m : Nat) : Nat → Nat
  | 0 => 0
  | n + 1 => if m.testBit n == b then 1 + runLength b m n else 0

/-- Magnitude of a tapered encoding of `n` bits below the sign: mantissa and exponent, without the bias (R34). -/
def taperMag (n es m : Nat) : Nat × Int :=
  let top := m.testBit (n - 1)
  let k := runLength top m n
  let q : Int := if top then (k : Int) - 1 else -k
  let left := n - min n (k + 1)
  let rest := m % 2 ^ left
  let e := if es ≤ left then rest / 2 ^ (left - es) else rest * 2 ^ (es - left)
  let nf := left - es
  let fr := rest % 2 ^ nf
  (2 ^ nf + fr, q * 2 ^ es + e - nf)

/-- Value of a tapered encoding of `w` bits (R34); NaR reads as NaN. -/
def taperDec (w es : Nat) (bias : Int) (x : Nat) : Flo :=
  let m := x % 2 ^ (w - 1)
  let s := x.testBit (w - 1)
  if m = 0 then (if s then .nan else .num false 0 0)
  else
    let (v, e) := taperMag (w - 1) es m
    .num s v (e + bias)

/-- F32 pattern of a tapered value (R37). -/
def taperToF32 (v : Flo) : Nat :=
  match v with
  | .num s m e =>
    if m = 0 then 0
    else
      let p := f32.round 0 true false (.num false m e)
      let big := min p 0x7F7FFFFF
      let tiny := (Nat.log2 m : Int) + e < -149
      (if s then 0x80000000 else 0) + (if tiny then 1 else big)
  | _ => 0x7FC00000

/-- Order of two magnitudes m × 2^e and n × 2^g. -/
def magLe (m : Nat) (e : Int) (n : Nat) (g : Int) : Bool :=
  let q := min e g
  decide (m * 2 ^ (e - q).toNat ≤ n * 2 ^ (g - q).toNat)

/-- The largest magnitude encoding not above a value, found from bit `k` down. -/
def taperFloor (n es : Nat) (m : Nat) (e : Int) : Nat → Nat → Nat
  | 0, r => r
  | k + 1, r =>
    let t := r + 2 ^ k
    let (v, g) := taperMag n es t
    taperFloor n es m e k (if magLe v g m e then t else r)

/-- Encoding of an exact value into a tapered format of `w` bits (R36). -/
def taperEnc (w es : Nat) (bias : Int) (saturate : Bool) : Flo → Nat
  | .nan => if saturate then 2 ^ (w - 1) - 1 else 2 ^ (w - 1)
  | .inf s => if saturate then (if s then 2 ^ (w - 1) else 0) + (2 ^ (w - 1) - 1) else 2 ^ (w - 1)
  | .num s m e =>
    if m = 0 then 0
    else
      let n := w - 1
      let e := e - bias
      let sb := if s then 2 ^ n else 0
      let lo := taperFloor n es m e n 0
      if lo = 2 ^ n - 1 then
        let (v, g) := taperMag n es lo
        if magLe m e v g then sb + lo
        else if saturate then sb + lo else 2 ^ n
      else if lo = 0 then sb + 1
      else
        let (v, g) := taperMag n es lo
        let (u, h) := taperMag n es (lo + 1)
        let q := min (min g h) e
        let twice := 2 * m * 2 ^ (e - q).toNat
        let mid := v * 2 ^ (g - q).toNat + u * 2 ^ (h - q).toNat
        sb + (if twice < mid || (twice = mid && lo % 2 = 0) then lo else lo + 1)

/-! ### Format slots and conversions (R39 to R42) -/

/-- FORMAT of a slot. -/
def fsFormat (fs : W64) : Nat := fs.toNat % 16
/-- ES of a slot. -/
def fsEs (fs : W64) : Nat := fs.toNat / 16 % 4
/-- BIAS of a slot, signed. -/
def fsBias (fs : W64) : Int := intVal true 8 (fs.toNat / 256 % 256)
/-- SATURATE of a slot. -/
def fsSat (fs : W64) : Bool := fs.getLsbD 16

/-- Bits of an element of a slot's format. -/
def fsBits (fs : W64) : Nat :=
  match fsFormat fs with
  | 0 => 16 | 1 => 16 | 3 => 6 | 6 => 32 | _ => 8

/-- Elements of a lane in a slot's format (R148). -/
def fsElems (fs : W64) : Nat :=
  match fsFormat fs with
  | 0 => 2 | 1 => 2 | 3 => 5 | 6 => 1 | _ => 4

/-- Exact value of an element of a slot's format; 16-bit floats and F32 as they are, tapered by R34, integers exactly. -/
def fsValue (fs : W64) (x : Nat) : Flo :=
  match fsFormat fs with
  | 0 => bf16.dec false x
  | 1 => f16.dec false x
  | 2 => taperDec 8 (fsEs fs) (fsBias fs) x
  | 3 => taperDec 6 (fsEs fs) (fsBias fs) x
  | 4 => let v := intVal true 8 x; .num (decide (v < 0)) v.natAbs 0
  | 5 => .num false x 0
  | _ => f32.dec false x

/-- F32 pattern of an element of a slot's format (R42, R37), a 16-bit float under FTZ (R41); an F32 slot moves the pattern (R148). -/
def fsToF32 (fs : W64) (ftz : Bool) (x : Nat) : Nat :=
  match fsFormat fs with
  | 0 => f32.round 0 false ftz (bf16.dec ftz x)
  | 1 => f32.round 0 false ftz (f16.dec ftz x)
  | 2 => taperToF32 (fsValue fs x)
  | 3 => taperToF32 (fsValue fs x)
  | 6 => x
  | _ => f32.round 0 false false (fsValue fs x)

/-- A float value converted to an integer type: rounded in the mode, clamped, NaN gives 0 (R42). -/
def floToInt (signed : Bool) (n rnd : Nat) : Flo → Nat
  | .nan => 0
  | .inf neg => wrapInt n (if neg then intMin signed n else intMax signed n)
  | .num neg m e =>
    if (n : Int) + 2 < (Nat.log2 m : Int) + e then wrapInt n (if neg then intMin signed n else intMax signed n)
    else wrapInt n (clampInt signed n (roundInt rnd neg m e))

/-- An F32 pattern encoded into a slot's format, with a rounding mode and FTZ (R41, R42, R148); an F32 slot moves the
pattern. -/
def f32ToFs (fs : W64) (rnd : Nat) (ftz : Bool) (x : Nat) : Nat :=
  match fsFormat fs with
  | 0 => bf16.round rnd (fsSat fs) ftz (f32.dec ftz x)
  | 1 => f16.round rnd (fsSat fs) ftz (f32.dec ftz x)
  | 2 => taperEnc 8 (fsEs fs) (fsBias fs) (fsSat fs) (f32.dec false x)
  | 3 => taperEnc 6 (fsEs fs) (fsBias fs) (fsSat fs) (f32.dec false x)
  | 4 => floToInt true 8 rnd (f32.dec ftz x)
  | 5 => floToInt false 8 rnd (f32.dec ftz x)
  | _ => x

/-- One element converted between two element types (R42, R147). -/
def convertE (m : BitVec 16) (ef et x : Nat) : Nat :=
  let ftz := ftzBit m
  if isFlt ef then
    let v := (fmtOf ef).dec ftz x
    if isFlt et then (fmtOf et).round (rnd m) (satBit m) ftz v
    else floToInt (isSigned et) (elemBits et) (rnd m) v
  else
    let v := intVal (isSigned ef) (elemBits ef) x
    if isFlt et then (fmtOf et).round (rnd m) (satBit m) ftz (.num (decide (v < 0)) v.natAbs 0)
    else intRes (isSigned et) (elemBits et) (satBit m) v

end Sys2Proof.Machine
end

