-- ==== Sys2Proof/Machine/Scalar.lean ====
section
/-! DEFINITION. The scalar instructions 0x20 to 0x3D (R131 to R134): 64-bit, wrapping, independent of GMODE and EM. -/

namespace Sys2Proof.Machine

open Sys2Proof

/-- A scalar instruction of class f: S[d] becomes a function of the context (R131). -/
def scalarOp (i : Instr) (d : BitVec 8) (f : Ctx → W64) (s : State) : Host.Outcome State Fault Refusal :=
  issue i s fun c s => .ok (c.mod s fun g => g.resultS d (f c))

/-- Value of D where an effect reads it; `#0` reads 0 (R131). -/
def Ctx.sD (c : Ctx) (d : BitVec 8) : W64 := c.s d

/-- Low bit and length of the field of R133. -/
def fieldOf (b : W64) : Nat × Nat :=
  let lo := bits b.toNat 5 0
  let w := min (bits b.toNat 14 8) 64
  (lo, min (lo + w) 64 - lo)

/-- `f` low bits set. -/
def lowMask (f : Nat) : W64 := BitVec.ofNat 64 (2 ^ f - 1)

/-- `sbfe` (R133). -/
def bitField (a b : W64) : W64 := (a >>> (fieldOf b).1) &&& lowMask (fieldOf b).2

/-- `sbfi` (R133): `z` with the field replaced. -/
def bitInsert (z a b : W64) : W64 :=
  let m := lowMask (fieldOf b).2 <<< (fieldOf b).1
  (z &&& ~~~ m) ||| ((a <<< (fieldOf b).1) &&& m)

/-- `sadd` (R132). -/
def execSadd (d a b : BitVec 8) (s : State) : Host.Outcome State Fault Refusal :=
  scalarOp (.sadd d a b) d (fun c => let a := c.s a; let b := c.s b; a + b) s

/-- `ssub` (R132). -/
def execSsub (d a b : BitVec 8) (s : State) : Host.Outcome State Fault Refusal :=
  scalarOp (.ssub d a b) d (fun c => let a := c.s a; let b := c.s b; a - b) s

/-- `smul` (R132). -/
def execSmul (d a b : BitVec 8) (s : State) : Host.Outcome State Fault Refusal :=
  scalarOp (.smul d a b) d (fun c => let a := c.s a; let b := c.s b; a * b) s

/-- `smulh` (R132). -/
def execSmulh (d a b : BitVec 8) (s : State) : Host.Outcome State Fault Refusal :=
  scalarOp (.smulh d a b) d (fun c => let a := c.s a; let b := c.s b; BitVec.ofInt 64 (a.toInt * b.toInt / 2 ^ 64)) s

/-- `smulhu` (R132). -/
def execSmulhu (d a b : BitVec 8) (s : State) : Host.Outcome State Fault Refusal :=
  scalarOp (.smulhu d a b) d (fun c => let a := c.s a; let b := c.s b; BitVec.ofNat 64 (a.toNat * b.toNat / 2 ^ 64)) s

/-- `sdivu` (R132). -/
def execSdivu (d a b : BitVec 8) (s : State) : Host.Outcome State Fault Refusal :=
  scalarOp (.sdivu d a b) d (fun c => let a := c.s a; let b := c.s b; if b = 0 then -1 else a / b) s

/-- `sremu` (R132). -/
def execSremu (d a b : BitVec 8) (s : State) : Host.Outcome State Fault Refusal :=
  scalarOp (.sremu d a b) d (fun c => let a := c.s a; let b := c.s b; if b = 0 then a else a % b) s

/-- `sand` (R132). -/
def execSand (d a b : BitVec 8) (s : State) : Host.Outcome State Fault Refusal :=
  scalarOp (.sand d a b) d (fun c => let a := c.s a; let b := c.s b; a &&& b) s

/-- `sor` (R132). -/
def execSor (d a b : BitVec 8) (s : State) : Host.Outcome State Fault Refusal :=
  scalarOp (.sor d a b) d (fun c => let a := c.s a; let b := c.s b; a ||| b) s

/-- `sxor` (R132). -/
def execSxor (d a b : BitVec 8) (s : State) : Host.Outcome State Fault Refusal :=
  scalarOp (.sxor d a b) d (fun c => let a := c.s a; let b := c.s b; a ^^^ b) s

/-- `sandn` (R132). -/
def execSandn (d a b : BitVec 8) (s : State) : Host.Outcome State Fault Refusal :=
  scalarOp (.sandn d a b) d (fun c => let a := c.s a; let b := c.s b; a &&& ~~~ b) s

/-- `sshl` (R132). -/
def execSshl (d a b : BitVec 8) (s : State) : Host.Outcome State Fault Refusal :=
  scalarOp (.sshl d a b) d (fun c => let a := c.s a; let b := c.s b; a <<< (b.toNat % 64)) s

/-- `sshr` (R132). -/
def execSshr (d a b : BitVec 8) (s : State) : Host.Outcome State Fault Refusal :=
  scalarOp (.sshr d a b) d (fun c => let a := c.s a; let b := c.s b; a >>> (b.toNat % 64)) s

/-- `ssar` (R132). -/
def execSsar (d a b : BitVec 8) (s : State) : Host.Outcome State Fault Refusal :=
  scalarOp (.ssar d a b) d (fun c => let a := c.s a; let b := c.s b; a.sshiftRight (b.toNat % 64)) s

/-- `smin` (R132). -/
def execSmin (d a b : BitVec 8) (s : State) : Host.Outcome State Fault Refusal :=
  scalarOp (.smin d a b) d (fun c => let a := c.s a; let b := c.s b; if a.slt b then a else b) s

/-- `smax` (R132). -/
def execSmax (d a b : BitVec 8) (s : State) : Host.Outcome State Fault Refusal :=
  scalarOp (.smax d a b) d (fun c => let a := c.s a; let b := c.s b; if a.slt b then b else a) s

/-- `sminu` (R132). -/
def execSminu (d a b : BitVec 8) (s : State) : Host.Outcome State Fault Refusal :=
  scalarOp (.sminu d a b) d (fun c => let a := c.s a; let b := c.s b; if a.ult b then a else b) s

/-- `smaxu` (R132). -/
def execSmaxu (d a b : BitVec 8) (s : State) : Host.Outcome State Fault Refusal :=
  scalarOp (.smaxu d a b) d (fun c => let a := c.s a; let b := c.s b; if a.ult b then b else a) s

/-- `seq` (R132). -/
def execSeq (d a b : BitVec 8) (s : State) : Host.Outcome State Fault Refusal :=
  scalarOp (.seq d a b) d (fun c => let a := c.s a; let b := c.s b; if a = b then 1 else 0) s

/-- `slt` (R132). -/
def execSlt (d a b : BitVec 8) (s : State) : Host.Outcome State Fault Refusal :=
  scalarOp (.slt d a b) d (fun c => let a := c.s a; let b := c.s b; if a.slt b then 1 else 0) s

/-- `sltu` (R132). -/
def execSltu (d a b : BitVec 8) (s : State) : Host.Outcome State Fault Refusal :=
  scalarOp (.sltu d a b) d (fun c => let a := c.s a; let b := c.s b; if a.ult b then 1 else 0) s

/-- `ssel` (R132): a bitwise select under s29. -/
def execSsel (d a b : BitVec 8) (s : State) : Host.Outcome State Fault Refusal :=
  scalarOp (.ssel d a b) d (fun c => (c.s a &&& c.grp.sreg 29) ||| (c.s b &&& ~~~ c.grp.sreg 29)) s

/-- `sbfe` (R133). -/
def execSbfe (d a b : BitVec 8) (s : State) : Host.Outcome State Fault Refusal :=
  scalarOp (.sbfe d a b) d (fun c => bitField (c.s a) (c.s b)) s

/-- `sbfi` (R133). -/
def execSbfi (d a b : BitVec 8) (s : State) : Host.Outcome State Fault Refusal :=
  scalarOp (.sbfi d a b) d (fun c => bitInsert (c.sD d) (c.s a) (c.s b)) s

/-- `spopc` (R134). -/
def execSpopc (d a : BitVec 8) (s : State) : Host.Outcome State Fault Refusal :=
  scalarOp (.spopc d a) d (fun c => BitVec.ofNat 64 (popc (c.s a).toNat 64)) s

/-- `sclz` (R134). -/
def execSclz (d a : BitVec 8) (s : State) : Host.Outcome State Fault Refusal :=
  scalarOp (.sclz d a) d (fun c => BitVec.ofNat 64 (leadingZeros 64 (c.s a).toNat)) s

/-- `sctz` (R134). -/
def execSctz (d a : BitVec 8) (s : State) : Host.Outcome State Fault Refusal :=
  scalarOp (.sctz d a) d (fun c => BitVec.ofNat 64 (trailingZeros (c.s a).toNat 64)) s

/-- `smov` (R134). -/
def execSmov (d a : BitVec 8) (s : State) : Host.Outcome State Fault Refusal :=
  scalarOp (.smov d a) d (fun c => c.s a) s

/-- `smovi` (R134). -/
def execSmovi (d : BitVec 8) (i : BitVec 16) (s : State) : Host.Outcome State Fault Refusal :=
  scalarOp (.smovi d i) d (fun _ => i.signExtend 64) s

/-- `smovh` (R134). -/
def execSmovh (d : BitVec 8) (i : BitVec 16) (s : State) : Host.Outcome State Fault Refusal :=
  scalarOp (.smovh d i) d (fun c => (c.sD d <<< 16) ||| i.setWidth 64) s

end Sys2Proof.Machine
end

