-- ==== Sys2Proof/Machine/Events.lean ====
section
/-! DEFINITION. The row of the opcode table that an event is the input of. -/

namespace Sys2Proof.Machine

open Sys2Proof

/-- The step without a word that an input belongs to (95_what_each_step_holds). -/
def eventInstr : Event → Instr
  | .clauseFetch _ => .clauseFetch
  | .clauseStart _ => .clauseStart
  | .operationCompletion _ _ _ => .operationCompletion
  | .groupSwap _ _ _ => .groupSwap
  | .groupExitDrain _ => .groupExitDrain
  | .shareGrant _ _ _ => .shareGrant
  | .pageWalkComplete _ _ _ => .pageWalkComplete
  | .faultRecordDelivery _ => .faultRecordDelivery
  | .stashRecall _ _ _ => .stashRecall
  | .blockedAccessResume _ => .blockedAccessResume
  | .copyEngineComplete _ => .copyEngineComplete
  | .leaseExpiry _ _ => .leaseExpiry
  | .postedStoreArrival _ => .postedStoreArrival
  | .bwaitSatisfied _ => .bwaitSatisfied
  | .ticketDrawResume _ => .ticketDrawResume
  | .matrixOpComplete _ _ _ => .matrixOpComplete
  | .transferStart _ => .transferStart
  | .chunkArrival _ _ _ _ _ => .chunkArrival
  | .trailerArrival _ _ _ _ _ => .trailerArrival
  | .nackArrival _ _ _ _ _ => .nackArrival
  | .ackArrival _ _ _ _ => .ackArrival
  | .absentRetryTimer _ _ => .absentRetryTimer
  | .reseedArrival _ _ _ => .reseedArrival
  | .flowCloseComplete _ => .flowCloseComplete
  | .tcopyCreditGrant _ => .tcopyCreditGrant
  | .ringLineReport _ _ => .ringLineReport
  | .descriptorReceive _ _ _ _ => .descriptorReceive
  | .contribEntryHead _ => .contribEntryHead
  | .collectiveComplete _ _ _ => .collectiveComplete
  | .capacityClaim _ => .capacityClaim
  | .claimReply _ => .claimReply
  | .taskCommit _ => .taskCommit
  | .trapDelivery _ => .trapDelivery
  | .deferredTrapTake _ => .deferredTrapTake
  | .stopComplete _ => .stopComplete
  | .maskedHoldTimeout _ => .maskedHoldTimeout
  | .contextRestore _ _ => .contextRestore
  | .sealArrival _ _ _ _ _ => .sealArrival
  | .mailboxFieldStore _ _ _ _ _ => .mailboxFieldStore
  | .hostMailboxWrite _ _ _ _ => .hostMailboxWrite
  | .outboundPhaseAdvance _ _ => .outboundPhaseAdvance
  | .teamDispatch _ => .teamDispatch
  | .retirementComplete _ _ => .retirementComplete
  | .compensatorLaunch _ => .compensatorLaunch
  | .compensatorRetire _ => .compensatorRetire
  | .paveCommandStart _ => .paveCommandStart
  | .paveCommandComplete _ => .paveCommandComplete
  | .paveFillComplete _ => .paveFillComplete
  | .rehashSweepComplete _ => .rehashSweepComplete
  | .unitScrubComplete _ => .unitScrubComplete
  | .keyDrawComplete _ _ => .keyDrawComplete
  | .generatorRetest _ => .generatorRetest
  | .hostMemWrite _ _ => .hostMemWrite
  | .hostMemRead _ _ => .hostMemRead
  | .auditRecordDelivery _ _ => .auditRecordDelivery
  | .mcmdLock => .mcmdLock
  | .mcmdRun _ => .mcmdRun
  | .mcmdDrawOpenKey _ => .mcmdDrawOpenKey
  | .bar0Write _ _ _ => .bar0Write
  | .throttleStep _ _ _ => .throttleStep
  | .coldReset _ _ => .coldReset
  | .warmReset _ => .warmReset
  | .bar0Read _ _ => .bar0Read

end Sys2Proof.Machine
end

