-- ==== Sys2Proof/Machine/Sched.lean ====
section
/-! DEFINITION. What happens next (log entry 1): which group may issue, the choice a step makes when the agenda is empty,
the issue of a word, and the placing of one instruction for `withFetchWord` (log entry 4). -/

namespace Sys2Proof.Machine

open Sys2Proof

/-- An outstanding class-a operation writes a register at or above `n` (R127). -/
def Group.writesAbove (g : Group) (n : Nat) : Bool :=
  g.ops.any fun o => o.dest.any fun d => match d with
    | .vec code _ _ _ => decide (n ≤ code.toNat) && decide (code.toNat < 0xC0)
    | .scal _ _ => false

/-- The tile that a queued operation writes. -/
def MWhat.writes : MWhat → Option Nat
  | .tzero t => some t
  | .mma t _ _ => some t
  | .tld t _ => some t
  | .tst _ _ _ _ => none
  | .tcvt t _ _ _ _ => some t
  | .tcolr _ _ => none
  | .tcolw t _ _ => some t
  | .stest t => some t
  | .tscale t _ _ => some t
  | .coll t _ => some t

/-- A queued operation writes a tile at or above `n` (R127). -/
def Group.tileWriter (g : Group) (n : Nat) : Bool := g.mq.any fun m => m.what.writes.any fun t => decide (n ≤ t)

/-- What a group waits for has happened, for the waits that no event of the table ends: the instruction issues again and
tests for itself. -/
def waitOver (s : State) (r : GRef) (g : Group) : Bool :=
  match g.wait with
  | .none => true
  | .count f => g.flagCount f < 63
  | .queue => g.mq.length < 8
  | .leader => (match s.group? r.leader with | some ld => ld.bnd != .passed | none => true)
  | .mfence => g.mq.isEmpty
  | .shrink tiles lo => if tiles then !g.tileWriter lo else !g.writesAbove lo
  | .posted scope => !s.hasPosted r scope
  | .fill f => !s.filling f
  | .draw o => (match s.drawInTurn r o 0 with | .ticket _ _ => true | .wait => false)
  | .side => (match s.group? r.leader with | some ld => !ld.side.isEmpty | none => false)
  | .ckpt => g.ops.all fun o => !o.ck
  | .lvq => if r.sh then (match s.group? r.leader with
      | some ld => (match ld.lvq with | e :: _ => e.filled | [] => false)
      | none => false) else g.lvq.length < 8
  | _ => false

/-- A shadow is parked while its leader is TRAPPED (R292). -/
def State.shadowParked (s : State) (r : GRef) : Bool := r.sh && (s.group? r.leader).any fun g => g.life == .trapped

/-- The kernel of a team saves registers in full at a stop (R78, R299). -/
def Kernel.nonRewindable (k : Kernel) : Bool := recRecipes k.record == 0

/-- A team that is on its core. -/
def Team.onCore (t : Team) : Bool := !t.ended && (t.ctx == .running || t.ctx == .stopping)

/-- The team's context lets the group go on (R298 to R300): it is RUNNING; or it is STOPPING and the group holds the stop
masked, or, in a non-rewindable kernel, is inside a clause (`mid`). -/
def State.goesOn (s : State) (t : Team) (g : Group) (mid : Bool) : Bool :=
  !t.ended && (t.ctx == .running || (t.ctx == .stopping && ((g.masked && !g.halted) ||
    (mid && (s.kernel? t.bezel t.kslot).any Kernel.nonRewindable))))

/-- The group's next instruction may issue (R50, R88, R99, R292): it is in the active set, its clause has started and it
waits for nothing. -/
def State.mayIssue (s : State) (r : GRef) : Bool :=
  match s.team? r.team, s.group? r with
  | some t, some g =>
    !s.shadowParked r && g.inSet && (g.life == .active || g.life == .trapped) && s.goesOn t g true && waitOver s r g &&
    g.deferredTrap.isNone && g.pend.isNone &&
    (match g.clause with | some c => c.started && c.idx < c.words.length | none => false)
  | _, _ => false

/-- The trap that a word without a meaning raises (R55, R57, R60 to R63): PRIV comes before the checks of the word. -/
def undecodedTrap (c : Ctx) (w : W32) : DecodeError → Nat
  | .reservedOpcode => ILLOP
  | .filler => if isPrivileged (w.extractLsb' 24 8) && !recSuper c.kern.record then PRIV else ILLOP
  | .reservedValue => if isPrivileged (w.extractLsb' 24 8) && !recSuper c.kern.record then PRIV else ILLOP
  | .tileField => if isPrivileged (w.extractLsb' 24 8) && !recSuper c.kern.record then PRIV else ILLOPERAND

/-- A word that the decoder refuses traps (R60). -/
def undecoded (s : State) (c : Ctx) (w : W32) (e : DecodeError) : State :=
  s.raise c (undecodedTrap c w e) 0 0 c.here

/-- Every group and shadow group by name. -/
def State.refs (s : State) : List GRef :=
  s.teams.flatMap fun t =>
    (List.range t.groups.length).map (fun i => ({ team := t.sid, grp := i } : GRef)) ++
    (List.range t.shadows.length).map (fun i => ({ team := t.sid, grp := i, sh := true } : GRef))

/-! ### Placing one instruction (log entry 4) -/

/-- The launch record of the kernel that runs a placed instruction: a grid of one team of one group with 16 vector
registers and one tile, PRELOAD 0, no handler, SUPER. -/
def placedRecord : List Byte :=
  List.replicate 8 0 ++ leBytes (1 + 2 ^ 21 + 2 ^ 42) 8 ++ List.replicate 48 0
    ++ leBytes (1 + 16 * 2 ^ 8 + 16 * 2 ^ 16 + 2 ^ 24 + 2 ^ 32) 8 ++ List.replicate 24 0
    ++ leBytes (2 ^ 8) 8 ++ leBytes (2 ^ 35) 8 ++ List.replicate 144 0

/-- A fetched clause that holds the one word, with four literals of 0. -/
def placedClause (w : W32) : Clause :=
  { hdr := 0, head := 0, words := [w], lits := [0, 0, 0, 0], slot := .a, started := true }

/-- A group that issues the word next. -/
def placedGroup (w : W32) : Group :=
  { life := .active, inSet := true, vmax := 16, tmax := 1, v := List.replicate 16 {}, t := [{}],
    ver := { allocStart := 16, tilesStart := 1 }, clause := some (placedClause w) }

/-- The kernel of a placed instruction. -/
def placedKernel (slot : Nat) : Kernel :=
  { slot := slot, seq := 1, st := .running, record := placedRecord, recAddr := 0 }

/-- The state with a resident bezel, kernel, team and group added whose next instruction is `w`. -/
def State.placeFresh (s : State) (w : W32) : State :=
  let b : Bezel := { num := 0, st := .active, cfg := List.replicate 64 0, operator := true, kernels := [placedKernel 0] }
  let t : Team := { sid := s.nextSid, bezel := 0, kslot := 0, kseq := 1, tid := 0, core := 0, groups := [placedGroup w] }
  { s with bezels := b :: s.bezels.filter (fun x => x.num != 0), teams := t :: s.teams, nextSid := s.nextSid + 1,
           agenda := .issue { team := s.nextSid, grp := 0 } :: s.agenda }

/-- The pavé engine of channel 0 with word `w` next, for a command of one set. -/
def State.placePave (s : State) (w : W32) : State :=
  let by_ : Issuer := { g := { team := 0, grp := 0 }, pc := {}, op := none, bezel := 0, kslot := 0, handle := 0, key := 0, core := 0 }
  let c : PvCmd := { id := s.nextCmd, by_ := by_, record := List.replicate 128 0, fslot := 0, vec := [], first := 0, count := 1,
                     pagePa := 0, leaf := { raw := 0, level := 2 } }
  let e : PvEngine := { chan := 0, st := .running, cur := some s.nextCmd, word := w }
  { s with pvCmds := c :: s.pvCmds, nextCmd := s.nextCmd + 1,
           engines := e :: s.engines.filter (fun x => x.chan != 0), agenda := .pave 0 :: s.agenda }

/-- The group that a step would issue, with the word put in its clause in place of the instruction it is at. -/
def State.placeIn (s : State) (r : GRef) (w : W32) : State :=
  s.modGroup r fun g => g.modClause fun c => { c with words := c.words.set c.idx w }

/-- The state whose next step fetches and runs the word. -/
def State.placeInstr (s : State) (w : W32) : State :=
  match decode w with
  | .ok _ =>
    (match s.agenda with
     | .issue r :: _ => if s.mayIssue r then s.placeIn r w else s.placeFresh w
     | _ => s.placeFresh w)
  | .error _ =>
    (match decodePave w with
     | some _ => s.placePave w
     | none => s.placeFresh w)

end Sys2Proof.Machine
end

