-- ==== Sys2Proof/Machine/Vector.lean ====
section
/-! DEFINITION. The vector instructions 0x40 to 0x68 (R130, R135 to R146), with the tags of their results (R116). -/

namespace Sys2Proof.Machine

open Sys2Proof

/-! ### Shared forms -/

/-- A class-f vector result: lane `i` of EM receives `f i` (R130, R117, R119). -/
def vecRes (c : Ctx) (s : State) (d : BitVec 8) (tag : Tag) (f : Nat → W32) : Res :=
  .ok (c.mod s fun g => g.resultV d c.em tag (Lanes.of f))

/-- An instruction issued under an element type outside its set traps ILLOP (R135, R60). -/
def typed (c : Ctx) (ok : Nat → Bool) (k : Res) : Res := if ok (etype c.grp.gmode) then k else .error (.trap ILLOP)

/-- Every source read is U (R116). -/
def uniTag (l : List VReg) : Tag := if l.all fun r => r.tag == .u then .u else .g

/-- The rows of R116 that give A apply: I32 or N32, and SAT 0. -/
def affineMode (m : BitVec 16) : Bool := etype m ≤ 1 && !satBit m

/-- Tag of `add` and `sub` (R116). -/
def sumTag (m : BitVec 16) (a b : VReg) : Tag :=
  if a.tag == .u && b.tag == .u then .u
  else if affineMode m && a.tag != .g && b.tag != .g then .a else .g

/-- Tag of `mul` (R116). -/
def mulTag (m : BitVec 16) (a b : VReg) : Tag :=
  if a.tag == .u && b.tag == .u then .u
  else if affineMode m && ((a.tag == .a && b.tag == .u) || (a.tag == .u && b.tag == .a)) then .a else .g

/-- Tag of `mov` (R116). -/
def movTag (m : BitVec 16) (a : VReg) : Tag := if a.tag == .u then .u else if affineMode m && a.tag == .a then .a else .g

/-- An element-wise lane operation on one source. -/
def lane1 (et : Nat) (f : Nat → Nat) (x : W32) : W32 := ofElems et fun j => f (elem et x j)
/-- On two sources. -/
def lane2 (et : Nat) (f : Nat → Nat → Nat) (x y : W32) : W32 := ofElems et fun j => f (elem et x j) (elem et y j)
/-- On three sources. -/
def lane3 (et : Nat) (f : Nat → Nat → Nat → Nat) (x y z : W32) : W32 :=
  ofElems et fun j => f (elem et x j) (elem et y j) (elem et z j)

/-- Every element type. -/
def allTypes : Nat → Bool := fun _ => true

/-- A vector instruction with one source, element by element under the mode word. -/
def vec1 (i : Instr) (d a : BitVec 8) (ok : Nat → Bool) (f : BitVec 16 → Nat → Nat) (s : State) :
    Host.Outcome State Fault Refusal :=
  issue i s fun c s => typed c ok <|
    let m := c.grp.gmode
    let x := c.v a
    vecRes c s d (uniTag [x]) fun i => lane1 (etype m) (f m) (x.l.lane i)

/-- A vector instruction with two sources. -/
def vec2 (i : Instr) (d a b : BitVec 8) (ok : Nat → Bool) (tag : BitVec 16 → VReg → VReg → Tag)
    (f : BitVec 16 → Nat → Nat → Nat) (s : State) : Host.Outcome State Fault Refusal :=
  issue i s fun c s => typed c ok <|
    let m := c.grp.gmode
    let x := c.v a
    let y := c.v b
    vecRes c s d (tag m x y) fun i => lane2 (etype m) (f m) (x.l.lane i) (y.l.lane i)

/-- A vector instruction that also reads D. -/
def vec3 (i : Instr) (d a b : BitVec 8) (ok : Nat → Bool) (f : BitVec 16 → Nat → Nat → Nat → Nat) (s : State) :
    Host.Outcome State Fault Refusal :=
  issue i s fun c s => typed c ok <|
    let m := c.grp.gmode
    let x := c.v a
    let y := c.v b
    let z := c.v d
    vecRes c s d (uniTag [x, y, z]) fun i => lane3 (etype m) (f m) (x.l.lane i) (y.l.lane i) (z.l.lane i)

/-- A lane operation on whole 32-bit patterns with two sources. -/
def vecBits (i : Instr) (d a b : BitVec 8) (ok : Nat → Bool) (f : BitVec 16 → W32 → W32 → W32) (s : State) :
    Host.Outcome State Fault Refusal :=
  issue i s fun c s => typed c ok <|
    let x := c.v a
    let y := c.v b
    vecRes c s d (uniTag [x, y]) fun i => f c.grp.gmode (x.l.lane i) (y.l.lane i)

/-- A compare (R140): the mask of lanes of EM whose elements satisfy the relation. -/
def vecCmp (i : Instr) (d a b : BitVec 8) (f : BitVec 16 → W32 → W32 → Bool) (s : State) :
    Host.Outcome State Fault Refusal :=
  issue i s fun c s =>
    let x := c.v a
    let y := c.v b
    let m := maskOf fun i => c.em.getLsbD i && f c.grp.gmode (x.l.lane i) (y.l.lane i)
    .ok (c.mod s fun g => g.resultS d (m.setWidth 64))

/-- The relation holds for every element of the lane (R140). -/
def allElems (r : Rel) (m : BitVec 16) (x y : W32) : Bool :=
  (List.range (elemCount (etype m))).all fun j => r.holds m (elem (etype m) x j) (elem (etype m) y j)

/-- Some element pair of the lane is unordered (R140). -/
def anyUnordered (m : BitVec 16) (x y : W32) : Bool :=
  (List.range (elemCount (etype m))).any fun j => Rel.un.holds m (elem (etype m) x j) (elem (etype m) y j)

/-! ### Arithmetic (R136, R137) -/

/-- `add` (R136). -/
def execAdd (d a b : BitVec 8) (s : State) : Host.Outcome State Fault Refusal :=
  vec2 (.add d a b) d a b allTypes sumTag (fun m x y => arith .add m x y 0) s

/-- `sub` (R136). -/
def execSub (d a b : BitVec 8) (s : State) : Host.Outcome State Fault Refusal :=
  vec2 (.sub d a b) d a b allTypes sumTag (fun m x y => arith .sub m x y 0) s

/-- `mul` (R136). -/
def execMul (d a b : BitVec 8) (s : State) : Host.Outcome State Fault Refusal :=
  vec2 (.mul d a b) d a b allTypes mulTag (fun m x y => arith .mul m x y 0) s

/-- `fma` (R136). -/
def execFma (d a b : BitVec 8) (s : State) : Host.Outcome State Fault Refusal :=
  vec3 (.fma d a b) d a b allTypes (arith .fma) s

/-- `fms` (R136). -/
def execFms (d a b : BitVec 8) (s : State) : Host.Outcome State Fault Refusal :=
  vec3 (.fms d a b) d a b allTypes (arith .fms) s

/-- `fnma` (R136). -/
def execFnma (d a b : BitVec 8) (s : State) : Host.Outcome State Fault Refusal :=
  vec3 (.fnma d a b) d a b allTypes (arith .fnma) s

/-- `min` (R137). -/
def execMin (d a b : BitVec 8) (s : State) : Host.Outcome State Fault Refusal :=
  vec2 (.min d a b) d a b allTypes (fun _ a b => uniTag [a, b]) (minMax false) s

/-- `max` (R137). -/
def execMax (d a b : BitVec 8) (s : State) : Host.Outcome State Fault Refusal :=
  vec2 (.max d a b) d a b allTypes (fun _ a b => uniTag [a, b]) (minMax true) s

/-- `abs` (R136). -/
def execAbs (d a : BitVec 8) (s : State) : Host.Outcome State Fault Refusal :=
  vec1 (.abs d a) d a allTypes absE s

/-- `neg` (R136). -/
def execNeg (d a : BitVec 8) (s : State) : Host.Outcome State Fault Refusal :=
  vec1 (.neg d a) d a allTypes negE s

/-- `mov` (R135, R116): 32-bit patterns, never inspected. -/
def execMov (d a : BitVec 8) (s : State) : Host.Outcome State Fault Refusal :=
  issue (.mov d a) s fun c s =>
    let x := c.v a
    vecRes c s d (movTag c.grp.gmode x) fun i => x.l.lane i

/-! ### Bitwise and shifts (R138) -/

/-- `and` (R138). -/
def execAnd (d a b : BitVec 8) (s : State) : Host.Outcome State Fault Refusal :=
  vecBits (.and d a b) d a b allTypes (fun _ x y => x &&& y) s

/-- `or` (R138). -/
def execOr (d a b : BitVec 8) (s : State) : Host.Outcome State Fault Refusal :=
  vecBits (.or d a b) d a b allTypes (fun _ x y => x ||| y) s

/-- `xor` (R138). -/
def execXor (d a b : BitVec 8) (s : State) : Host.Outcome State Fault Refusal :=
  vecBits (.xor d a b) d a b allTypes (fun _ x y => x ^^^ y) s

/-- `not` (R138). -/
def execNot (d a : BitVec 8) (s : State) : Host.Outcome State Fault Refusal :=
  issue (.not d a) s fun c s =>
    let x := c.v a
    vecRes c s d (uniTag [x]) fun i => ~~~ x.l.lane i

/-- `shl` (R138). -/
def execShl (d a b : BitVec 8) (s : State) : Host.Outcome State Fault Refusal :=
  vec2 (.shl d a b) d a b isInt (fun _ a b => uniTag [a, b]) (fun m x y => let n := elemBits (etype m); x * 2 ^ (y % n) % 2 ^ n) s

/-- `shr` (R138). -/
def execShr (d a b : BitVec 8) (s : State) : Host.Outcome State Fault Refusal :=
  vec2 (.shr d a b) d a b isInt (fun _ a b => uniTag [a, b]) (fun m x y => x / 2 ^ (y % elemBits (etype m))) s

/-- `sar` (R138). -/
def execSar (d a b : BitVec 8) (s : State) : Host.Outcome State Fault Refusal :=
  vec2 (.sar d a b) d a b isInt (fun _ a b => uniTag [a, b]) (fun m x y => let n := elemBits (etype m); wrapInt n (intVal true n x / 2 ^ (y % n))) s

/-- `mulhi` (R138). -/
def execMulhi (d a b : BitVec 8) (s : State) : Host.Outcome State Fault Refusal :=
  vec2 (.mulhi d a b) d a b isInt (fun _ a b => uniTag [a, b]) (fun m x y => let n := elemBits (etype m); let sg := isSigned (etype m)
    wrapInt n (intVal sg n x * intVal sg n y / 2 ^ n)) s

/-- `clamp` (R137). -/
def execClamp (d a b : BitVec 8) (s : State) : Host.Outcome State Fault Refusal :=
  vec3 (.clamp d a b) d a b allTypes (fun m x y z => minMax false m (minMax true m z x) y) s

/-- `sel` (R139). -/
def execSel (d a b : BitVec 8) (s : State) : Host.Outcome State Fault Refusal :=
  issue (.sel d a b) s fun c s =>
    let x := c.v a
    let y := c.v b
    let k : W32 := (c.grp.sreg 29).setWidth 32
    let same := k &&& c.em == 0 || k &&& c.em == c.em
    vecRes c s d (if same then uniTag [x, y] else .g) fun i => if k.getLsbD i then x.l.lane i else y.l.lane i

/-! ### Compares (R140) -/

/-- `cmpeq` (R140). -/
def execCmpeq (d a b : BitVec 8) (s : State) : Host.Outcome State Fault Refusal :=
  vecCmp (.cmpeq d a b) d a b (allElems .eq) s

/-- `cmpne` (R140). -/
def execCmpne (d a b : BitVec 8) (s : State) : Host.Outcome State Fault Refusal :=
  vecCmp (.cmpne d a b) d a b (fun m x y => !allElems .eq m x y) s

/-- `cmplt` (R140). -/
def execCmplt (d a b : BitVec 8) (s : State) : Host.Outcome State Fault Refusal :=
  vecCmp (.cmplt d a b) d a b (allElems .lt) s

/-- `cmple` (R140). -/
def execCmple (d a b : BitVec 8) (s : State) : Host.Outcome State Fault Refusal :=
  vecCmp (.cmple d a b) d a b (allElems .le) s

/-- `cmpun` (R140). -/
def execCmpun (d a b : BitVec 8) (s : State) : Host.Outcome State Fault Refusal :=
  vecCmp (.cmpun d a b) d a b (anyUnordered) s

/-! ### Rounding to integers and bit tests (R141 to R143) -/

/-- `floor` (R141). -/
def execFloor (d a : BitVec 8) (s : State) : Host.Outcome State Fault Refusal :=
  vec1 (.floor d a) d a isFlt (integralE 3) s

/-- `ceil` (R141). -/
def execCeil (d a : BitVec 8) (s : State) : Host.Outcome State Fault Refusal :=
  vec1 (.ceil d a) d a isFlt (integralE 2) s

/-- `rnde` (R141). -/
def execRnde (d a : BitVec 8) (s : State) : Host.Outcome State Fault Refusal :=
  vec1 (.rnde d a) d a isFlt (integralE 0) s

/-- `trunc` (R141). -/
def execTrunc (d a : BitVec 8) (s : State) : Host.Outcome State Fault Refusal :=
  vec1 (.trunc d a) d a isFlt (integralE 1) s

/-- `fract` (R141). -/
def execFract (d a : BitVec 8) (s : State) : Host.Outcome State Fault Refusal :=
  vec1 (.fract d a) d a isFlt fractE s

/-- `copysign` (R142). -/
def execCopysign (d a b : BitVec 8) (s : State) : Host.Outcome State Fault Refusal :=
  vec2 (.copysign d a b) d a b isFlt (fun _ a b => uniTag [a, b]) copysignE s

/-- `popc` (R142). -/
def execPopc (d a : BitVec 8) (s : State) : Host.Outcome State Fault Refusal :=
  vec1 (.popc d a) d a allTypes (fun m x => popc x (elemBits (etype m))) s

/-- `clz` (R142). -/
def execClz (d a : BitVec 8) (s : State) : Host.Outcome State Fault Refusal :=
  vec1 (.clz d a) d a allTypes (fun m x => leadingZeros (elemBits (etype m)) x) s

/-- Low bit and length of the field of R143. -/
def laneField (y : W32) : Nat × Nat :=
  let lo := bits y.toNat 4 0
  (lo, min (min (bits y.toNat 13 8) 32) (32 - lo))

/-- `bfe` of a lane (R143). -/
def bfeLane (signed : Bool) (x y : W32) : W32 :=
  let (lo, f) := laneField y
  if f = 0 then 0 else BitVec.ofInt 32 (intVal signed f (x.toNat / 2 ^ lo % 2 ^ f))

/-- `bfi` of a lane (R143). -/
def bfiLane (x y z : W32) : W32 :=
  let (lo, f) := laneField y
  let m : W32 := BitVec.ofNat 32 ((2 ^ f - 1) * 2 ^ lo)
  (z &&& ~~~ m) ||| ((x <<< lo) &&& m)

/-- `bfe` (R143). -/
def execBfe (d a b : BitVec 8) (s : State) : Host.Outcome State Fault Refusal :=
  vecBits (.bfe d a b) d a b (fun et => et ≤ 1) (fun m x y => bfeLane (isSigned (etype m)) x y) s

/-- `bfi` (R143). -/
def execBfi (d a b : BitVec 8) (s : State) : Host.Outcome State Fault Refusal :=
  issue (.bfi d a b) s fun c s => typed c (fun et => et ≤ 1) <|
    let x := c.v a
    let y := c.v b
    let z := c.v d
    vecRes c s d (uniTag [x, y, z]) fun i => bfiLane (x.l.lane i) (y.l.lane i) (z.l.lane i)

/-! ### Dot product, byte moves and scaling (R144 to R146) -/

/-- `dot2` (R144). -/
def execDot2 (d a b : BitVec 8) (s : State) : Host.Outcome State Fault Refusal :=
  issue (.dot2 d a b) s fun c s => typed c (fun et => et == 3 || et == 4) <|
    let m := c.grp.gmode
    let et := etype m
    let x := c.v a
    let y := c.v b
    let z := c.v d
    vecRes c s d (uniTag [x, y, z]) fun i =>
      let p := x.l.lane i
      let q := y.l.lane i
      BitVec.ofNat 32 (dot2E m (elem et p 0) (elem et q 0) (elem et p 1) (elem et q 1) (z.l.lane i).toNat)

/-- Byte `k` of a lane. -/
def laneByte (x : W32) (k : Nat) : Nat := x.toNat / 2 ^ (8 * k) % 256

/-- A lane from its four bytes, byte 0 first. -/
def ofBytes (a b c d : Nat) : W32 := BitVec.ofNat 32 (a + b * 2 ^ 8 + c * 2 ^ 16 + d * 2 ^ 24)

/-- `swaph` of a lane (R145). -/
def swapLane (fn : Nat) (x : W32) : W32 :=
  match fn with
  | 0 => ofBytes (laneByte x 2) (laneByte x 3) (laneByte x 0) (laneByte x 1)
  | 1 => ofBytes (laneByte x 3) (laneByte x 2) (laneByte x 1) (laneByte x 0)
  | _ => ofBytes (laneByte x 1) (laneByte x 0) (laneByte x 3) (laneByte x 2)

/-- `swaph` (R145). -/
def execSwaph (d a f : BitVec 8) (s : State) : Host.Outcome State Fault Refusal :=
  issue (.swaph d a f) s fun c s =>
    let x := c.v a
    vecRes c s d (uniTag [x]) fun i => swapLane f.toNat (x.l.lane i)

/-- `perm` of a lane (R145). -/
def permLane (x y z : W32) : W32 :=
  let b := fun (j : Nat) =>
    let k := bits z.toNat (4 * j + 2) (4 * j)
    if z.getLsbD (4 * j + 3) then 0 else if k < 4 then laneByte x k else laneByte y (k - 4)
  ofBytes (b 0) (b 1) (b 2) (b 3)

/-- `perm` (R145). -/
def execPerm (d a b : BitVec 8) (s : State) : Host.Outcome State Fault Refusal :=
  issue (.perm d a b) s fun c s =>
    let x := c.v a
    let y := c.v b
    let z := c.v d
    vecRes c s d (uniTag [x, y, z]) fun i => permLane (x.l.lane i) (y.l.lane i) (z.l.lane i)

/-- Tag of `lanes` (R116). -/
def lanesTag (a b : VReg) : Tag := if a.tag != .g && b.tag == .u then .a else .g

/-- `lanes` (R146). -/
def execLanes (d a b : BitVec 8) (s : State) : Host.Outcome State Fault Refusal :=
  issue (.lanes d a b) s fun c s => typed c (fun et => et ≤ 1) <|
    let x := c.v a
    let y := c.v b
    vecRes c s d (lanesTag x y) fun i => x.l.lane i + BitVec.ofNat 32 i * y.l.lane i

/-- `ldexp` (R146). -/
def execLdexp (d a b : BitVec 8) (s : State) : Host.Outcome State Fault Refusal :=
  vec2 (.ldexp d a b) d a b isFlt (fun _ a b => uniTag [a, b]) ldexpE s

end Sys2Proof.Machine
end

