-- ==== Sys2Proof/Machine/Control.lean ====
section
/-! DEFINITION. Groups and their control flow: fetching and starting clauses (R46 to R50, R91 to R93), swaps and the end of
a group (R88, R99), completion of operations (R51 to R53), the control instructions 0x01 to 0x0E (R101 to R107) and
the votes, shuffles, exchanges and reductions 0x10 to 0x1D (R108 to R113). -/

namespace Sys2Proof.Machine

open Sys2Proof

/-! ### Fetch -/

/-- Why a fetch does not deliver its word. -/
inductive FetchStop where
  | trap (code : Nat) (addr : W64)
  | park (va : W64) (cause level : Nat)
  | uncorr (va : W64)
  | badSector (va : W64) (sector : Nat)
  | filling
deriving DecidableEq, Repr

/-- One word of code, from a stash block filled first where it must be (R46, R160, R166, R361). -/
def State.fetchWord (s : State) (t : Team) (k : Kernel) (b : Bezel) (va : VA) : Except FetchStop W32 :=
  let ad : W64 := va.setWidth 64
  match s.place t k b .fetch ad with
  | .ok (.stash x off _) =>
    let s1 := s.fillBlock x off
    (match s1.team? x with
     | some tm => if s1.placePoisoned (.stash x off ad) then .error (.uncorr ad) else .ok (BitVec.ofNat 32 (leNat (tm.stashBytes off 4)))
     | none => .error (.trap PROT ad))
  | .ok (.glob pa _ _ _) =>
    if s.poisoned (pa / 256) then .error (.badSector ad (pa / 256))
    else .ok (BitVec.ofNat 32 (leNat ((List.range 4).map fun i => s.homeByte (pa + i))))
  | .trap code => .error (.trap code ad)
  | .park ca l => .error (.park ad ca l)
  | .migrating => .error (.park ad 2 1)
  | .filling _ => .error .filling
  | .kill => .error (.uncorr ad)
  | .uncorr => .error (.uncorr ad)

/-- `n` words of code. -/
def State.fetchMany (s : State) (t : Team) (k : Kernel) (b : Bezel) (va : VA) : Nat → Except FetchStop (List W32)
  | 0 => .ok []
  | n + 1 => do
    let w ← s.fetchWord t k b va
    let ws ← s.fetchMany t k b (va + 4) n
    .ok (w :: ws)

/-- The stash blocks that `n` words of code lie in, filled (R166). -/
def State.fillCode (s : State) (t : Team) (k : Kernel) (b : Bezel) (va : VA) (n : Nat) : State :=
  s.fillPlaces ((List.range n).filterMap fun i => match s.place t k b .fetch ((va + BitVec.ofNat 57 (4 * i)).setWidth 64) with
    | .ok p => some p
    | _ => none)

/-- The header breaks R49 by itself. -/
def badHeader (h : W32) : Bool := 4 < headLits h || h.toNat % 16 ≠ 0

/-- The clause breaks R49: a clause-ending instruction before the last place, or a class-a or class-b instruction without
a flag. -/
def badClause (h : W32) (ws : List W32) : Bool :=
  let op := fun (w : W32) => w.extractLsb' 24 8
  (ws.dropLast.any fun w => endsClause (op w)) ||
  ((headSetA h).isNone && (headSetB h).isNone && ws.any fun w =>
    classOf (op w) == .a || classOf (op w) == .b || classOf (op w) == .ab)

/-! ### Ends of slots (R92) -/

/-- Slot B ends when its live mask is zero; a slot A parked at `join` is restarted there. -/
def Group.endB (g : Group) : Group :=
  if g.blive && g.liveMask .b == 0 then { (g.setS 31 0) with blive := false, bjoin := false, ajoin := false } else g

/-- Slot A ends when its live mask is zero: B takes its place, after its `join` clause where it is parked there, or the group has no
live slot left. -/
def Group.endA (g : Group) : Group :=
  if g.alive && !g.ajoin && g.liveMask .a == 0 then
    if g.blive then
      { ((g.setS 30 (g.sreg 31)).setS 31 0) with
          pcA := if g.bjoin then { hdr := g.pcB.next } else g.pcB, blive := false, bjoin := false }
    else { g with alive := false, exited := g.exited ||| g.aliveLanes }
  else g

/-- The slots that may give the next clause, in the order of R93. -/
def Group.candidates (g : Group) : List Slot :=
  match g.mode with
  | .handler => [.h]
  | .recompute => [.a]
  | .normal =>
    let a := if g.alive && !g.ajoin then [Slot.a] else []
    let b := if g.blive && !g.bjoin then [Slot.b] else []
    if g.lastSlot == .a then b ++ a else a ++ b

/-- PC of a candidate slot. -/
def Group.pcOf (g : Group) (sl : Slot) : Pc :=
  match g.mode, sl with
  | .normal, .a => g.pcA
  | .normal, .b => g.pcB
  | _, _ => g.pcH

/-- The slot's next clause may start (R50, R93). One that cannot be fetched may not: the slot is then chosen only where the other one
may not go on either, and its fault is taken there (log entry 32). -/
def State.mayStart (s : State) (g : Group) (t : Team) (k : Kernel) (b : Bezel) (sl : Slot) : Bool :=
  match s.fetchWord t k b (g.pcOf sl).hdr with
  | .ok h => (g.pcOf sl).resume || g.waitMet h
  | .error _ => false

/-- The slot whose clause is fetched (R93): the first candidate whose next clause may start, else the last one. -/
def State.pickSlot (s : State) (g : Group) (t : Team) (k : Kernel) (b : Bezel) : Option Slot :=
  (g.candidates.find? (s.mayStart g t k b)).or g.candidates.getLast?

/-- The slot that ends before the next clause is fetched (R92): a slot is tested when its clause is the next, the other slot
first (R93); the slot that issued last is next where the other may not start yet. -/
def State.endingSlot (s : State) (g : Group) (t : Team) (k : Kernel) (b : Bezel) : Option Slot :=
  match g.candidates with
  | [] => none
  | [x] => if g.liveMask x = 0 then some x else none
  | x :: y :: _ =>
    if g.liveMask x = 0 then some x
    else if !s.mayStart g t k b x && g.liveMask y = 0 then some y
    else none

/-! ### Readiness (R88, R99) -/

/-- A live slot has a clause that may start, or one that the next fetch ends, or whose fetch faults (R50, R88, R93). -/
def State.slotReady (s : State) (r : GRef) (g : Group) : Bool :=
  match s.team? r.team with
  | none => false
  | some t => match s.bezel? t.bezel, s.kernel? t.bezel t.kslot with
    | some b, some k =>
      (g.mode == .normal && (s.endingSlot g t k b).isSome) || g.candidates.any (s.mayStart g t k b) ||
      (s.pickSlot g t k b).any fun sl => match s.fetchWord t k b (g.pcOf sl).hdr with | .ok _ => false | .error _ => true
    | _, _ => false

/-- The group can issue or fetch, and is not ready only for want of a place in the active set (R88). -/
def State.readyGroup (s : State) (r : GRef) (g : Group) : Bool :=
  (g.alive || g.blive) && waitOver s r g &&
  (match g.clause with
   | none => s.slotReady r g
   | some c => c.started || g.waitMet c.head || s.slotReady r g)

/-- The groups of a sub-core of a core, with their names (R79). -/
def State.onSub (s : State) (core sub : Nat) : List (GRef × Group) :=
  (s.refs.filterMap fun r => match s.team? r.team, s.group? r with
    | some t, some g => if t.core == core && g.num % 4 == sub && t.onCore then some (r, g) else none
    | _, _ => none)

/-- A group that may enter the active set: a PENDING or TRAPPED one that is ready (R88). -/
def State.swapCandidate (s : State) (r : GRef) (g : Group) : Bool :=
  !g.inSet && (g.life == .pending || g.life == .trapped) && !g.asleep && s.readyGroup r g

/-- The candidate that has been ready longest (R99). -/
def State.longest (s : State) (core sub : Nat) : Option GRef :=
  ((s.onSub core sub).foldl (fun best p =>
    if s.swapCandidate p.1 p.2 then
      match best with
      | none => some p
      | some q => if p.2.readySince < q.2.readySince then some p else best
    else best) none).map (·.1)

/-- A group that was not ready and is ready now: WAITING becomes PENDING, and it has been ready since this step; a group outside the
active set that is not ready is asleep (R88, R99). -/
def State.rouse (s : State) (r : GRef) (g : Group) : Group :=
  if g.asleep then
    if s.readyGroup r g then
      { g with asleep := false, readySince := s.stepNo, life := if g.life == .waiting then .pending else g.life }
    else g
  else if !g.inSet && g.life == .pending && !s.readyGroup r g then { g with asleep := true }
  else g

/-- Every group whose wait has been satisfied is roused (R88). -/
def State.rouseAll (s : State) : State :=
  { s with teams := s.teams.map fun (t : Team) =>
      { t with groups := t.groups.zipIdx.map fun p => s.rouse { team := t.sid, grp := p.2 } p.1,
               shadows := t.shadows.zipIdx.map fun p => s.rouse { team := t.sid, grp := p.2, sh := true } p.1 } }

/-- A ready PENDING group exists on the sub-core of a group (R88, R107). -/
def State.othersReady (s : State) (r : GRef) : Bool :=
  match s.team? r.team, s.group? r with
  | some t, some g => (s.longest t.core (g.num % 4)).isSome
  | _, _ => false

/-- Arithmetic cycles of one fabric cycle at a throttle step, in 720ths: 1.3 to 2.0 GHz, 1.1 to 1.8, 0.9 to 1.6 and 0.65 to 1.2
(R373). -/
def arithRate (step : BitVec 2) : Nat :=
  if step = 0 then 468 else if step = 1 then 440 else if step = 2 then 405 else 390

/-- Time passes between two steps: the step number rises by one and the fabric clock by an amount left open (log
entry 6); groups whose wait is over become ready. -/
def State.tick (s : State) : State :=
  { s with stepNo := s.stepNo + 1, fresh := s.fresh + 1, cur := none, input := none, curEng := none,
           cycles := s.cycles + ((Config.freeWord s.fresh).setWidth 24).setWidth 64,
           arith := s.arith + ((Config.freeWord s.fresh).setWidth 24).toNat * arithRate s.host.thrStep }.rouseAll

/-! ### Fetching clauses -/

/-- The ends of slots, one after another (R92); at most three slots can end. -/
def State.endSlots (s : State) (t : Team) (k : Kernel) (b : Bezel) : Nat → Group → Group
  | 0, g => g
  | n + 1, g =>
    match s.endingSlot g t k b with
    | some .a => s.endSlots t k b n g.endA
    | some .b => s.endSlots t k b n g.endB
    | _ => g

/-- The ends of slots before a clause is fetched (R92). The end of the last slot commits the group's task, as `exit`
does. -/
def State.settleSlots (s : State) (r : GRef) (t : Team) (k : Kernel) (b : Bezel) : State :=
  match s.group? r with
  | none => s
  | some g =>
    if g.mode != .normal then s
    else
      let g1 := s.endSlots t k b 3 g
      let s1 := s.modGroup r fun _ => g1
      if g1.alive then s1
      else if g1.drained && !s1.commitHeldUp r g1 && !recShadow k.record then (s1.release r (g1.boundaryEntry k) {} .a).modGroup r fun g => { g with bnd := .idle }
      else s1.modGroup r fun g => { g with bnd := .waiting, wait := .boundary }

/-- A group whose next instruction or clause may go ahead when nothing holds it (R88). -/
def Group.free (g : Group) : Bool :=
  g.inSet && (g.life == .active || g.life == .trapped) && g.wait == .none && g.deferredTrap.isNone && g.pend.isNone

/-- A trap at a clause (R49, R46). -/
def State.clauseTrap (s : State) (r : GRef) (g : Group) (sl : Slot) (hdr : VA) (code : Nat) (addr : W64) : State :=
  s.takeTrap r { code := code, pc := hdr.setWidth 64, addr := addr, em := g.em sl, slotB := sl == .b, resume := { hdr := hdr } }

/-- A fetched clause placed in the group. A slot that goes back to a resume point starts without a WAIT test (R283); a task-ending
instruction there does not commit twice. -/
def Group.setClause (g : Group) (c : Clause) (pc : Pc) : Group :=
  if pc.resume then
    if pc.idx = 0 && g.em c.slot = 0 then (g.setPc (if g.mode == .recompute then .h else c.slot) { hdr := c.next }) 
    else if c.words.length ≤ pc.idx then (g.setPc (if g.mode == .recompute then .h else c.slot) { hdr := c.next })
    else { g with clause := some { c with idx := pc.idx, started := true, issuedM := g.cutM, issuedC := g.cutC }, cutM := false, cutC := false,
                  bnd := if pc.passed then .passed else g.bnd }
  else { g with clause := some c }

/-- CLAUSE_FETCH (R46, R49, R92, R93): slots whose live mask is zero end; then the next clause is fetched whole, or the
group parks or traps. A clause that has not started may be fetched again. -/
def State.clauseFetch (s : State) (r : GRef) : Option State :=
  match s.team? r.team, s.group? r with
  | some t, some g =>
    match s.bezel? t.bezel, s.kernel? t.bezel t.kslot with
    | some b, some k =>
      let ready := match g.clause with | none => true | some c => !c.started
      if !(g.free && ready && !s.shadowParked r && s.goesOn t g false && (g.alive || g.blive)) then none
      else
        let s1 := s.settleSlots r t k b
        match s1.group? r with
        | none => none
        | some g1 =>
          match (if g1.alive then s1.pickSlot g1 t k b else none) with
          | none => some (s1.modGroup r fun g => { g with clause := none })
          | some sl =>
            let pc := g1.pcOf sl
            let stop := fun (e : FetchStop) => match e with
              | .trap code a => some (s1.clauseTrap r g1 sl pc.hdr code a)
              | .park va ca l =>
                let f : FaultInfo :=
                 { va := va, cause := ca, level := l, fetch := true, handle := handleOf t.bezel t.kslot t.kseq,
                   place := placeWord t g1.num, joiner := .grp r }
                some ((s1.fault t.bezel f).modGroup r fun g => { g.park (.page va) with clause := none })
              | .uncorr va => some (s1.terminate r 19 12 va)
              | .badSector va x => some ((s1.checkSector (handleOf t.bezel t.kslot t.kseq) x).terminate r 19 12 va)
              | .filling => none
            match s1.fetchWord t k b pc.hdr with
            | .error e => stop e
            | .ok h =>
              if badHeader h then some (s1.clauseTrap r g1 sl pc.hdr ILLCLAUSE 0)
              else match s1.fetchMany t k b (pc.hdr + 4) (headCount h + headLits h) with
                | .error e => stop e
                | .ok ws =>
                  if badClause h (ws.take (headCount h)) then some (s1.clauseTrap r g1 sl pc.hdr ILLCLAUSE 0)
                  else
                    let c : Clause :=
                     { hdr := pc.hdr, head := h, words := ws.take (headCount h), lits := ws.drop (headCount h), slot := sl }
                    let s2 := (s1.touch b t.core [pc.hdr.setWidth 64]).fillCode t k b pc.hdr (1 + ws.length)
                    some (s2.modGroup r fun g => g.setClause c pc)
    | _, _ => none
  | _, _ => none

/-- A step without a word: its input must be its own, and its effect must be possible. -/
def eventStep (s : State) (name : String) (f : Event → Option State) : Host.Outcome State Fault Refusal :=
  match s.input.bind f with
  | some s' => .next s'
  | none => .refused (.notEnabled name)

/-- CLAUSE_FETCH. -/
def execClauseFetch (s : State) : Host.Outcome State Fault Refusal :=
  eventStep s "CLAUSE_FETCH" fun e => match e with | .clauseFetch g => s.clauseFetch g | _ => none

/-- CLAUSE_START (R50): with every flag named in WAIT clear, the clause starts, or is skipped when the effective mask of
its slot is zero. A group that has yielded at the end of its last clause gives way first to a ready PENDING group (R88, R107). -/
def State.clauseStart (s : State) (r : GRef) : Option State :=
  match s.group? r with
  | none => none
  | some g =>
    match g.clause with
    | none => none
    | some c =>
      if !(g.free && !c.started && !s.shadowParked r && ((s.team? r.team).any fun t => s.goesOn t g false) && g.waitMet c.head) ||
          (g.yielded && s.othersReady r) then none
      else if g.em c.slot = 0 then
        some (s.modGroup r fun g => { (g.setPc (if g.mode == .recompute then .h else c.slot) { hdr := c.next }) with
          clause := none, lastSlot := c.slot, yielded := headYield c.head })
      else some (s.modGroup r fun g => { g with clause := some { c with started := true }, yielded := false })

/-- CLAUSE_START. -/
def execClauseStart (s : State) : Host.Outcome State Fault Refusal :=
  eventStep s "CLAUSE_START" fun e => match e with | .clauseStart g => s.clauseStart g | _ => none

/-! ### Completion of operations (R51 to R53) -/

/-- A returned value in the current checkpoint. -/
def Group.putCkpt (g : Group) (d : Deliver) : Group :=
  if g.ckCur then { g with ck1 := g.ck1.put d } else { g with ck0 := g.ck0.put d }

/-- A later operation's data for a destination takes the lanes of earlier outstanding operations (R53). -/
def Deliver.without (later : Deliver) : Deliver → Option Deliver
  | .scal n v => match later with
    | .scal m _ => if m = n then none else some (.scal n v)
    | .vec _ _ _ _ => some (.scal n v)
  | .vec code mask l tag => match later with
    | .vec code' mask' _ _ => some (.vec code (if code' = code then mask &&& ~~~ mask' else mask) l tag)
    | .scal _ _ => some (.vec code mask l tag)

/-- The operation's data written, its destinations taken from earlier operations, and the operation dropped (R51, R53). A write of
another instruction to the destination meanwhile, which R53 lets stay or not, is written over (log entry 32). -/
def Group.finish (g : Group) (o : Op) : Group :=
  let g1 := o.dest.foldl (fun g d => let g := g.receive (-1) d; if o.ck then g.putCkpt d else g) g
  let g2 := { g1 with ops := g1.ops.map fun (x : Op) =>
    if x.id < o.id then { x with dest := o.dest.foldl (fun ds d => ds.filterMap (Deliver.without d)) x.dest } else x }
  { (g2.dropOp o.id) with lvq := g2.lvq.map fun (e : LvqEntry) => if e.op == o.id then { e with filled := true } else e }

/-- An operation of a group by number. -/
def Group.op? (g : Group) (id : Nat) : Option Op := g.ops.find? fun o => o.id == id

/-- Every lane of an operation's data is among `lanes`. -/
def Op.coveredBy (o : Op) (lanes : W32) : Bool :=
  o.dest.all fun d => match d with | .vec _ m _ _ => m &&& ~~~ lanes == 0 | .scal _ _ => lanes == 0xFFFFFFFF

/-- Lanes of a load that have returned, and those that read the same places, are performed (R220). -/
def Group.settleLanes (g : Group) (id : Nat) (lanes : W32) : Group :=
  { g with ops := g.ops.map fun (o : Op) => if o.id == id then
      { o with again := o.again.map fun a => (a.1, a.2.filter fun x => !(a.2.any fun y => lanes.getLsbD y.1 && y.2.2.place == x.2.2.place)) }
      else o }

/-- The lanes of an operation's vector destinations, written (R53). -/
def Group.modDest (g : Group) (o : Op) (lanes : W32) : Group :=
  o.dest.foldl (fun g d => match d with
    | .vec code m l _ => g.receive lanes (.vec code m l .g)
    | .scal _ _ => g) g

/-- Completion of a `.ready` operation, whole or for some lanes only (R53). -/
def State.opReturn (s : State) (r : GRef) (o : Op) (lanes : W32) : State :=
  if o.coveredBy lanes then s.modGroup r fun g => g.finish o
  else s.modGroup r fun g => (g.settleLanes o.id lanes).modDest o lanes

/-! ### Swaps and ends (R88, R99) -/

/-- The group enters the active set. -/
def Group.swapIn (g : Group) : Group :=
  { g with inSet := true, asleep := false, life := if g.life == .trapped then .trapped else .active }

/-- The group leaves the active set: WAITING when it is not ready, PENDING after a yield (R88). -/
def Group.swapOut (g : Group) (ready : Bool) (now : Nat) : Group :=
  { g with inSet := false, yielded := false, asleep := !ready, readySince := if ready then now else g.readySince,
           life := if g.life == .trapped then .trapped else if ready then .pending else .waiting }

/-- GROUP_SWAP (R99): the PENDING group that has been ready longest enters the active set of 8, in place of a group that
is not ready or that yields. -/
def State.groupSwap (s : State) (core sub : Nat) (out : Option GRef) : Option State :=
  match s.longest core sub with
  | none => none
  | some i =>
    match out with
    | none =>
      if ((s.onSub core sub).filter fun p => p.2.inSet).length < 8 then some (s.modGroup i Group.swapIn) else none
    | some r =>
      match s.group? r, (s.onSub core sub).any fun p => p.1 == r with
      | some g, true =>
        let ready := s.readyGroup r g
        let between := match g.clause with | none => true | some c => !c.started
        if g.inSet && (g.life == .active || g.life == .trapped) && (!ready || (g.yielded && between)) then
          some ((s.modGroup r fun g => g.swapOut ready s.stepNo).modGroup i Group.swapIn)
        else none
      | _, _ => none

/-- GROUP_SWAP. -/
def execGroupSwap (s : State) : Host.Outcome State Fault Refusal :=
  eventStep s "GROUP_SWAP" fun e => match e with | .groupSwap core sub out => s.groupSwap core sub out | _ => none

/-- A team ends (R82): the kernel counts it, and drains when it was the last. -/
def State.endTeam (s : State) (sid : Nat) : State :=
  match s.team? sid with
  | none => s
  | some t =>
    let s1 := (s.unmapAll sid).modTeam sid fun t => { t with ended := true, ctx := .retired, rings := [] }
    let left := s1.teams.any fun x => x.bezel == t.bezel && x.kslot == t.kslot && x.kseq == t.kseq && !x.ended
    let last := !left && (s1.kernel? t.bezel t.kslot).any fun k => k.st == .running && k.allPlaced
    let s2 := s1.modKernel t.bezel t.kslot fun k =>
      { k with exitedTeams := k.exitedTeams + 1, acret := k.acret.or t.acret, st := if last then .draining else k.st }
    (if last then s2.closeFlows t.bezel t.kslot false else s2).settleBezel t.bezel

/-- GROUP_EXIT_DRAIN (R88): no live slot, the last task committed, every flag clear and nothing on `mbat`. The
release of the DONECTR ticket at retirement covers the stores that the group has observed (R228). -/
def State.groupExit (s : State) (r : GRef) : Option State :=
  match s.team? r.team, s.group? r with
  | some t, some g =>
    if !g.alive && !g.blive && g.life != .exited && g.bnd != .waiting && g.ops.isEmpty && g.mq.isEmpty &&
        g.deferredTrap.isNone && t.onCore then
      let s1 := (s.publish r.leader t.core 3).modGroup r fun g => { g with life := .exited, inSet := false, clause := none, wait := .none }
      match s1.team? r.team with
      | none => none
      | some t1 =>
        if (t1.groups ++ t1.shadows).all fun g => g.life == .exited then some (s1.endTeam r.team) else some s1
    else none
  | _, _ => none

/-- GROUP_EXIT_DRAIN. -/
def execGroupExitDrain (s : State) : Host.Outcome State Fault Refusal :=
  eventStep s "GROUP_EXIT_DRAIN" fun e => match e with | .groupExitDrain g => s.groupExit g | _ => none

/-! ### Branches (R102) -/

/-- The slot goes on at a target when the clause ends. -/
def goTo (c : Ctx) (s : State) (target : VA) : State :=
  c.mod s fun g => g.modClause fun cl => { cl with target := some target }

/-- The target of a clause-relative offset (R56). -/
def Ctx.rel (c : Ctx) (off : VA) : VA := c.cl.hdr + off * 4

/-- `bra` (R102). -/
def execBra (o : BitVec 24) (s : State) : Host.Outcome State Fault Refusal :=
  issue (.bra o) s fun c s => .ok (goTo c s (c.rel (o.signExtend 57)))

/-- `brz` (R102). -/
def execBrz (d : BitVec 8) (i : BitVec 16) (s : State) : Host.Outcome State Fault Refusal :=
  issue (.brz d i) s fun c s => .ok (if c.s d = 0 then goTo c s (c.rel (i.signExtend 57)) else s)

/-- `brnz` (R102). -/
def execBrnz (d : BitVec 8) (i : BitVec 16) (s : State) : Host.Outcome State Fault Refusal :=
  issue (.brnz d i) s fun c s => .ok (if c.s d ≠ 0 then goTo c s (c.rel (i.signExtend 57)) else s)

/-- `call` (R102). -/
def execCall (d : BitVec 8) (i : BitVec 16) (s : State) : Host.Outcome State Fault Refusal :=
  issue (.call d i) s fun c s =>
    .ok (goTo c (c.mod s fun g => g.resultS d (c.cl.next.setWidth 64)) (c.rel (i.signExtend 57)))

/-- A branch to an address held in a register (R56). -/
def goReg (c : Ctx) (s : State) (t : VA) : Res :=
  if t.toNat % 4 ≠ 0 then .error (.trap ALIGN (t.setWidth 64)) else .ok (goTo c s t)

/-- `ret` (R102). -/
def execRet (a : BitVec 8) (s : State) : Host.Outcome State Fault Refusal :=
  issue (.ret a) s fun c s => goReg c s ((c.s a).setWidth 57)

/-- `brx` (R102). -/
def execBrx (d a n : BitVec 8) (s : State) : Host.Outcome State Fault Refusal :=
  issue (.brx d a n) s fun c s =>
    goReg c s ((c.s a + ((((c.s d).setWidth 32).setWidth 64) <<< n.toNat)).setWidth 57)

/-! ### Divergence (R103 to R105) -/

/-- `split` (R103); in a handler it traps ILLOP (R292). -/
def execSplit (i : BitVec 16) (s : State) : Host.Outcome State Fault Refusal :=
  issue (.split i) s fun c s =>
    if c.slot == .h || c.grp.blive then .error (.trap ILLOP)
    else if c.grp.liveMask .b = 0 then .ok s
    else .ok (c.mod s fun g => { g with pcB := { hdr := c.rel (i.signExtend 57) }, blive := true })

/-- The slot parks at its `join` clause. `next`: the word after it. -/
def Group.parkJoin (g : Group) (sl : Slot) (hdr next : VA) : Group :=
  let g1 := (g.setPc sl { hdr := hdr, next := next }).modClause fun cl => { cl with close := false }
  if sl == .b then { g1 with bjoin := true } else { g1 with ajoin := true }

/-- The merge (R104). R104 says both that a parked A is restarted at its `join` clause and that A continues at the word after it: the
model takes A straight to that word, since the
restarted `join` would complete at once (DESIGN CHOICE, log entry 48). -/
def Group.merge (g : Group) (sl : Slot) : Group :=
  let g1 := (g.setS 30 (g.sreg 30 ||| g.sreg 31)).setS 31 0
  let g2 := { g1 with blive := false, bjoin := false, ajoin := false }
  if sl == .b then { (g2.modClause fun cl => { cl with close := false }) with pcA := { hdr := g.pcA.next } } else g2

/-- `join` (R104); in a handler it traps ILLOP (R292). -/
def execJoin (s : State) : Host.Outcome State Fault Refusal :=
  issue .join s fun c s =>
    if c.slot == .h then .error (.trap ILLOP)
    else if !c.grp.blive then .ok s
    else
      let other := if c.slot == .b then c.grp.ajoin else c.grp.bjoin
      if !other then .ok (c.mod s fun g => g.parkJoin c.slot c.cl.hdr c.cl.next)
      else .ok (c.mod s fun g => g.merge c.slot)

/-- Address of an offset in the own stash window (R155). -/
def ownVa (off : Nat) : W64 := BitVec.ofNat 64 (0x1FF * 2 ^ 48 + off)

/-- Twelve bytes left open: fields of a divergence-stack entry pushed with BLIVE 0 (R105; log entry 5). -/
def State.freeBytes (s : State) (n : Nat) : List Byte := (List.range n).map fun i => s.freeAt (2 ^ 77 + i)

/-- `dpush` (R105). A shadow writes no stash (R97): its leader has written the entry. It counts the block, so that it meets the same
boundaries (R285). -/
def execDpush (s : State) : Host.Outcome State Fault Refusal :=
  issue .dpush s fun c s =>
    let off := c.grp.dsp.toNat
    let pushed := fun s => c.mod s fun g => { (g.setS 31 0) with dsp := g.dsp + 16, blive := false, bjoin := false }
    if c.slot != .a then .error (.trap ILLOP)
    else if off % 16 ≠ 0 then .error (.trap ALIGN (ownVa off))
    else if recStash c.kern.record < off + 16 then .error (.trap PROT (ownVa off))
    else if c.g.sh then (countUnits c s [.stash c.team.sid off (ownVa off)]).map pushed
    else do
      let p := Place.stash c.team.sid off (ownVa off)
      match s.heldBlock c.g p with
      | some (t, blk) => .error (.wait (.block t blk) s)
      | none =>
        let s1 ← countUnits c s [p]
        let l := if c.grp.blive then leBytes c.grp.pcB.hdr.toNat 8 ++ leBytes ((c.grp.sreg 31).toNat % 2 ^ 32) 4 ++ leBytes 1 4
                 else s.freeBytes 12 ++ leBytes 0 4
        .ok (pushed (holdStores c (s1.fillPlaces [p]) [(p, l)]))

/-- The group after `dpop` has read the entry `pc`, `mv` (R105). -/
def Group.popped (g : Group) (pc mv : W64) : Group :=
  let g1 := { g with dsp := g.dsp - 16 }
  if mv.getLsbD 32 then { (g1.setS 31 ((mv.setWidth 32).setWidth 64)) with pcB := { hdr := pc.setWidth 57 }, blive := true }
  else g1

/-- A leader passes to its shadow values that an instruction of class f reads outside the pair's registers, in order; how a shadow
gets them the manual does not say (R97, R121; log entry 50). -/
def passSide (c : Ctx) (s : State) (l : List W64) : State :=
  if c.shadowed then c.mod s fun g => { g with side := g.side ++ l } else s

/-- A shadow takes `n` values that its leader has passed; it waits until they are there. -/
def takeSide (c : Ctx) (s : State) (n : Nat) : Except Stop (State × List W64) :=
  let l := (s.group? c.g.leader).elim [] (·.side)
  if l.length < n then .error (.wait .side s)
  else .ok (s.modGroup c.g.leader fun g => { g with side := g.side.drop n }, l.take n)

/-- A value that a leader reads and passes to its shadow, which reads the same (R121). -/
def readPassed (c : Ctx) (s : State) (v : W64) : Except Stop (State × W64) :=
  if c.g.sh then do
    let (s1, l) ← takeSide c s 1
    .ok (s1, l[0]?.getD 0)
  else .ok (passSide c s [v], v)

/-- `dpop` (R105). An offset beyond the team's stash, for which R105 gives no check, traps PROT as `dpush` does there (DESIGN
CHOICE, log entry 49). A shadow reads no stash (R97): it takes the entry that its leader has read. -/
def execDpop (s : State) : Host.Outcome State Fault Refusal :=
  issue .dpop s fun c s =>
    let off := c.grp.dsp.toNat
    if c.slot != .a || c.grp.blive then .error (.trap ILLOP)
    else if off % 16 ≠ 0 then .error (.trap ALIGN (ownVa off))
    else if off < 16 || recStash c.kern.record < off then .error (.trap PROT (ownVa (off - 16)))
    else if c.g.sh then do
      let (s1, l) ← takeSide c s 2
      .ok (c.mod s1 fun g => g.popped (l[0]?.getD 0) (l[1]?.getD 0))
    else
      let p := Place.stash c.team.sid (off - 16) (ownVa (off - 16))
      match s.heldBlock c.g p with
      | some (t, blk) => .error (.wait (.block t blk) s)
      | none =>
        let s1 := s.fillPlaces [p]
        let e := s1.loadBytes c.g c.grp c.core p 16
        if s1.placePoisoned p then .error (.done (s1.terminate c.g 19 12 (ownVa (off - 16))))
        else if (dword e 8).getLsbD 32 && (dword e 0).toNat % 4 ≠ 0 then .error (.trap ALIGN (dword e 0))
        else .ok (c.mod (passSide c s1 [dword e 0, dword e 8]) fun g => g.popped (dword e 0) (dword e 8))

/-! ### Exit, yield, mode (R106, R107) -/

/-- `exit` (R106): the current task commits, then the lanes of EM exit. -/
def execExit (s : State) : Host.Outcome State Fault Refusal :=
  issue .exit s fun c s => do
    let s1 ← boundary c s false
    .ok (c.mod s1 fun g => { g with exited := g.exited ||| c.em })

/-- `yield` (R107). -/
def execYield (s : State) : Host.Outcome State Fault Refusal :=
  issue .yield s fun c s => .ok (c.mod s fun g => g.modClause fun cl => { cl with yield := true })

/-- `mode` (R59, R107). -/
def execMode (i : BitVec 16) (s : State) : Host.Outcome State Fault Refusal :=
  issue (.mode i) s fun c s => .ok (c.mod s fun g => { g with gmode := i })

/-- `nop` (R107). -/
def execNop (s : State) : Host.Outcome State Fault Refusal := issue .nop s fun _ s => .ok s

/-! ### Votes (R109) -/

/-- The lanes of EM whose value passes a test. -/
def voteMask (em : W32) (r : VReg) (f : W32 → Bool) : W32 := maskOf fun i => em.getLsbD i && f (r.l.lane i)

/-- `ballot` (R109). -/
def execBallot (d a f : BitVec 8) (s : State) : Host.Outcome State Fault Refusal :=
  scalarOp (.ballot d a f) d
    (fun c => (voteMask c.em (c.v a) fun x => if f = 0 then x ≠ 0 else x.getLsbD 0).setWidth 64) s

/-- `vall` (R109): 1 when EM is empty. -/
def execVall (d a : BitVec 8) (s : State) : Host.Outcome State Fault Refusal :=
  scalarOp (.vall d a) d (fun c => if voteMask c.em (c.v a) (· ≠ 0) = c.em then 1 else 0) s

/-- `vany` (R109): 0 when EM is empty. -/
def execVany (d a : BitVec 8) (s : State) : Host.Outcome State Fault Refusal :=
  scalarOp (.vany d a) d (fun c => if voteMask c.em (c.v a) (· ≠ 0) = 0 then 0 else 1) s

/-! ### Shuffles (R110) -/

/-- The result of a shuffle: lane `i` of EM takes source lane `src i`, a dead source reads 0 and sets DEADSRC. -/
def shuffle (c : Ctx) (s : State) (d a : BitVec 8) (src : Nat → Nat) : Res :=
  let x := c.v a
  let dead := c.grp.dead
  let hit := (lanesOf c.em).any fun i => dead.getLsbD (src i)
  let tag := if x.tag == .u && !hit && c.em == ~~~ dead then Tag.u else .g
  .ok (c.mod s fun g =>
    let g1 := g.resultV d c.em tag (Lanes.of fun i => if dead.getLsbD (src i) then 0 else x.l.lane (src i))
    { g1 with deadSrc := g1.deadSrc || hit })

/-- `shfl` (R110). -/
def execShfl (d a b : BitVec 8) (s : State) : Host.Outcome State Fault Refusal :=
  issue (.shfl d a b) s fun c s => let y := c.v b; shuffle c s d a fun i => (y.l.lane i).toNat % 32

/-- `shflx` (R110). -/
def execShflx (d a n : BitVec 8) (s : State) : Host.Outcome State Fault Refusal :=
  issue (.shflx d a n) s fun c s => shuffle c s d a fun i => i ^^^ n.toNat

/-- `shflu` (R110). -/
def execShflu (d a n : BitVec 8) (s : State) : Host.Outcome State Fault Refusal :=
  issue (.shflu d a n) s fun c s => shuffle c s d a fun i => if i < n.toNat then i else i - n.toNat

/-- `shfld` (R110). -/
def execShfld (d a n : BitVec 8) (s : State) : Host.Outcome State Fault Refusal :=
  issue (.shfld d a n) s fun c s => shuffle c s d a fun i => if 31 < i + n.toNat then i else i + n.toNat

/-! ### Exchange between groups (R111) -/

/-- The target group of `rdlane` and `wrlane`: S[a][4:0], RANK for anything else (R111). -/
def laneTarget (c : Ctx) (x : W64) : Except Stop Nat :=
  if x.toNat < 32 && x.toNat < c.team.groups.length then .ok x.toNat else .error (.trap RANK x)

/-- `rdlane` (R111). Of the instants between its issue and its completion, at which the manual lets it read, the model takes its issue
(log entry 32). A shadow sets DEADSRC as its leader has (R97, R121). -/
def execRdlane (d a n : BitVec 8) (s : State) : Host.Outcome State Fault Refusal :=
  issue (.rdlane d a n) s fun c s => do
    let g ← laneTarget c (c.s a)
    let tg := c.team.groups[g]?.getD {}
    let r := tg.v[n.toNat]?.getD {}
    let l := Lanes.of fun i => if tg.dead.getLsbD i then 0 else r.l.lane i
    let s1 ← classA c s fun s => if c.em = 0 then instantA c s else issueA c s [.vec d c.em l .g] .ready false
    let (s2, hit) ← readPassed c s1 (if tg.dead &&& c.em = 0 then 0 else 1)
    .ok (c.mod s2 fun g => { g with deadSrc := g.deadSrc || hit != 0 })

/-- `wrlane` (R111): held with the version, delivered at commit. -/
def execWrlane (d a n : BitVec 8) (s : State) : Host.Outcome State Fault Refusal :=
  issue (.wrlane d a n) s fun c s => do
    let g ← laneTarget c (c.s a)
    let x := c.v d
    let s1 ← classB c s [c.s a] fun s =>
      if c.em = 0 then instantB c s .ok else defer c s (.wrlane g n.toNat c.em x.l)
    .ok (signData c s1 c.em x)

/-! ### Lane reductions (R112, R113) -/

/-- A lane's value as a reduction reads it (R44). -/
def readLane (m : BitVec 16) (x : W32) : W32 :=
  if isFlt (etype m) then lane1 (etype m) ((fmtOf (etype m)).read (ftzBit m)) x else x

/-- The combinations of R112: 0 sum, 1 maximum, 2 minimum. -/
def combine (k : Nat) (m : BitVec 16) (x y : W32) : W32 :=
  lane2 (etype m) (fun a b => if k = 0 then arith .add m a b 0 else minMax (k == 1) m a b) x y

/-- The running values through each lane of EM, in ascending order (R44, R113). -/
def running (k : Nat) (m : BitVec 16) (f : Nat → W32) : List Nat → Option W32 → List (Nat × W32)
  | [], _ => []
  | i :: is, acc =>
    let v := match acc with
      | none => readLane m (f i)
      | some x => combine k m x (f i)
    (i, v) :: running k m f is (some v)

/-- The result of an empty reduction (R112). -/
def emptyRed (k : Nat) (m : BitVec 16) : W32 :=
  let et := etype m
  ofElems et fun _ =>
    if k = 0 then 0
    else if isFlt et then (fmtOf et).infMag + (if k = 1 then (fmtOf et).sgn else 0)
    else wrapInt (elemBits et) (if k = 1 then intMin (isSigned et) (elemBits et) else intMax (isSigned et) (elemBits et))

/-- `lsum`, `lmax` and `lmin` (R112). -/
def reduce (k : Nat) (i : Instr) (d a : BitVec 8) (s : State) : Host.Outcome State Fault Refusal :=
  issue i s fun c s =>
    let x := c.v a
    let m := c.grp.gmode
    let v := ((running k m x.l.lane (lanesOf c.em) none).getLast?.map (·.2)).getD (emptyRed k m)
    if 0xD0 ≤ d.toNat && d.toNat < 0xF0 then .ok (c.mod s fun g => g.resultS d (v.setWidth 64))
    else .ok (c.mod s fun g => g.resultV d c.em (if c.em == ~~~ c.grp.dead then .u else .g) (Lanes.splat v))

/-- `lsum` (R112). -/
def execLsum (d a : BitVec 8) (s : State) : Host.Outcome State Fault Refusal := reduce 0 (.lsum d a) d a s
/-- `lmax` (R112). -/
def execLmax (d a : BitVec 8) (s : State) : Host.Outcome State Fault Refusal := reduce 1 (.lmax d a) d a s
/-- `lmin` (R112). -/
def execLmin (d a : BitVec 8) (s : State) : Host.Outcome State Fault Refusal := reduce 2 (.lmin d a) d a s

/-- The values of `scan` by lane: through the lane, or before it under fn 1 (R113). -/
def scanVals (fn : Nat) (m : BitVec 16) (f : Nat → W32) (lanes : List Nat) : List (Nat × W32) :=
  let r := running (if fn < 2 then 0 else fn - 1) m f lanes none
  if fn = 1 then lanes.zip (0 :: r.map (·.2)) else r

/-- `scan` (R113). -/
def execScan (d a f : BitVec 8) (s : State) : Host.Outcome State Fault Refusal :=
  issue (.scan d a f) s fun c s =>
    let x := c.v a
    let r := scanVals f.toNat c.grp.gmode x.l.lane (lanesOf c.em)
    vecRes c s d .g fun i => match r.find? fun p => p.1 == i with | some p => p.2 | none => 0

/-- `mcount` (R113). -/
def execMcount (d a f : BitVec 8) (s : State) : Host.Outcome State Fault Refusal :=
  issue (.mcount d a f) s fun c s =>
    let x := (c.s a).toNat % 2 ^ 32
    vecRes c s d .g fun i => BitVec.ofNat 32 (if f = 0 then popc (x % 2 ^ i) 32 else popc (x / 2 ^ (i + 1)) 32)

end Sys2Proof.Machine
end

