-- ==== Sys2Proof/Machine/Choose.lean ====
section
/-! DEFINITION. What the schedulers, the units and the links of the module can do next of themselves, in the order in which the
model tries it when the agenda is empty (log entry 1). -/

namespace Sys2Proof.Machine

open Sys2Proof

/-- An older group of the same sub-core is ready to issue, so that this one is not the one that issues (R99): age is the order
of placement, then the group number, with the leader before its shadow. -/
def State.olderReady (s : State) (r : GRef) : Bool :=
  match s.team? r.team with
  | none => false
  | some t => s.refs.any fun q => s.mayIssue q && q.grp % 4 == r.grp % 4 &&
      (s.team? q.team).any fun u => u.core == t.core &&
        (u.placedAt < t.placedAt || (u.placedAt == t.placedAt && (q.grp < r.grp || (q.grp == r.grp && !q.sh && r.sh))))

/-- The steps of one group. -/
def groupMoves (s : State) (r : GRef) : List Move :=
  match s.group? r with
  | none => []
  | some g =>
    let own : List Move := if s.mayIssue r && !s.olderReady r then [.issue r] else []
    let first : List Event := [.clauseStart r, .clauseFetch r]
    let ops : List Event := g.ops.map fun o => .operationCompletion r o.id (-1)
    let rest : List Event :=
      [.bwaitSatisfied r, .blockedAccessResume r, .taskCommit r, .trapDelivery r, .deferredTrapTake r, .matrixOpComplete r 0 none,
       .contribEntryHead r, .ticketDrawResume r, .groupExitDrain r, .maskedHoldTimeout r]
    own ++ (first ++ ops ++ rest).map Move.event

/-- The steps of the active set of a sub-core. -/
def swapMoves (s : State) (core sub : Nat) : List Event :=
  .groupSwap core sub none :: (s.refs.filter fun r => (s.team? r.team).any fun t => t.core == core && r.grp % 4 == sub).map fun r =>
    .groupSwap core sub (some r)

/-- The steps of one team. -/
def teamMoves (s : State) (t : Team) : List Event :=
  ([[.stopComplete t.sid], (List.range 4).map fun sub => .shareGrant t.sid sub false, (List.range 4).map fun sub => .shareGrant t.sid sub true,
    (List.range 4).flatMap fun sub => swapMoves s t.core sub, t.rings.map fun r => .ringLineReport t.sid r.n,
    t.rings.map fun r => .collectiveComplete t.sid r.n [],
    if t.ctx == .saved then (List.range 256).map fun c => .contextRestore t.sid c else []] : List (List Event)).flatten

/-- The arrival of a message on the links. -/
def netMove (s : State) : NetMsg → List Event
  | .chunk _ _ flow sd sf h b => [.chunkArrival flow sd sf h b]
  | .trailer _ _ flow sd sf c q => [.trailerArrival flow sd sf c q]
  | .ack _ _ flow _ _ q re => (List.range 16).map fun m => .ackArrival flow m q re
  | .nack _ _ flow _ _ q sl all => (List.range 16).map fun m => .nackArrival flow m q sl all
  | .reseed _ _ flow sd sf => [.reseedArrival flow sd sf]
  | .desc _ rank d => s.teams.flatMap fun t => t.rings.map fun r => .descriptorReceive t.sid r.n rank d

/-- The steps of an engine command. -/
def cmdMoves (c : Cmd) : List Event :=
  match c.what with
  | .copy _ _ _ => [.copyEngineComplete c.id]
  | .tcopy _ _ _ _ => [.tcopyCreditGrant c.id]
  | .xroute _ _ _ => [.claimReply c.id, .capacityClaim c.id]
  | .fill _ _ _ _ _ => [.paveFillComplete c.id]

/-- The steps of a flow end. -/
def flowMoves (f : FlowEnd) : List Event :=
  .transferStart f.num :: .flowCloseComplete f.num ::
    (match f.cur with | some t => t.backoff.map fun b => .absentRetryTimer f.num b.1 | none => [])

/-- The steps of engine commands, pavé engines and flow ends. -/
def engineMoves (s : State) : List Event :=
  ([s.cmds.flatMap cmdMoves, (s.engines.map (·.chan) ++ s.pvCmds.flatMap (·.waitAt)).map .paveCommandStart, s.pvCmds.map fun c => .paveCommandComplete c.id,
    s.flows.flatMap flowMoves, s.net.flatMap (netMove s)] : List (List Event)).flatten

/-- The steps of a bezel. -/
def bezelMoves (b : Bezel) : List Event :=
  ([[.faultRecordDelivery b.num, .rehashSweepComplete b.num], b.kernels.map fun k => .retirementComplete b.num k.slot,
    (List.range 3).map fun k => .auditRecordDelivery b.num k, (List.range 64).map fun m => .outboundPhaseAdvance b.num m] : List (List Event)).flatten

/-- The steps of everything but groups. -/
def otherMoves (s : State) : List Event :=
  ([s.teams.flatMap (teamMoves s), engineMoves s, (List.range s.posted.length).map fun i => .postedStoreArrival (.own i),
    s.acts.map fun a => .compensatorLaunch a.slot, s.acts.map fun a => .compensatorRetire a.slot, s.bezels.flatMap bezelMoves,
    (List.range 4).map fun d => .teamDispatch d, s.keys.map fun k => .keyDrawComplete k.slot true,
    s.units.map fun p => .unitScrubComplete p.1] : List (List Event)).flatten

/-- What units do that no event names, as far as something else waits for it. -/
def unitMoves (s : State) : List HwStep :=
  (s.flows.map fun f => HwStep.flowAck f.num) ++ (List.range s.mirrorQ.length).map fun i => HwStep.mirrorRetry i

/-- Everything that the module can do of itself, in order; some of it may be impossible in the state. -/
def State.candidates (s : State) : List Move :=
  let paves : List Move := (s.engines.filter fun e => e.st == .running).map fun e => .pave e.chan
  s.refs.flatMap (groupMoves s) ++ paves ++ (otherMoves s).map Move.event ++ (unitMoves s).map Move.hw

end Sys2Proof.Machine
end

