-- ==== Sys2Proof/Machine/Clasp.lean ====
section
/-! DEFINITION. Clasped activities as the clasp unit keeps them: handles, ends, and what an entry waits for (R320 to R328,
R331). -/

namespace Sys2Proof.Machine

open Sys2Proof

/-- The handle of an activity (R320). -/
def Activity.handle (a : Activity) : W64 := BitVec.ofNat 64 (a.seq.toNat * 2 ^ 16 + a.slot)

/-- CLOSED and ABANDONED are final (R324). -/
def AState.final : AState → Bool
  | .closed => true
  | .abandoned => true
  | .opened => false
  | .abandoning => false
  | .blocked => false
  | .broken => false

/-- An activity by slot. -/
def State.act? (s : State) (slot : Nat) : Option Activity := s.acts.find? (fun a => a.slot == slot)

/-- The state with an activity changed. -/
def State.modAct (s : State) (slot : Nat) (f : Activity → Activity) : State :=
  { s with acts := s.acts.map fun (a : Activity) => if a.slot == slot then f a else a }

/-- An activity's ticket, when it has one. -/
def Activity.donePair (a : Activity) : Option (Obj × W64) := a.ctr.map fun o => (o, a.ticket)

/-- An activity reaches a final state (R324): its entries are dropped, its ticket completes, and its slot is free. -/
def State.finishAct (s : State) (slot : Nat) (st : AState) : State :=
  match s.act? slot with
  | none => s
  | some a =>
    let s1 := s.modAct slot fun a => { a with st := st, stack := [], waitsOn := 0, task := none }
    { s1.completeTicket a.donePair with actFreed := s1.actFreed ++ [slot] }

/-- The keys of two entries meet (R322). -/
def shareKey (x y : ClaspEntry) : Bool := x.keys.any fun k => y.keys.contains k

/-- The activity that an entry of activity `a` waits on (R328): of the unresolved later entries of other activities that
share a key with it, the one of the lowest timestamp. -/
def State.waitsFor (s : State) (a : Activity) (x : ClaspEntry) : Option W64 :=
  ((s.acts.filter fun b => b.slot != a.slot && !b.st.final).flatMap fun b =>
    (b.stack.filter fun y => shareKey x y && x.stamp < y.stamp).map fun y => (y.stamp, b.handle)).foldl
    (fun (best : Option (Nat × W64)) p => match best with
      | none => some p
      | some q => if p.1 < q.1 then some p else some q) none |>.map (·.2)

/-- The transitions of an activity that is being abandoned and runs no compensator (R324). -/
def State.settleAct (s : State) (slot : Nat) : State :=
  match s.act? slot with
  | none => s
  | some a =>
    if (a.st != .abandoning && a.st != .blocked) || a.running.isSome || a.ended.isSome then s
    else match a.stack with
      | [] => s.finishAct slot .abandoned
      | x :: _ => match s.waitsFor a x with
        | some h => s.modAct slot fun a => { a with st := .blocked, waitsOn := h }
        | none => s.modAct slot fun a => { a with st := .abandoning, waitsOn := 0 }

/-- Every activity after an event of one. -/
def State.settleActs (s : State) : State := (s.acts.map (·.slot)).foldl (fun s n => s.settleAct n) s

/-- The activities of a bezel freed as if discarded; those that waited on their entries go on (R324, R331). -/
def State.freeActs (s : State) (b : Nat) : State :=
  let gone := s.acts.filter fun a => a.bezel == b && !a.st.final
  let s1 := gone.foldl (fun s a => s.completeTicket a.donePair) s
  let s2 : State :=
   { s1 with acts := s1.acts.filter fun (a : Activity) => !gone.any fun (x : Activity) => x.slot == a.slot, actFreed := s1.actFreed ++ gone.map (·.slot) }
  s2.settleActs

/-- The die that keeps an entry (R323): the home die of its first key, or the seat core's die when the bezel has no member
core there that stays. -/
def State.entryDie (s : State) (b : Bezel) (key : W64) : Nat :=
  let d := key.toNat % 4
  if (List.range 64).any fun i => s.unit (.core (64 * d + i)) == .member b.num then d else b.seat / 64

/-- The entries held on dies that a bezel has left move to its seat core's die (R323). -/
def State.moveEntries (s : State) (b : Bezel) : State :=
  let left := fun (d : Nat) => !(List.range 64).any fun i => s.unit (.core (64 * d + i)) == .member b.num
  { s with acts := s.acts.map fun (a : Activity) =>
      if a.bezel == b.num then
        { a with stack := a.stack.map fun (e : ClaspEntry) => if left e.die then { e with die := b.seat / 64 } else e }
      else a }

end Sys2Proof.Machine
end

