-- ==== Sys2Proof/Machine/Regs.lean ====
section
/-! DEFINITION. Register and tile lending (R123 to R127), shapes, system registers and literal pairs (R121, R122, R128,
R129): opcodes 0x80 to 0x87 and SHARE_GRANT. -/

namespace Sys2Proof.Machine

open Sys2Proof

/-! ### Shares (R123, R124) -/

/-- The groups of a team on a sub-core. -/
def Team.onSub (t : Team) (sub : Nat) : List Group := t.groups.filter fun g => g.num % 4 == sub

/-- Free units of a share (R123). -/
def Team.freeUnits (t : Team) (sub : Nat) (tiles : Bool) : Nat :=
  (t.onSub sub).foldl (fun a g => a + (if tiles then g.tmax else g.vmax)) 0 -
  (t.onSub sub).foldl (fun a g => a + (if tiles then g.t.length + g.ver.heldTileN else g.v.length + g.ver.heldRegs)) 0

/-- The oldest request on a share. -/
def Team.oldest (t : Team) (sub : Nat) (tiles : Bool) : Option Request :=
  t.requests.find? fun q => q.grp % 4 == sub && q.tiles == tiles

/-- The oldest request on a share can be granted (R124 step 2). -/
def Team.grantable (t : Team) (sub : Nat) (tiles : Bool) : Bool :=
  match t.oldest sub tiles with
  | some q => decide (q.n ≤ t.freeUnits sub tiles)
  | none => false

/-- Every group of the team that has not exited is blocked in a request (R124 step 3); a group in a handler is not. -/
def Team.allBlocked (t : Team) : Bool :=
  (t.groups.zipIdx.all fun p => p.1.life == .exited || (p.1.mode != .handler && t.requests.any fun q => q.grp == p.2)) &&
  ([0, 1, 2, 3].all fun sub => !t.grantable sub false && !t.grantable sub true)

/-- `n` units join the allocation, zero with tag U (R126). -/
def Group.grow (g : Group) (tiles : Bool) (n : Nat) : Group :=
  if tiles then { g with t := g.t ++ List.replicate n {} } else { g with v := g.v ++ List.replicate n {} }

/-- Register number of a scalar destination; 32 for `#0`. -/
def sdstNum (d : BitVec 8) : Nat := if 0xD0 ≤ d.toNat && d.toNat < 0xF0 then d.toNat - 0xD0 else 32

/-- The status of a request: written, passed to the shadow, and the group goes on. -/
def Group.requestDone (g : Group) (shadowed : Bool) (d : BitVec 8) (tiles : Bool) (n : Nat) (status : W64) : Group :=
  let pc : W64 := match g.clause with
    | some c => (c.hdr + 4 + BitVec.ofNat 57 (4 * c.idx)).setWidth 64
    | none => 0
  let g1 := if status = 0 then g.grow tiles n else g
  let g2 := (g1.resultS d status).advance
  if shadowed then
    { g2 with lvq := g2.lvq ++ [({ pc := pc, dest := [.scal (sdstNum d) status], filled := true, op := 0 } : LvqEntry)] }
  else g2

/-- SHARE_GRANT (R124): the oldest request on a share is granted when enough units are free; when every group of the team
is blocked in a request and none can be granted, the oldest of them fails with status 1. In a stop a masked group goes on (R300). -/
def State.shareGrant (s : State) (sid sub : Nat) (tiles : Bool) : Option State :=
  match s.team? sid with
  | none => none
  | some t =>
    match t.oldest sub tiles, s.kernel? t.bezel t.kslot with
    | some q, some k =>
      let done := fun status => some ((s.modTeam sid fun t => { t with requests := t.requests.erase q }).modGroup
        { team := sid, grp := q.grp } fun g => (g.wake s.stepNo).requestDone (recShadow k.record) q.dst q.tiles q.n status)
      if !(s.group? { team := sid, grp := q.grp }).any (fun g => s.goesOn t g false) then none
      else if t.grantable sub tiles then done 0
      else if t.allBlocked && t.requests.head? == some q then done 1
      else none
    | _, _ => none

/-- SHARE_GRANT. -/
def execShareGrant (s : State) : Host.Outcome State Fault Refusal :=
  eventStep s "SHARE_GRANT" fun e => match e with | .shareGrant t sub tiles => s.shareGrant t sub tiles | _ => none

/-- `rgrow` and `trgrow` (R126). A shadow takes its status from the queue and mirrors a grant. -/
def growOp (i : Instr) (d : BitVec 8) (tiles : Bool) (n : Nat) (s : State) : Host.Outcome State Fault Refusal :=
  issue i s fun c s =>
    if c.g.sh then
      let st := match (s.group? c.g.leader).bind fun g => g.lvq.head? with
        | some e => (match e.dest with | .scal _ v :: _ => v | _ => 1)
        | none => 1
      do
        let s1 ← takeLvq c s
        .ok (if st = 0 then c.mod s1 fun g => g.grow tiles n else s1)
    else
      let a := if tiles then c.grp.t.length else c.grp.v.length
      let mx := if tiles then c.grp.tmax else c.grp.vmax
      if c.shadowed && 8 ≤ c.grp.lvq.length then .error (.wait .lvq s)
      else if mx < a + n then .error (.done (c.mod s fun g => g.requestDone c.shadowed d tiles n 2))
      else
        let q : Request := { grp := c.g.grp, tiles := tiles, n := n, dst := d }
        .error (.wait (if tiles then .tiles n else .regs n) (s.modTeam c.g.team fun t => { t with requests := t.requests ++ [q] }))

/-- `rgrow` (R126). -/
def execRgrow (d : BitVec 8) (i : BitVec 16) (s : State) : Host.Outcome State Fault Refusal :=
  growOp (.rgrow d i) d false i.toNat s

/-- `trgrow` (R126). -/
def execTrgrow (d : BitVec 8) (i : BitVec 16) (s : State) : Host.Outcome State Fault Refusal :=
  growOp (.trgrow d i) d true i.toNat s

/-- `rshrink` (R127). -/
def execRshrink (i : BitVec 16) (s : State) : Host.Outcome State Fault Refusal :=
  issue (.rshrink i) s fun c s =>
    let n := i.toNat
    let a := c.grp.v.length
    if a < n + 8 then .error (.trap ILLOP)
    else if c.grp.writesAbove (a - n) then .error (.wait (.shrink false (a - n)) s)
    else .ok (c.mod s fun g =>
      { g with v := g.v.take (a - n), ver := { g.ver with heldRegs := g.ver.heldRegs + n },
               latch := match g.latch with
                 | some r => if a - n ≤ r.toNat && r.toNat < 0xC0 then none else some r
                 | none => none })

/-- The tile that a queued operation reads and does not write. -/
def MWhat.reads : MWhat → Option Nat
  | .tst t _ _ _ => some t
  | .tcvt _ u _ _ _ => some u
  | .tcolr u _ => some u
  | _ => none

/-- `trshrink` (R127). A queued operation that reads one of the tiles finds it among the held tiles, whose buffers are kept until
the task commits (R196, R197). -/
def execTrshrink (i : BitVec 16) (s : State) : Host.Outcome State Fault Refusal :=
  issue (.trshrink i) s fun c s =>
    let n := i.toNat
    let a := c.grp.t.length
    if a < n then .error (.trap ILLOP)
    else if c.grp.tileWriter (a - n) then .error (.wait (.shrink true (a - n)) s)
    else .ok (c.mod s fun g =>
      let base := g.ver.heldTiles.length
      { g with t := g.t.take (a - n),
               mq := g.mq.map fun (m : MOp) => match m.what.reads with
                 | some u => if a - n ≤ u && m.heldAt.isNone then { m with heldAt := some (base + (u - (a - n))) } else m
                 | none => m,
               ver := { g.ver with heldTileN := g.ver.heldTileN + n, heldTiles := g.ver.heldTiles ++ (List.range n).map fun j => (a - n + j, g.t[a - n + j]?.getD {}) } })

/-! ### Shapes and system registers -/

/-- `vshape` (R128): tag, lane 0, stride. -/
def shapeOf (r : VReg) (fn : Nat) : W64 :=
  match fn with
  | 0 => (match r.tag with | .u => 0 | .a => 1 | .g => 2)
  | 1 => (r.l.lane 0).setWidth 64
  | _ => if r.tag == .a then (r.l.lane 1 - r.l.lane 0).setWidth 64 else 0

/-- `vshape` (R128). -/
def execVshape (d a f : BitVec 8) (s : State) : Host.Outcome State Fault Refusal :=
  scalarOp (.vshape d a f) d (fun c => shapeOf (c.v a) f.toNat) s

/-- GSTAT (R94). -/
def Group.gstat (g : Group) (sh : Bool) : W64 :=
  BitVec.ofNat 64 ((if g.deadSrc then 1 else 0) + (if g.blive then 2 else 0) + (if g.bjoin then 4 else 0)
    + (if g.masked then 8 else 0) + (if sh then 16 else 0))

/-- ALLOC (R121). -/
def Group.allocWord (g : Group) : W64 :=
  BitVec.ofNat 64 (g.v.length + g.vmax * 2 ^ 8 + g.t.length * 2 ^ 16 + g.tmax * 2 ^ 24)

/-- A system register (R121, R293). A shadow reads its leader's report. -/
def sysReg (c : Ctx) (n : Nat) : W64 :=
  let ld := if c.g.sh then c.team.groups[c.g.grp]?.getD c.grp else c.grp
  match n with
  | 0 => c.grp.gstat c.g.sh
  | 1 => c.grp.dead.setWidth 64
  | 2 => c.grp.exited.setWidth 64
  | 3 => BitVec.ofNat 64 c.grp.rp
  | 4 => c.grp.dsp.setWidth 64
  | 5 => c.grp.gmode.setWidth 64
  | 6 => c.grp.allocWord
  | 7 => (placeWord c.team c.g.grp).setWidth 64
  | 8 => c.handle
  | 9 => c.grp.taskSeq.setWidth 64
  | 10 => BitVec.ofNat 64 (recKey c.kern.record % 2 ^ 16)
  | 16 => ld.report.tcode
  | 17 => ld.report.tpc
  | 18 => ld.report.tkernel
  | 19 => ld.report.tteam
  | 20 => ld.report.ttask
  | 21 => ld.report.taddr
  | 22 => ld.report.tem
  | 23 => ld.report.tgmode
  | 24 => ld.report.tresume
  | _ => 0

/-- System registers that change with what lies outside the pair's own instructions: GSTAT.DEADSRC, DEADLANES and RP. -/
def passedReg (n : Nat) : Bool := n = 0 || n = 1 || n = 3

/-- `sread` (R122). Of `passedReg` a shadow reads the value that its leader has read, with its own ISSHADOW (R121; log entry 50). -/
def execSread (d n : BitVec 8) (s : State) : Host.Outcome State Fault Refusal :=
  issue (.sread d n) s fun c s =>
    if passedReg n.toNat then do
      let (s1, v) ← readPassed c s (sysReg c n.toNat)
      .ok (c.mod s1 fun g => g.resultS d (if n = 0 && c.g.sh then v ||| 16 else v))
    else .ok (c.mod s fun g => g.resultS d (sysReg c n.toNat))

/-- `swrite` (R122): DSP. -/
def execSwrite (a n : BitVec 8) (s : State) : Host.Outcome State Fault Refusal :=
  issue (.swrite a n) s fun c s => .ok (c.mod s fun g => { g with dsp := (c.s a).setWidth 32 })

/-- `slit` (R129). -/
def execSlit (d n : BitVec 8) (s : State) : Host.Outcome State Fault Refusal :=
  issue (.slit d n) s fun c s =>
    if c.cl.lits.length ≤ n.toNat + 1 then .error (.trap ILLOPERAND)
    else .ok (c.mod s fun g => g.resultS d (c.cl.lit (n.toNat + 1) ++ c.cl.lit n.toNat))

end Sys2Proof.Machine
end

