-- ==== Sys2Proof/Machine/MemAcc.lean ====
section
/-! DEFINITION. Memory instructions 0x90 to 0x9F (R166 to R176) and the steps of the memory system: walks, fault records,
recalls, copies, leases and posted stores (R161 to R166, R175, R224, R226, R232). -/

namespace Sys2Proof.Machine

open Sys2Proof

/-! ### Writes at their homes by engines, by other modules and by posted stores -/

/-- A sector whose mapped block an open task holds: its recall waits (R166). -/
def State.recallWaits (s : State) (sector : Nat) : Bool :=
  match s.mappedBlock sector with
  | some (sid, m) => (match s.team? sid with
    | some t => t.undo.any fun u => u.blk == m.off / 256
    | none => false)
  | none => false

/-- Bytes cut where a mailbox object ends, so that each object takes one store (R65). -/
def cut32 : Nat → Nat → List Byte → List (Nat × List Byte)
  | 0, _, _ => []
  | n + 1, pa, l => if l.isEmpty then [] else (pa, l.take (32 - pa % 32)) :: cut32 n (pa / 32 * 32 + 32) (l.drop (32 - pa % 32))

/-- Accesses to one sector that take effect as one store (R216): at the mailbox objects there field by field (R65), else in
memory, after the commits before them and the recall of a mapped block (R166, R221). -/
def State.landSector (s : State) (l : List (Nat × List Byte)) (owner : Nat) (page : Option Bool) (handle : W64) : State :=
  match l with
  | [] => s
  | (pa, _) :: _ =>
    if pa / 2 ^ 43 = s.devId && (s.mailboxAt pa).isSome then
      (l.flatMap fun x => cut32 9 x.1 x.2).foldl (fun s x => match s.mailboxAt x.1 with
        | some (b, o, at_) => s.mailboxStore b o at_ x.2 handle
        | none => s) s
    else
      let s1 := s.drainSector (pa / 256)
      let s2 := match s1.mappedBlock (pa / 256) with
        | some (sid, m) => s1.recall sid m.off false
        | none => s1
      l.foldl (fun s x => s.noteLate 0 x.1 x.2.length) (s2.homeCells (l.flatMap fun x => cellsAt x.1 x.2) owner page)

/-- The new value of an atomic at a 32-bit location that holds `old` (R192, R194): `x` the operand, `e` the expected value
of `atcas`. Arithmetic is that of the element type with RNE, SAT 0 and FTZ 0. -/
def atomicNew (op : BitVec 8) (et : Nat) (old x e : W32) : W32 :=
  let m := BitVec.ofNat 16 et
  match op.toNat with
  | 0xA4 => lane2 et (fun a b => arith .add m a b 0) old x
  | 0xA5 => lane2 et (minMax false m) old x
  | 0xA6 => lane2 et (minMax true m) old x
  | 0xA7 => old &&& x
  | 0xA8 => old ||| x
  | 0xA9 => old ^^^ x
  | 0xAA => x
  | _ => if old = e then x else old

/-- The sectors that a posted store, atomic or arrival writes. -/
def Posted.sectors (p : Posted) : List Nat :=
  match p.atomic with
  | some (pa, _) => [pa / 256]
  | none => match p.arrive with
    | some (.glob pa _ _, _) => [pa / 256]
    | _ => sectorsOf p.cells

/-- An entry takes effect at its home on another device, as this module sees that device's memory (R231, R232, R184). -/
def State.postedEffect (s : State) (p : Posted) : State :=
  match p.atomic, p.arrive with
  | some (pa, op, et, x), _ =>
    let s1 := match s.mappedBlock (pa / 256) with
      | some (sid, m) => s.recall sid m.off false
      | none => s
    if s1.poisoned (pa / 256) then s1.checkSector 0 (pa / 256)
    else (s1.homeWrite pa (leBytes (atomicNew op et (BitVec.ofNat 32 (leNat (memBytes s1.mem pa 4))) x 0).toNat 4) p.owner (some p.sync)).dropLeases
      p.core [pa / 256]
  | none, some (o, n, bytes, op) =>
    let s1 := if s.objKind o = 1 then s.arrive o n bytes 0 p.core else s
    s1.modGroup p.src fun g => g.dropOp op
  | none, none =>
    match p.cells with
    | [] => s
    | (pa, _) :: _ => (s.landSector (p.cells.map fun c => (c.1, [c.2])) p.owner (some p.sync) 0).dropLeases p.core [pa / 256]

/-- The `tlinc` 0 completions that no earlier posted store of their group holds back any more (R190, R232). -/
def State.signalsDue (s : State) : State :=
  let due := (s.posted.zipIdx.filter fun (p : Posted × Nat) =>
    p.1.sig.isSome && !(s.posted.take p.2).any fun q => q.src == p.1.src && q.sig.isNone && !q.acked).map (·.1)
  due.foldl (fun s p => s.completeTicket p.sig) { s with posted := s.posted.filter fun p => !due.contains p }

/-- The group's own entries for a sector of another device take effect there, in order, before an access that is served at that
home (R219, R231). -/
def State.arriveOwn (s : State) (r : GRef) (sector : Nat) : State :=
  let due := fun (p : Posted) => p.src == r && !p.acked && !p.inside s.devId && p.sectors.contains sector
  ((s.posted.filter due).foldl (fun (s : State) p => s.postedEffect p) { s with posted := s.posted.filter fun p => !due p }).signalsDue

/-- The posted atomics of the group at some places have taken effect there before its load of them (R219). -/
def State.settleAtomics (s : State) (r : GRef) (ps : List Place) : State :=
  (globSectors ps).foldl (fun s x => if s.posted.any fun p => p.src == r && !p.acked && p.atomic.isSome && p.sectors.contains x then s.arriveOwn r x else s) s

/-! ### Loads (R168 to R171) -/

/-- The data of a lane load at `n` bytes per lane. -/
def State.laneData (s : State) (c : Ctx) (ps : List (Nat × Place)) (n : Nat) (i : Nat) : W32 :=
  match ps.find? fun p => p.1 == i with
  | some p => BitVec.ofNat 32 (leNat (s.loadBytes c.g ((s.group? c.g).getD c.grp) c.core p.2 n))
  | none => 0

/-- The places of a load made ready: blocks filled, leases taken, the group's earlier loads and atomics there performed first, and
CHECK verified (R166, R217, R219, R226, R362). -/
def loadReady (c : Ctx) (s : State) (ps : List Place) : State :=
  (ps.foldl (fun s p => s.takeLease c.g c.core c.grp.acquire p)
    (c.mod ((s.settleAtomics c.g ps).fillPlaces ps) fun g => g.fixLoads ps)).checkPlaces c.handle ps

/-- A load that has issued may be performed until it returns (R227). -/
def loadLater (c : Ctx) (s : State) (n : Nat) (ps : List (Nat × Place)) : State :=
  let l := ps.map fun p => (p.1, (match p.2 with | .glob _ sync _ _ => sync | .stash _ _ _ => false), p.2.obj)
  if l.isEmpty then s
  else c.mod s fun g => { g with ops := g.ops.map fun (o : Op) => if o.id + 1 == g.nextOp then { o with again := some (n, l) } else o }

/-- A lane load after its checks: blocks filled, leases taken, poisoned lanes killed, and the operation issued (R169,
R361). `uni`: every lane reads one address (R116). -/
def laneLoad (c : Ctx) (s : State) (d : BitVec 8) (ps : List (Nat × Place)) (kills : List Nat) (ad : Nat → W64) (n : Nat)
    (uni : Bool) : Res := do
  let places := ps.map (·.2)
  let s1 := loadReady c s places
  let bad := kills ++ (ps.filter fun p => s1.placePoisoned p.2).map (·.1)
  let s2 := s1.killEach c.g (bad.map fun i => (i, ad i))
  let mask := maskOf fun i => c.em.getLsbD i && !bad.contains i
  let data := s1.laneData c ps n
  let l := if uni then Lanes.splat (data ((lanesOf mask).headD 0)) else Lanes.of data
  let s3 ← issueA c s2 [.vec d mask l (if uni then .u else .g)] .ready false
  .ok (loadLater c s3 n (ps.filter fun p => mask.getLsbD p.1))

/-- `ld`, `ld16` and `ld8` (R169). -/
def loadOp (i : Instr) (d a b : BitVec 8) (n : Nat) (s : State) : Host.Outcome State Fault Refusal :=
  issue i s fun c s => classA c s fun s =>
    if c.em = 0 then instantA c s
    else do
      gateA c s
      let off := c.v b
      let ad := laneAd (c.s a) off
      let (s1, ps, kills) ← checkLanes c s .load (lanesOf c.em) ad n
      laneLoad c s1 d ps kills ad n (off.tag == .u)

/-- `ld` (R169). -/
def execLd (d a b : BitVec 8) (s : State) : Host.Outcome State Fault Refusal := loadOp (.ld d a b) d a b 4 s
/-- `ld16` (R169). -/
def execLd16 (d a b : BitVec 8) (s : State) : Host.Outcome State Fault Refusal := loadOp (.ld16 d a b) d a b 2 s
/-- `ld8` (R169). -/
def execLd8 (d a b : BitVec 8) (s : State) : Host.Outcome State Fault Refusal := loadOp (.ld8 d a b) d a b 1 s

/-- Address of `lds`, `sts`, `ldb` and `stb` (R170, R171). -/
def scalAd (base off : W64) : W64 := base + (off.setWidth 32).signExtend 64

/-- `lds` (R170). -/
def execLds (d a b : BitVec 8) (s : State) : Host.Outcome State Fault Refusal :=
  issue (.lds d a b) s fun c s => classA c s fun s => do
    gateA c s
    let ad := scalAd (c.s a) (c.s b)
    let (s1, ps, _) ← checkLanes c s .scalarLoad [0] (fun _ => ad) 8
    match ps with
    | (_, p) :: _ =>
      let s2 := loadReady c s1 [p]
      if s2.placePoisoned p then .error (.done (s2.terminate c.g 19 12 ad))
      else do
        let v := BitVec.ofNat 64 (leNat (s2.loadBytes c.g ((s2.group? c.g).getD c.grp) c.core p 8))
        let s3 ← issueA c s2 [.scal (sdstNum d) v] .ready false
        .ok (loadLater c s3 8 [(0, p)])
    | [] => .ok s1

/-- The checks of a 128-byte block: R155 and the alignment of its base come before the lanes (R171). -/
def blockOk (ad : W64) : Except Stop Unit :=
  if badVa ad then .error (.trap PROT ad) else if ad.toNat % 128 ≠ 0 then .error (.trap ALIGN ad) else .ok ()

/-- Address of a lane's word in a block. -/
def blockAd (ad : W64) (i : Nat) : W64 := ad + BitVec.ofNat 64 (4 * i)

/-- `ldb` (R171). -/
def execLdb (d a b : BitVec 8) (s : State) : Host.Outcome State Fault Refusal :=
  issue (.ldb d a b) s fun c s => classA c s fun s =>
    if c.em = 0 then instantA c s
    else do
      gateA c s
      let ad := scalAd (c.s a) (c.s b)
      blockOk ad
      let (s1, ps, kills) ← checkLanes c s .load (lanesOf c.em) (blockAd ad) 4
      laneLoad c s1 d ps kills (blockAd ad) 4 false

/-! ### Stores (R168 to R171) -/

/-- The places of some lanes as a shadow counts them: no access is made (R97). -/
def shadowPlaces (c : Ctx) (s : State) (lanes : List Nat) (ad : Nat → W64) : List Place :=
  lanes.filterMap fun i => match s.place c.team c.kern c.bez .store (ad i) with | .ok p => some p | _ => none

/-- A lane store of `n` bytes per lane (R169): checked, counted, held in ascending lane order, and signed (R98). -/
def laneStore (c : Ctx) (s : State) (ad : Nat → W64) (align n : Nat) (data : Nat → W32) : Res :=
  let bytes := fun i => leBytes (data i).toNat n
  let lanes := lanesOf c.em
  let signed := fun (s : State) => if c.shadowed then c.mod s fun g => g.signLanes c.em ad bytes else s
  if lanes.isEmpty then (instantB c s .ok).map signed
  else if c.g.sh then (countUnits c s (shadowPlaces c s lanes ad)).map signed
  else do
    gateB c s
    let (s1, ps, _) ← checkLanes c s .store lanes ad align
    let s2 ← countUnits c s1 (ps.map (·.2))
    .ok (signed (holdStores c (s2.fillPlaces (ps.map (·.2))) (ps.map fun p => (p.2, bytes p.1))))

/-- `st`, `st16` and `st8` (R169). -/
def storeOp (i : Instr) (d a b : BitVec 8) (n : Nat) (s : State) : Host.Outcome State Fault Refusal :=
  issue i s fun c s => laneStore c s (laneAd (c.s a) (c.v b)) n n (fun j => (c.v d).l.lane j)

/-- `st` (R169). -/
def execSt (d a b : BitVec 8) (s : State) : Host.Outcome State Fault Refusal := storeOp (.st d a b) d a b 4 s
/-- `st16` (R169). -/
def execSt16 (d a b : BitVec 8) (s : State) : Host.Outcome State Fault Refusal := storeOp (.st16 d a b) d a b 2 s
/-- `st8` (R169). -/
def execSt8 (d a b : BitVec 8) (s : State) : Host.Outcome State Fault Refusal := storeOp (.st8 d a b) d a b 1 s

/-- `sts` (R170). -/
def execSts (d a b : BitVec 8) (s : State) : Host.Outcome State Fault Refusal :=
  issue (.sts d a b) s fun c s =>
    let ad := scalAd (c.s a) (c.s b)
    if c.g.sh then (countUnits c s (shadowPlaces c s [0] fun _ => ad)).map fun s => sign c s [c.s d, c.s a, c.s b]
    else do
      gateB c s
      let (s1, ps, _) ← checkLanes c s .store [0] (fun _ => ad) 8
      let s2 ← countUnits c s1 (ps.map (·.2))
      let s3 := holdStores c (s2.fillPlaces (ps.map (·.2))) (ps.map fun p => (p.2, leBytes (c.s d).toNat 8))
      .ok (sign c s3 [c.s d, c.s a, c.s b])

/-- `stb` (R171). -/
def execStb (d a b : BitVec 8) (s : State) : Host.Outcome State Fault Refusal :=
  issue (.stb d a b) s fun c s => do
    let ad := scalAd (c.s a) (c.s b)
    if c.em ≠ 0 then blockOk ad
    laneStore c s (blockAd ad) 4 4 (fun j => (c.v d).l.lane j)

/-! ### Mapped blocks (R167) -/

/-- The class-b instructions of R167 that act on blocks `off` to `off + 256 n − 1` of the own stash: shared checks. -/
def blockRange (c : Ctx) (x : W64) : Except Stop (Nat × Nat) :=
  let off := bits x.toNat 19 0
  let n := bits x.toNat 44 32
  if bits x.toNat 31 20 ≠ 0 || x.toNat / 2 ^ 45 ≠ 0 || n = 0 || 4096 < n then .error (.trap ILLOPERAND)
  else if off % 256 ≠ 0 then .error (.trap ALIGN (ownVa off))
  else if recStash c.kern.record < off + 256 * n then .error (.trap PROT (ownVa off))
  else .ok (off, n)

/-- The mapped blocks of the team in a range. -/
def Team.mappedIn (t : Team) (off n : Nat) : List Mapped := t.mapped.filter fun m => off ≤ m.off && m.off < off + 256 * n

/-- A block of a range that an open task of another group holds (R224). -/
def Team.heldIn (t : Team) (r : GRef) (off n : Nat) : Option Nat :=
  ((t.mappedIn off n).find? fun m => t.blockHeld r (m.off / 256)).map fun m => m.off / 256

/-- `sunmap` and `sflush` (R167): commit, then write back, and unmap or stay mapped. A shadow commits and signs (R97, R98). -/
def blockOp (i : Instr) (a : BitVec 8) (unmap : Bool) (s : State) : Host.Outcome State Fault Refusal :=
  issue i s fun c s =>
    if c.em = 0 then classB c s [c.s a] fun s => instantB c s .ok
    else if c.g.sh then do
      let s1 ← boundary c s false
      .ok (sign c s1 [c.s a])
    else do
      let (off, n) ← blockRange c (c.s a)
      gateB c s
      let s1 ← boundary c s false
      classB c s1 [c.s a] fun s =>
        match (s.team? c.g.team).bind fun t => t.heldIn c.g off n with
        | some blk => .error (.wait (.block c.g.team blk) s)
        | none =>
          let ms := match s.team? c.g.team with | some t => t.mappedIn off n | none => []
          .ok (ms.foldl (fun s m =>
            let s1 := s.writeBack c.g.team m.off
            if unmap then s1.modTeam c.g.team fun t => { t with mapped := t.mapped.filter fun x => x.off != m.off } else s1) s)

/-- `sunmap` (R167). -/
def execSunmap (a : BitVec 8) (s : State) : Host.Outcome State Fault Refusal := blockOp (.sunmap a) a true s
/-- `sflush` (R167). -/
def execSflush (a : BitVec 8) (s : State) : Host.Outcome State Fault Refusal := blockOp (.sflush a) a false s

/-- The translation of one sector for `smap` (R167): KIND 2, W and SYNC 0 are required. -/
def smapSector (s : State) (c : Ctx) (va : W64) : PR :=
  match s.translate c.bez c.core c.key .store va.toNat with
  | .ok pa sync ow =>
    (match s.lookup c.bez c.core va.toNat with
     | .leaf l => if leafKind l.raw == 2 && !sync then .ok (.glob pa sync ow va) else .trap PROT
     | _ => .trap PROT)
  | .prot => .trap PROT
  | .park ca l => .park ca l
  | .migrating => .migrating
  | .filling f => .filling f
  | .kill => .trap PROT
  | .uncorr => .trap PROT

/-- `smap` (R167). Stores in flight to the sectors reach their homes first (R166, R221). A shadow commits and signs (R97,
R98). -/
def execSmap (d a b : BitVec 8) (s : State) : Host.Outcome State Fault Refusal :=
  issue (.smap d a b) s fun c s =>
    if c.em = 0 then classB c s [c.s d, c.s a, c.s b] fun s => instantB c s .ok
    else if c.g.sh then do
      let s1 ← boundary c s false
      .ok (sign c s1 [c.s d, c.s a, c.s b])
    else
      let n := bits (c.s b).toNat 12 0
      let va := c.s d
      let off := (c.s a).toNat
      if (c.s b).toNat / 2 ^ 13 ≠ 0 || n = 0 || 4096 < n then .error (.trap ILLOPERAND)
      else if va.toNat % 256 ≠ 0 then .error (.trap ALIGN va)
      else if off % 256 ≠ 0 then .error (.trap ALIGN (ownVa off))
      else if badVa va || isWindow va || isWindow (va + BitVec.ofNat 64 (256 * n - 1)) then .error (.trap PROT va)
      else if recStash c.kern.record < off + 256 * n || !(c.team.mappedIn off n).isEmpty then .error (.trap PROT (ownVa off))
      else
        let vas := (List.range n).map fun i => va + BitVec.ofNat 64 (256 * i)
        let prs := vas.map fun v => (v, smapSector s c v)
        match prs.find? fun p => match p.2 with | .trap _ => true | _ => false with
        | some p => .error (.trap PROT p.1)
        | none =>
        match prs.findSome? fun p => match p.2 with | .park ca l => some (p.1, ca, l) | _ => none with
        | some (v, ca, l) => .error (.done (s.parkGroup c v ca l true true))
        | none =>
        if prs.any fun p => p.2 == .migrating then .error (.done (s.modGroup c.g (Group.park · .migrating)))
        else do
          gateB c s
          let s1 ← boundary c s false
          classB c s1 [c.s d, c.s a, c.s b] fun s =>
            let secs := prs.filterMap fun p => match p.2 with | .ok (.glob pa _ ow v) => some (v, pa / 256, ow) | _ => none
            match secs.findSome? fun p => (s.mappedBlock p.2.1).bind fun m =>
                (s.team? m.1).bind fun t => if t.undo.any fun u => u.blk == m.2.off / 256 then some (m.1, m.2.off) else none with
            | some (t, o) => .error (.wait (.recall t o) s)
            | none =>
              let s2 := secs.foldl (fun s p => match s.mappedBlock p.2.1 with
                | some (t, m) => s.recall t m.off true
                | none => s.drainSector p.2.1) s
              .ok ((s2.touch c.bez c.core vas).modTeam c.g.team fun t =>
                { t with mapped := t.mapped ++ secs.zipIdx.map fun p =>
                    ({ off := off + 256 * p.2, va := p.1.1, sector := p.1.2.1, owner := p.1.2.2, filled := false, dirty := false } : Mapped) })

/-! ### Prefetch and fences (R172, R173) -/

/-- `pref` (R172): nothing architectural. -/
def execPref (a b : BitVec 8) (s : State) : Host.Outcome State Fault Refusal :=
  issue (.pref a b) s fun c s => instantB c s fun s =>
    .ok (if c.shadowed then c.mod s fun g => g.signLanes c.em (laneAd (c.s a) (c.v b)) fun _ => [] else s)

/-- `fence` (R173): `l` FLUSH, `k` KIND, `f` SCOPE. An acquire follows every load before it (R229), and no lease that began before
it serves the group any more, whatever SCOPE it names (R173). A shadow's fence completes when its leader's has. -/
def execFence (l : BitVec 1) (k : BitVec 2) (f : BitVec 3) (s : State) : Host.Outcome State Fault Refusal :=
  issue (.fence l k f) s fun c s => do
    let s1 ← if k.getLsbD 0 then boundary c s false else .ok s
    if c.g.sh then
      let (s2, _) ← takeSide c s1 1
      .ok s2
    else
      let s2 := if k.getLsbD 0 then s1.publish c.g c.core f.toNat else s1
      if l == 1 && s2.hasPosted c.g f.toNat then .error (.wait (.posted f.toNat) s2)
      else
        let s3 := if k.getLsbD 1 then c.mod s2 fun g => g.fixAll.acquireAt s2.stepNo else s2
        .ok (passSide c s3 [0])

/-! ### Copies (R174 to R176) -/

/-- Fields of a shape record (R174). -/
structure Shape where
  src : W64
  dst : W64
  ext : Nat → Nat
  box : Nat → Nat
  esize : Nat
  scatter : Bool
  str : Nat → W64

/-- The shape of a record. -/
def shapeRec (r : List Byte) : Shape :=
  let e := bits (dword r 32).toNat
  { src := dword r 0, dst := dword r 8,
    ext := fun k => match k with
      | 0 => bits (dword r 16).toNat 31 0
      | 1 => bits (dword r 16).toNat 63 32
      | _ => bits (dword r 24).toNat 31 0,
    box := fun k => e (16 * k + 15) (16 * k),
    esize := 2 ^ e 49 48, scatter := (dword r 32).getLsbD 50,
    str := fun k => if k = 1 then dword r 40 else dword r 48 }

/-- Elements of the box. -/
def Shape.count (h : Shape) : Nat := h.box 0 * h.box 1 * h.box 2

/-- The record breaks R174 or R175. -/
def shapeBad (r : List Byte) (coords : W64) : Bool :=
  let h := shapeRec r
  (dword r 56) ≠ 0 || bits (dword r 32).toNat 63 51 ≠ 0 || bits (dword r 24).toNat 63 60 ≠ 0 ||
  ([0, 1, 2].any fun k => h.box k == 0 || h.ext k == 0) || coords.getLsbD 63

/-- Coordinate `k` of a packed coordinate scalar (R174). -/
def coord (x : W64) (k : Nat) : Nat := bits x.toNat (21 * k + 20) (21 * k)

/-- The elements of a box: tensor offset from the base, dense offset, and whether in bounds (R174). -/
def Shape.elems (h : Shape) (x : W64) : List (W64 × Nat × Bool) :=
  (List.range (h.box 2)).flatMap fun z => (List.range (h.box 1)).flatMap fun y => (List.range (h.box 0)).map fun w =>
    (BitVec.ofNat 64 ((coord x 0 + w) * h.esize) + BitVec.ofNat 64 (coord x 1 + y) * h.str 1 + BitVec.ofNat 64 (coord x 2 + z) * h.str 2,
     ((z * h.box 1 + y) * h.box 0 + w) * h.esize,
     coord x 0 + w < h.ext 0 && coord x 1 + y < h.ext 1 && coord x 2 + z < h.ext 2)

/-- The completion object that `cpy` names (R175, R165): a 16-byte-aligned window address, or none. -/
def cpyObject (c : Ctx) (s : State) (x : W64) : Except Stop (Option Obj) :=
  if x = 0 then .ok none
  else if badVa x || !isWindow x then .error (.trap PROT x)
  else if x.toNat % 16 ≠ 0 then .error (.trap ALIGN x)
  else match s.window c.team c.kern.record x with
    | .ok p => .ok (some p.obj)
    | .trap code => .error (.trap code x)
    | _ => .error (.trap PROT x)

/-- `cpy` (R175, R176). Its record on a POISONED page traps PROT (R160). A shadow commits and signs (R97, R98). -/
def execCpy (d a b : BitVec 8) (s : State) : Host.Outcome State Fault Refusal :=
  issue (.cpy d a b) s fun c s =>
    if c.em = 0 then classB c s [c.s d, c.s a, c.s b] fun s => instantB c s .ok
    else if c.g.sh then do
      let s1 ← boundary c s false
      .ok (sign c s1 [c.s d, c.s a, c.s b])
    else if (c.s a).toNat % 64 ≠ 0 then .error (.trap ALIGN (c.s a))
    else do
      gateB c s
      let (s1, r) ← readRecordAs .copy c s (c.s a) 64
      let h := shapeRec r
      if shapeBad r (c.s b) || 1048576 < h.count * h.esize then throw (.trap ILLOP)
      for x in [h.src, h.dst, h.str 1, h.str 2] do
        if x.toNat % h.esize ≠ 0 then throw (.trap ALIGN x)
      let o ← cpyObject c s1 (c.s d)
      let s2 ← boundary c s1 false
      classB c (s2.publish c.g c.core 3) [c.s d, c.s a, c.s b] fun s =>
        issueB c s (.engine s.nextCmd) fun op s =>
          let cmd : Cmd := { id := s.nextCmd, by_ := c.issuer (some op) none, what := .copy r (c.s b) o }
          .ok (c.mod { s with cmds := s.cmds ++ [cmd], nextCmd := s.nextCmd + 1 } fun g =>
            { (g.modClause fun cl => { cl with issuedC := true }) with copies := g.copies ++ [(cmd.id, none)] })

/-- A command by number. -/
def State.cmd? (s : State) (id : Nat) : Option Cmd := s.cmds.find? fun c => c.id == id

/-- The state with a command changed. -/
def State.modCmd (s : State) (id : Nat) (f : Cmd → Cmd) : State :=
  { s with cmds := s.cmds.map fun c => if c.id == id then f c else c }

/-- A command leaves its engine: its flag falls (R51), its ticket completes (R189). -/
def State.endCmd (s : State) (c : Cmd) : State :=
  let s1 := { s with cmds := s.cmds.filter fun x => x.id != c.id }
  let s2 := match c.by_.op with
    | some op => s1.modGroup c.by_.g fun g => g.dropOp op
    | none => s1
  s2.completeTicket c.by_.ctr

/-- Copies that have ended leave their batches, and `cbat` moves to the last batch complete (R176). -/
def Group.copyDone (g : Group) (id : Nat) : Group :=
  let cs := g.copies.filter fun p => p.1 != id
  let left := cs.filterMap (·.2)
  { g with copies := cs, cbat := BitVec.ofNat 32 (match left with
      | [] => g.lastCopyBatch.toNat
      | n :: ns => ns.foldl min n - 1) }

/-- What stops an engine at one of its accesses (R163, R175, R375). -/
inductive EngineStop where
  | prot (code : Nat) (va : W64)
  | park (va : W64) (cause level : Nat) (write : Bool)
  | later                                  -- a block of an open task, or a page being filled
  | migr                                   -- a MIGRATING page
deriving DecidableEq, Repr

/-- One address resolved for an engine command (R160, R163, R224). -/
def State.enginePlace (s : State) (t : Team) (k : Kernel) (b : Bezel) (kind : Acc) (va : W64) : Except EngineStop Place :=
  match s.place t k b kind va with
  | .ok p =>
    let held := fun (x off : Nat) => match s.team? x with
      | some tm => tm.undo.any fun u => u.blk == off / 256
      | none => false
    let wait := match p with
      | .stash x off _ => held x off
      | .glob pa _ _ _ => (match s.mappedBlock (pa / 256) with
        | some (x, m) => held x m.off
        | none => false)
    if wait then .error .later else .ok p
  | .trap code => .error (.prot code va)
  | .park ca l => .error (.park va ca l kind.writes)
  | .migrating => .error .migr
  | .filling _ => .error .later
  | .kill => .error (.prot PROT va)
  | .uncorr => .error (.prot PROT va)

/-- A stash object lies in a block that an open task holds, so that an engine's arrival on it waits (R224). -/
def State.objHeld (s : State) : Option Obj → Bool
  | some (.stash sid off _) => (match s.team? sid with
    | some t => t.undo.any fun u => u.blk == off / 256
    | none => false)
  | _ => false

/-- A byte at its home as an engine reads it for a command issued at step `since` (R234). -/
def State.homeSrc (s : State) (since pa : Nat) : Byte :=
  match s.mappedBlock (pa / 256) with
  | some (sid, m) => s.srcByte since 0 pa (s.srcByte since (sid + 1) (m.off + pa % 256) (s.homeByte pa))
  | none => s.srcByte since 0 pa (s.homeByte pa)

/-- Bytes at a place as an engine reads them: committed contents, no lease (R234). -/
def State.engineBytes (s : State) (since : Nat) (p : Place) (n : Nat) : List Byte :=
  match p with
  | .stash t off _ => (match (s.fillBlock t off).team? t with
      | some tm => (List.range n).map fun i => s.srcByte since (t + 1) (off + i) (memByte tm.stash (off + i))
      | none => List.replicate n 0)
  | .glob pa _ _ _ => (List.range n).map fun i => s.homeSrc since (pa + i)

/-- The fabric address of a stash byte that was named by a global address: the sector its block maps (R166, R193). -/
def State.mappedHome (s : State) (sid off : Nat) : Option (Nat × Nat) :=
  (s.team? sid).bind fun t => (t.mapped.find? fun m => m.off == off / 256 * 256).map fun m =>
    (256 * m.sector + off % 256, m.owner)

/-- Pieces of one sector written by an engine in one instant (R216), at the home also where that is on another device, whose
answer the engine awaits (R235); a stash block named by the address of the sector it maps is recalled first (R166). Poison
marks the whole sector (R361). -/
def State.engineSector (s : State) (i : Issuer) (l : List (Place × List Byte)) (poison : Bool) : State :=
  let undef := fun (a : Nat) => (List.range 256).map fun j => s.freeAt (a + j)
  match l with
  | [] => s
  | (p, _) :: _ =>
    let glob : Option (Nat × Bool × Nat) := match p with
      | .glob pa sync ow _ => some (pa, sync, ow)
      | .stash x off va => if isWindow va then none else (s.mappedHome x off).map fun (h : Nat × Nat) => (h.1, false, h.2)
    match glob, p with
    | some (pa, sync, ow), _ =>
      if poison then
        let s1 := match s.mappedBlock (pa / 256) with
          | some (sid, m) => s.recall sid m.off false
          | none => s
        s1.sectorWrite (pa / 256) (undef (pa / 256 * 256)) ow 0 true (some sync)
      else (match p with | .glob _ _ _ va => s.spoilMirrors i.bezel va | .stash _ _ va => s.spoilMirrors i.bezel va).landSector (l.map fun (x : Place × List Byte) => (pa / 256 * 256 + x.1.key.2 % 256, x.2)) ow (some sync) i.handle
    | none, .stash x off _ =>
      let blk := off / 256
      let s1 := s.fillBlock x off
      let old := match s1.team? x with | some t => t.stashBytes (256 * blk) 256 | none => List.replicate 256 0
      let cells : List (Nat × Byte) := l.flatMap fun (y : Place × List Byte) => cellsAt (y.1.key.2) y.2
      let new := (List.range 256).map fun j => ((cells.reverse.find? fun (c : Nat × Byte) => c.1 == 256 * blk + j).map (·.2)).getD (old[j]?.getD 0)
      let s2 := l.foldl (fun (s : State) (y : Place × List Byte) => s.noteLate (x + 1) y.1.key.2 y.2.length) s1
      let whole := (List.range 256).all fun j => cells.any fun c => c.1 == 256 * blk + j
      if poison then
        (s2.modTeam x fun t => t.stashWrite none (256 * blk) (undef (2 ^ 77 + off))).modTeam x fun t =>
          { t with bad := blk :: t.bad.filter fun b => b != blk }
      else if whole then s2.modTeam x fun t => t.stashWrite none (256 * blk) new
      else l.foldl (fun (s : State) (y : Place × List Byte) => s.modTeam x fun t => t.stashWrite none y.1.key.2 y.2) s2
    | none, .glob _ _ _ _ => s

/-- `n` bytes of one sector written by an engine in one instant (R216). -/
def State.engineWrite (s : State) (i : Issuer) (_t : Team) (p : Place) (l : List Byte) (poison : Bool) : State :=
  s.engineSector i [(p, l)] poison

/-- One element of a copy: its bytes, or the reason it stops; a poisoned source gives `none` (R361). -/
def State.copyElem (s : State) (t : Team) (k : Kernel) (b : Bezel) (since : Nat) (src : Option W64) (dst : W64) (n : Nat) :
    Except EngineStop (Place × Option (List Byte)) := do
  let d ← s.enginePlace t k b .store dst
  match src with
  | none => .ok (d, some (List.replicate n 0))
  | some a =>
    let p ← s.enginePlace t k b .copy a
    .ok (d, if s.placePoisoned p then none else some (s.engineBytes since p n))

/-- The element moves of a copy: source (none for zero fill) and destination (R175). -/
def copyMoves (r : List Byte) (coords : W64) : List (Option W64 × W64) :=
  let h := shapeRec r
  (h.elems coords).filterMap fun e =>
    let (off, dense, inb) := e
    if h.scatter then (if inb then some (some (h.src + BitVec.ofNat 64 dense), h.dst + off) else none)
    else some (if inb then some (h.src + off) else none, h.dst + BitVec.ofNat 64 dense)

/-- A command parks alone on a fault (R163): it joins the entry of its granule. -/
def State.parkCmd (s : State) (c : Cmd) (va : W64) (cause level : Nat) (write : Bool) (place : W32) : State :=
  let f : FaultInfo :=
   { va := va, cause := cause, level := level, write := write, engine := true, handle := c.by_.handle, place := place,
     joiner := .cmd c.id }
  (s.fault c.by_.bezel f).modCmd c.id fun c => { c with fault := some va }

/-- A command parks at a MIGRATING page until the next `tlbinv` of its bezel (R163). -/
def State.migrCmd (s : State) (c : Cmd) : State := s.modCmd c.id fun c => { c with migr := true }

/-- A command waits at one of its accesses (R163). -/
def Cmd.parked (c : Cmd) : Bool := c.fault.isSome || c.migr

/-- A command that found PROT or RANK stops: the group gets a deferred trap, and the command ends (R375). -/
def State.trapCmd (s : State) (c : Cmd) (code : Nat) (va : W64) : State := (s.deferTrap c.by_ code va).endCmd c

/-- The moves of a copy that stand open: those into sectors that it has not written yet (R235). -/
def Cmd.openMoves (c : Cmd) (record : List Byte) (coords : W64) : List (Option W64 × W64) :=
  (copyMoves record coords).filter fun m => !c.written.contains (m.2.toNat / 256)

/-- Elements written, each destination sector in one instant (R175); a sector with a poisoned source is written poisoned
(R361). -/
def State.copyWrite (s : State) (i : Issuer) (moves : List (Place × Option (List Byte))) : State :=
  let sec := fun (p : Place) => (p.key.1, p.key.2 / 256)
  ((moves.map fun m => sec m.1).eraseDups).foldl (fun s k =>
    let l := moves.filter fun m => sec m.1 == k
    s.engineSector i (l.map fun m => (m.1, m.2.getD [])) (l.any fun m => m.2.isNone)) s

/-- A copy that parks, stops or waits at an access (R163, R175). -/
def State.copyStop (s : State) (cmd : Cmd) (t : Team) : EngineStop → Option State
  | .prot code va => some ((s.trapCmd cmd code va).modGroup cmd.by_.g fun g => g.copyDone cmd.id)
  | .park va ca l w => some (s.parkCmd cmd va ca l w (placeWord t cmd.by_.g.grp))
  | .migr => some (s.migrCmd cmd)
  | .later => none

/-- The source sectors of some moves, read for a command: one that is poisoned has its CHECK verified (R361, R362). -/
def State.checkSources (s : State) (t : Team) (k : Kernel) (b : Bezel) (handle : W64) (srcs : List W64) : State :=
  srcs.foldl (fun s a => match s.enginePlace t k b .engine a with | .ok p => s.checkPlaces handle [p] | .error _ => s) s

/-- The moves of a copy made; `open_` are the moves by their addresses. -/
def State.copyMoved (s : State) (cmd : Cmd) (t : Team) (k : Kernel) (b : Bezel) (open_ : List (Option W64 × W64))
    (moves : List (Place × Option (List Byte))) : State :=
  (if moves.any fun m => m.2.isNone then s.checkSources t k b cmd.by_.handle (open_.filterMap (·.1)) else s).copyWrite cmd.by_ moves

/-- A copy engine writes one destination sector of a copy that goes on: sector `n` of its destination addresses (R175,
R235). -/
def State.copySector (s : State) (id n : Nat) : Option State :=
  match s.cmd? id with
  | none => none
  | some cmd =>
    match cmd.what, s.owner? cmd.by_ with
    | .copy r coords _, some (t, k, b) =>
      let mv := (cmd.openMoves r coords).filter fun m => m.2.toNat / 256 == n
      if cmd.parked || cmd.stopped || mv.isEmpty then none
      else match mv.mapM fun m => s.copyElem t k b cmd.by_.since m.1 m.2 (shapeRec r).esize with
        | .error e => s.copyStop cmd t e
        | .ok moves => some ((s.copyMoved cmd t k b mv moves).modCmd id fun c => { c with written := n :: c.written })
    | _, _ => none

/-- COPY_ENGINE_COMPLETE (R175): every element that is left is moved, the completion object's PENDING falls by the box bytes,
and the operation completes; or the command parks or stops. -/
def State.copyComplete (s : State) (id : Nat) : Option State :=
  match s.cmd? id with
  | none => none
  | some cmd =>
    match cmd.what, s.owner? cmd.by_ with
    | .copy r coords obj, some (t, k, b) =>
      if cmd.parked || cmd.stopped || s.objHeld obj then none
      else
        let h := shapeRec r
        match (cmd.openMoves r coords).mapM fun m => s.copyElem t k b cmd.by_.since m.1 m.2 h.esize with
        | .error e => s.copyStop cmd t e
        | .ok moves =>
          let s1 := s.copyMoved cmd t k b (cmd.openMoves r coords) moves
          let s2 := match obj with
            | some o => s1.arrive o 0 (BitVec.ofInt 32 (-((h.count * h.esize : Nat) : Int))) cmd.by_.handle cmd.by_.core
            | none => s1
          some ((s2.endCmd cmd).modGroup cmd.by_.g fun g => g.copyDone id)
    | _, _ => none

/-- COPY_ENGINE_COMPLETE. -/
def execCopyEngineComplete (s : State) : Host.Outcome State Fault Refusal :=
  eventStep s "COPY_ENGINE_COMPLETE" fun e => match e with | .copyEngineComplete c => s.copyComplete c | _ => none

/-! ### Walks, fault records, recalls, leases, posted stores -/

/-- PAGE_WALK_COMPLETE (R161, R162): a leaf found enters the core's TLB and its die's, in place of one held there; a fault is
held nowhere, and the access that needs it parks when it issues. -/
def execPageWalkComplete (s : State) : Host.Outcome State Fault Refusal :=
  eventStep s "PAGE_WALK_COMPLETE" fun e => match e with
    | .pageWalkComplete b core va => (s.bezel? b).map fun bz => s.refillTlb bz core va.toNat
    | _ => none

/-- FAULT_RECORD_DELIVERY (R164): the oldest waiting record is sealed; a fault record counts the accesses joined so far. -/
def State.recordDelivery (s : State) (b : Nat) : Option State :=
  match s.bezel? b with
  | none => none
  | some bz =>
    match bz.msgs with
    | [] => none
    | (tag, body) :: rest =>
      let body := match bz.faults.find? fun f => f.fid == tag && f.body.take 8 == body.take 8 with
        | some f => f.body
        | none => body
      (s.mbPost bz bz.faultMb tag body).map fun s => s.modBezel b fun x => { x with msgs := rest }

/-- FAULT_RECORD_DELIVERY. -/
def execFaultRecordDelivery (s : State) : Host.Outcome State Fault Refusal :=
  eventStep s "FAULT_RECORD_DELIVERY" fun e => match e with | .faultRecordDelivery b => s.recordDelivery b | _ => none

/-- Groups that wait in a given way are woken (R88). -/
def State.wakeAll (s : State) (f : Wait → Bool) : State :=
  let up := fun (g : Group) => if f g.wait then g.wake s.stepNo else g
  { s with teams := s.teams.map fun (t : Team) => { t with groups := t.groups.map up, shadows := t.shadows.map up } }

/-- STASH_RECALL (R166): a mapped block that no open task holds is recalled, and unmapped for another stash's `smap`. -/
def State.stashRecall (s : State) (sid off : Nat) (unmap : Bool) : Option State :=
  match s.team? sid with
  | none => none
  | some t =>
    if (t.mapped.any fun m => m.off == off) && !(t.undo.any fun u => u.blk == off / 256) then
      some ((s.recall sid off unmap).wakeAll fun w => w == .recall sid off)
    else none

/-- STASH_RECALL. -/
def execStashRecall (s : State) : Host.Outcome State Fault Refusal :=
  eventStep s "STASH_RECALL" fun e => match e with | .stashRecall t off u => s.stashRecall t off u | _ => none

/-- BLOCKED_ACCESS_RESUME (R224): the block is no longer held by another group's open task, and the access issues again. -/
def State.blockedResume (s : State) (r : GRef) : Option State :=
  match s.group? r with
  | none => none
  | some g =>
    match g.wait with
    | .block t blk =>
      (match s.team? t with
       | some tm => if tm.blockHeld r blk then none else some (s.modGroup r fun g => g.wake s.stepNo)
       | none => some (s.modGroup r fun g => g.wake s.stepNo))
    | _ => none

/-- BLOCKED_ACCESS_RESUME. -/
def execBlockedAccessResume (s : State) : Host.Outcome State Fault Refusal :=
  eventStep s "BLOCKED_ACCESS_RESUME" fun e => match e with | .blockedAccessResume g => s.blockedResume g | _ => none

/-- LEASE_EXPIRY (R226). -/
def State.leaseExpiry (s : State) (core sector : Nat) : Option State :=
  if s.leases.any fun l => l.core == core && l.sector == sector then
    some { s with leases := s.leases.filter fun l => !(l.core == core && l.sector == sector) }
  else none

/-- LEASE_EXPIRY. -/
def execLeaseExpiry (s : State) : Host.Outcome State Fault Refusal :=
  eventStep s "LEASE_EXPIRY" fun e => match e with | .leaseExpiry core sec => s.leaseExpiry core sec | _ => none

/-- An entry may reach its home before those ahead of it (R231): stores within this module go in the order of their commits
for each sector (R217); a posted entry goes after those of other instructions of its source to its sectors, and the lanes of one
instruction in any order, but for atomics to one address, which apply in ascending lane order (R220). -/
def State.mayLand (s : State) (i : Nat) (p : Posted) : Bool :=
  let secs := p.sectors
  !(s.posted.take i).any fun q => q.sectors.any (fun x => secs.contains x) &&
    (if p.inside s.devId then q.inside s.devId && !(q.src == p.src && q.instr == p.instr) else !q.acked && q.src == p.src && (q.instr != p.instr || (q.atomic.isSome && q.atomic.map (·.1) == p.atomic.map (·.1))))

/-- An operation of an agent of another module arrives at its home: bytes, a line of a `tcopy` with its tag, an arrival, a
completion, an atomic or a claim (R232, R269, R184, R189, R193, R280). -/
def State.extArrival (s : State) : PostedSrc → Option State
  | .ext pa l ow h =>
    if l.isEmpty || pa / 256 ≠ (pa + l.length - 1) / 256 || s.recallWaits (pa / 256) then none else some (s.landSector [(pa, l)] ow none h)
  | .extLine sector l tag ow =>
    if l.length ≠ 256 || s.recallWaits sector then none
    else
      let s1 := s.landSector [(256 * sector, l)] ow none 0
      some (s1.setSidecar sector { s1.sidecar sector with rseq := tag })
  | .extArrive pa va h n bytes =>
    if pa % 32 ≠ 0 || pa / 2 ^ 43 ≠ s.devId then none else some (s.arrive (.glob pa va 0) n bytes h extAgent)
  | .extDraw pa va h => if pa % 32 ≠ 0 || pa / 2 ^ 43 ≠ s.devId then none
      else (match s.draw (.glob pa va 0) h with | .ticket _ s' => some s' | .wait => none)
  | .extComplete pa va t =>
    if pa % 32 ≠ 0 || pa / 2 ^ 43 ≠ s.devId then none else some (s.complete (.glob pa va 0) t.toNat extAgent).1
  | .extClaim pa va h ow => if pa % 32 ≠ 0 || pa / 2 ^ 43 ≠ s.devId || s.recallWaits (pa / 256) then none
      else some (s.claimAt (.glob pa va ow) none h).1
  | .extAtomic pa op et x e ow =>
    if pa % 4 ≠ 0 || op.toNat < 0xA4 || 0xAB < op.toNat || (op.toNat ≤ 0xA6 && 5 ≤ et) || s.recallWaits (pa / 256) then none
    else
      let s1 := s.drainSector (pa / 256)
      let s2 := match s1.mappedBlock (pa / 256) with
        | some (sid, m) => s1.recall sid m.off false
        | none => s1
      if s2.poisoned (pa / 256) then some (s2.checkSector 0 (pa / 256))
      else some ((s2.homeWrite pa (leBytes (atomicNew op et (BitVec.ofNat 32 (leNat (memBytes s2.mem pa 4))) x e).toNat 4) ow).noteLate 0 pa 4)
  | .own _ => none

/-- POSTED_STORE_ARRIVAL (R232): an entry on its way reaches its home, or an operation of another module arrives; bytes of
another module's agent may land on any device (R233). -/
def State.postedArrival (s : State) (src : PostedSrc) : Option State :=
  match src with
  | .own i =>
    match s.posted[i]? with
    | none => none
    | some p =>
      if p.acked then some ({ s with posted := s.posted.eraseIdx i } : State).signalsDue
      else if p.sig.isSome || !s.mayLand i p || p.sectors.any s.recallWaits then none
      else
        let s1 := { s with posted := s.posted.eraseIdx i }
        some (if p.inside s.devId then s1.takeEffect p else s1.postedEffect p).signalsDue
  | _ => s.extArrival src

/-- POSTED_STORE_ARRIVAL. -/
def execPostedStoreArrival (s : State) : Host.Outcome State Fault Refusal :=
  eventStep s "POSTED_STORE_ARRIVAL" fun e => match e with | .postedStoreArrival src => s.postedArrival src | _ => none

end Sys2Proof.Machine
end

