-- ==== Sys2Proof/Machine/Sync.lean ====
section
/-! DEFINITION. Barriers, phases and waits (R179 to R188), timeline counters (R189 to R191) and atomics (R192 to R195):
opcodes 0xA0 to 0xAD, with OPERATION_COMPLETION (R51), BWAIT_SATISFIED (R186) and TICKET_DRAW_RESUME (R189). -/

namespace Sys2Proof.Machine

open Sys2Proof

/-! ### Objects named by an instruction (R181, R182, R190) -/

/-- The block of a stash object is mapped by `smap` (R181). -/
def State.objMapped (s : State) (sid off : Nat) : Bool :=
  match s.team? sid with
  | some t => t.mapped.any fun m => m.off == off / 256 * 256
  | none => false

/-- The object of a barrier instruction, with the stores that have committed to its sector: checked, in an own or cluster window or in a SYNC page (R181, R182). A poisoned object that
the instruction uses ends the team (R361). -/
def objAt (c : Ctx) (s : State) (kind : Acc) (ad : W64) (use : Bool := true) : Except Stop (State × Obj) := do
  let (s1, ps, _) ← checkLanes c s kind [0] (fun _ => ad) (if isWindow ad then 16 else 32)
  let sound := fun (p : Place) => if use && s1.placePoisoned p then Except.error (Stop.done ((s1.checkPlaces c.handle [p]).terminate c.g 19 12 ad)) else .ok (s1, p.obj)
  match ps with
  | (_, .glob pa sync ow va) :: _ =>
    if sync then (sound (.glob pa sync ow va)).map fun (x : State × Obj) => (x.1.atHome x.2, x.2) else .error (.trap PROT ad)
  | (_, .stash t off va) :: _ =>
    if !isWindow ad || s1.objMapped t off then .error (.trap PROT ad) else sound (.stash t off va)
  | [] => .error (.trap PROT ad)

/-- A timeline counter, with the stores that have committed to its sector: 32-byte aligned in a SYNC page (R190), which needs no W (log entry 35). -/
def counterAt (c : Ctx) (s : State) (kind : Acc) (ad : W64) : Except Stop (State × Obj) := do
  let (s1, ps, _) ← checkLanes c s kind [0] (fun _ => ad) 32
  match ps with
  | (_, .glob pa true ow va) :: _ =>
    if kind != .store && s1.placePoisoned (.glob pa true ow va) then
      .error (.done ((s1.checkSector c.handle (pa / 256)).terminate c.g 19 12 ad))
    else .ok (s1.atHome (.glob pa va ow), .glob pa va ow)
  | _ => .error (.trap PROT ad)

/-! ### Barrier instructions (R183, R184, R186) -/

/-- `binit` (R183): held with the version and delivered at commit. -/
def execBinit (d a b : BitVec 8) (s : State) : Host.Outcome State Fault Refusal :=
  issue (.binit d a b) s fun c s =>
    if 8 ≤ (c.s b).toNat then .error (.trap ILLOPERAND)
    else classB c s [c.s d, c.s a, c.s b] fun s => do
      gateB c s
      let (s1, o) ← objAt c s .store (c.s d) false
      defer c s1 (.binit o ((c.s a).setWidth 32) ((c.s b).setWidth 3))

/-- The nominal count of an arrival: the lanes of the slot's mask, or, in a handler, of the mask of the slot that trapped
(R184). -/
def Ctx.nominal (c : Ctx) : Nat :=
  let m := if c.slot == .h then c.grp.sreg (if c.grp.report.tem.getLsbD 32 then 31 else 30)
           else (c.grp.slotMask c.slot).setWidth 64
  popc m.toNat 32

/-- The scope of an object's arrivals and waits, coded as SCOPE of R173 (R179, R186): of a stash object by the kernel's CLUSTER,
of a barrier in a SYNC page its own field, of a ring its ring's, and of every other object device scope. -/
def State.objScope (s : State) (record : List Byte) (o : Obj) : Nat :=
  match o with
  | .stash _ _ _ => if 1 < recCluster record then 1 else 0
  | .glob pa _ _ => if s.objKind o = 1 || s.objKind o = 3 then (memByte s.mem (pa + 16)).toNat % 8 else 3

/-- An object homed on another device. -/
def Obj.away (o : Obj) (dev : Nat) : Bool := match o with | .stash _ _ _ => false | .glob pa _ _ => pa / 2 ^ 43 != dev

/-- An arrival instruction (R184): the task commits, the group's stores are released at the object's scope, and one operation at
the home adds `count` arrivals and `bytes`; an arrival on another device's object travels there, and its flag stays raised until
it has been applied. -/
def arriveOp (c : Ctx) (s : State) (ad : W64) (count bytes : W32) (ops : List W64) : Res := do
  let (s1, o) ← if c.g.sh then .ok (s, Obj.stash 0 0 0)
    else do
      gateB c s
      objAt c s .store ad
  let s2 ← boundary c s1 false
  classB c s2 ops fun s =>
    let s3 := s.publish c.g c.core (s.objScope c.kern.record o)
    if o.away s.devId then
      issueB c s3 .event fun op s =>
        .ok { s with posted := s.posted ++ [{ src := c.g, kernel := (c.bez.num, c.kern.slot), core := c.core, instr := s.stepNo,
                                              cells := [], arrive := some (o, count, bytes, op), owner := 0 }] }
    else .ok (s3.arrive o count bytes c.handle c.core)

/-- `barr` (R184). -/
def execBarr (a f : BitVec 8) (s : State) : Host.Outcome State Fault Refusal :=
  issue (.barr a f) s fun c s =>
    arriveOp c s (c.s a) (if f = 0 then BitVec.ofNat 32 c.nominal else 1) 0 [c.s a]

/-- `barx` (R184). -/
def execBarx (a b : BitVec 8) (s : State) : Host.Outcome State Fault Refusal :=
  issue (.barx a b) s fun c s =>
    let n := (c.s b).setWidth 32
    if n.getLsbD 31 then .error (.trap ILLOPERAND)
    else arriveOp c s (c.s a) (BitVec.ofNat 32 c.nominal) n [c.s a, c.s b]

/-- The test of R186. -/
def phaseReached (ph target : W32) : Bool := !(ph - target).getLsbD 31

/-- The object that a `bwait` names, or a batch object of the group. -/
inductive WaitOn where
  | obj (o : Obj)
  | mbat
  | cbat
deriving DecidableEq, Repr

/-- The phase a `bwait` tests (R186, R187). -/
def State.phaseOf (s : State) (g : Group) : WaitOn → W32
  | .obj o => s.objPhase o
  | .mbat => g.mbat
  | .cbat => g.cbat

/-- The wait of a group at a `bwait`. -/
def WaitOn.wait (w : WaitOn) (target : W32) : Wait :=
  match w with
  | .obj o => .phase o target
  | .mbat => .mbat target
  | .cbat => .cbat target

/-- A release of an object that a `bwait` for `target` observes (R229): of a timeline counter, one of a ticket up to the target
(R236); of a barrier, one of an arrival in a phase that has been completed. -/
def State.observes (s : State) (o : Obj) (target : W32) (p : ObjRel) : Bool :=
  match s.objKind o with
  | 2 => phaseReached target (BitVec.ofNat 32 p.key)
  | 1 => p.key != (s.objPhase o).toNat
  | _ => true

/-- The floor of the acquire of a satisfied `bwait` on a core (R186; log entry 11): the last release of the object that it
observes, where the release's scope holds the group. -/
def State.waitFloor (s : State) (core : Nat) (target : W32) : WaitOn → Nat
  | .obj o => s.releasedAt o core (s.observes o target)
  | .mbat => s.stepNo
  | .cbat => s.stepNo

/-- The stores that have committed to the object of a wait reach it (R217, R219). -/
def State.atWait (s : State) : WaitOn → State
  | .obj o => s.atHome o
  | .mbat => s
  | .cbat => s

/-- `bwait` (R186): the task commits, the new task begins here, and the group waits for the phase. A shadow's `bwait`
completes with its leader's. -/
def execBwait (a b : BitVec 8) (s : State) : Host.Outcome State Fault Refusal :=
  issue (.bwait a b) s fun c s => do
    let (s1, w) ← if a = 0xF4 then .ok (s, WaitOn.mbat)
      else if a = 0xF5 then .ok (s, WaitOn.cbat)
      else if c.g.sh then .ok (s, WaitOn.mbat)
      else do
        let (s1, o) ← objAt c s .syncRead (c.s a)
        .ok (s1, WaitOn.obj o)
    let s2 := (← boundary c s1 true).atWait w
    if c.g.sh then
      if (s2.group? c.g.leader).any fun ld => ld.bnd == .passed then .error (.wait .leader s2)
      else .ok s2
    else
      let target := (c.s b).setWidth 32
      if phaseReached (s2.phaseOf c.grp w) target then .ok (c.mod s2 fun g => g.acquireAt (s2.waitFloor c.core target w))
      else .error (.wait (w.wait target) s2)

/-- BWAIT_SATISFIED (R186): the phase has reached the target; the group acquires and goes on. -/
def State.bwaitSatisfied (s : State) (r : GRef) : Option State :=
  match s.group? r with
  | none => none
  | some g =>
    let held := fun (o : Obj) => match o with
      | .stash sid off _ => (match s.team? sid with | some t => t.blockHeld r (off / 256) | none => false)
      | .glob _ _ _ => false
    let core := match s.team? r.team with | some tm => tm.core | none => 0
    let ok := match g.wait with
      | .phase o t =>
        let h := s.homeOf o
        if !held o && !s.objMoving h && phaseReached (s.objPhase h) t then some (s.waitFloor core t (.obj h)) else none
      | .mbat t => if phaseReached g.mbat t then some s.stepNo else none
      | .cbat t => if phaseReached g.cbat t then some s.stepNo else none
      | _ => none
    if (s.team? r.team).all fun t => !t.onCore then none
    else ok.map fun floor => s.modGroup r fun g => ((g.wake s.stepNo).acquireAt floor).advance

/-- BWAIT_SATISFIED. -/
def execBwaitSatisfied (s : State) : Host.Outcome State Fault Refusal :=
  eventStep s "BWAIT_SATISFIED" fun e => match e with | .bwaitSatisfied g => s.bwaitSatisfied g | _ => none

/-! ### Timeline counters (R190, R191) -/

/-- The ticket of a `tlinc` 0 completes once every earlier store of the group is visible at device scope (R190, R232). -/
def State.signal (s : State) (r : GRef) (o : Obj) (t : W64) : State :=
  if t = 0 then s
  else if s.hasPosted r 3 then
    { s with posted := s.posted ++ [{ src := r, kernel := (0, 0), cells := [], owner := 0, sig := some (o, t) }] }
  else s.completeTicket (some (o, t))

/-- A ticket drawn for a `tlinc` 0 or 1, or the operation left waiting for its draw (R189, R190). -/
def drawOp (c : Ctx) (s : State) (o : Obj) (d : BitVec 8) (signal : Bool) : Res :=
  match s.drawInTurn c.g o c.handle with
  | .ticket t s' => do
    let s2 ← issueA c s' [.scal (sdstNum d) t] .ready signal
    .ok (if signal then s2.signal c.g o t else s2)
  | .wait => issueA c s [.scal (sdstNum d) 0] (.draw o (.tlinc signal) (sdstNum d)) signal

/-- `tlinc` fn 0 (R190). -/
def execTlincSignal (d a : BitVec 8) (s : State) : Host.Outcome State Fault Refusal :=
  issue (.tlincSignal d a) s fun c s =>
    if c.g.sh then do
      let s1 ← boundary c s false
      takeLvq c s1
    else do
      gateA c s
      let (s1, o) ← counterAt c s .sync (c.s a)
      let s2 ← boundary c s1 false
      drawOp c (s2.publish c.g c.core 3) o d true

/-- `tlinc` fn 1 (R190). -/
def execTlincReserve (d a : BitVec 8) (s : State) : Host.Outcome State Fault Refusal :=
  issue (.tlincReserve d a) s fun c s => classA c s fun s => do
    gateA c s
    let (s1, o) ← counterAt c s .sync (c.s a)
    drawOp c s1 o d false

/-- `tlinc` fn 2 (R190). -/
def execTlincComplete (d a : BitVec 8) (s : State) : Host.Outcome State Fault Refusal :=
  issue (.tlincComplete d a) s fun c s =>
    if c.g.sh then do
      let s1 ← boundary c s false
      takeLvq c s1
    else do
      gateA c s
      let (s1, o) ← counterAt c s .sync (c.s a)
      let s2 ← boundary c s1 false
      let t := (c.s d).toNat
      let (s3, ok, held) := (s2.publish c.g c.core 3).complete o t c.core
      issueA c s3 [.scal (sdstNum d) (if ok then 0 else 1)] (if held then .tlcomplete o t else .ready) true

/-- `tlrd` (R191). -/
def execTlrd (d a f : BitVec 8) (s : State) : Host.Outcome State Fault Refusal :=
  issue (.tlrd d a f) s fun c s => classA c s fun s => do
    gateA c s
    let (s1, o) ← counterAt c s .syncRead (c.s a)
    issueA c s1 [.scal (sdstNum d) (s1.objD o (8 * f.toNat))] .ready false

/-! ### Completion of operations, and draws that waited (R51, R189) -/

/-- Accesses of a bezel that were translated in a range before a step and are under way (R366 step 3): stores of open tasks, posted
stores, and the engine commands that keep a leaf. -/
def State.underWay (s : State) (b lo size since : Nat) : Bool :=
  (s.teams.any fun t => t.bezel == b && t.groups.any fun g => g.ver.held.any fun h =>
    h.instr < since && lo ≤ h.va.toNat && h.va.toNat < lo + size) ||
  (s.posted.any fun p => p.kernel.1 == b && p.instr < since && p.sig.isNone) ||
  (s.pvCmds.any fun c => c.by_.bezel == b && c.by_.since < since) ||
  (s.cmds.any fun c => c.by_.bezel == b && c.by_.since < since && (match c.what with | .fill _ _ _ _ _ => true | _ => false))

/-- OPERATION_COMPLETION (R51 to R53): a returning operation delivers all its lanes, or some of them. -/
def State.opComplete (s : State) (r : GRef) (id : Nat) (lanes : W32) : Option State :=
  match (s.group? r).bind fun g => g.op? id with
  | none => none
  | some o =>
    match o.what with
    | .ready => some (s.opReturn r o lanes)
    | .tlcomplete ctr t => if s.isHeld (s.homeOf ctr) t then none else some (s.opReturn r o lanes)
    | .inval b lo size n => if s.underWay b lo size n then none else some (s.opReturn r o lanes)
    | _ => none

/-- OPERATION_COMPLETION. -/
def execOperationCompletion (s : State) : Host.Outcome State Fault Refusal :=
  eventStep s "OPERATION_COMPLETION" fun e => match e with
    | .operationCompletion g op lanes => s.opComplete g op lanes
    | _ => none

/-- The result of an operation becomes known, also in the load-value queue (R97). -/
def Group.resolve (g : Group) (id : Nat) (put : List Deliver → List Deliver) (what : OpWhat) : Group :=
  { g with ops := g.ops.map fun (o : Op) => if o.id == id then { o with dest := put o.dest, what := what } else o,
           lvq := g.lvq.map fun (e : LvqEntry) => if e.op == id then { e with dest := put e.dest } else e }

/-- The ticket of a draw goes to scalar `dst`. -/
def Group.setDraw (g : Group) (id dst : Nat) (t : W64) (what : OpWhat) : Group :=
  g.resolve id (fun l => (l.filter fun d => match d with | .scal n _ => n != dst | _ => true) ++
    (if dst < 33 then [.scal dst t] else [])) what

/-- An issuer whose ticket has been drawn. -/
def Issuer.drew (i : Issuer) (t : W64) : Issuer := { i with drawn := true, ctr := i.ctr.map fun p => (p.1, t) }

/-- The queued send of a flow end whose ticket has been drawn. -/
def FlowCmd.drew (r : GRef) (op : Nat) (t : W64) : FlowCmd → FlowCmd
  | .send rec_ x m by_ => if by_.g = r ∧ by_.op = some op then .send rec_ x m (by_.drew t) else .send rec_ x m by_
  | .reseed o g => .reseed o g

/-- A ticket drawn at last for what waited for it; an engine command reaches its unit only now (R344, R347). -/
def State.drawn (s : State) (r : GRef) (id : Nat) (o : Obj) (why : DrawFor) (dst : Nat) (t : W64) : State :=
  let up := fun (s : State) (w : OpWhat) => s.modGroup r fun g => g.setDraw id dst t w
  match why with
  | .tlinc sig => if sig then (up s .ready).signal r o t else up s .ready
  | .cmd c =>
    let s1 := up s (.engine c)
    { s1 with cmds := (s1.cmds.filter fun x => x.id != c) ++
                      (s1.cmds.filter fun x => x.id == c).map fun (x : Cmd) => { x with by_ := x.by_.drew t } }
  | .pv c =>
    let s1 := up s (.engine c)
    { s1 with pvCmds := (s1.pvCmds.filter fun x => x.id != c) ++
                        (s1.pvCmds.filter fun x => x.id == c).map fun (x : PvCmd) => { x with by_ := x.by_.drew t } }
  | .flow n => (up s .event).modFlow n fun f => { f with queue := f.queue.map (FlowCmd.drew r id t) }
  | .kernel b k seq =>
    let s1 := up s .ready
    if (s1.kernel? b k).any fun x => x.seq == seq && !x.st.final then s1.modKernel b k fun x => { x with ticket := t, drawn := true }
    else s1.completeTicket (some (o, t))
  | .act a q =>
    let s1 := up s .ready
    if s1.acts.any fun x => x.slot == a && x.seq == q && !(x.st == .closed || x.st == .abandoned) then
      { s1 with acts := s1.acts.map fun x => if x.slot == a then { x with ticket := t, drawn := true } else x }
    else s1.completeTicket (some (o, t))
  | .bezel b n =>
    let s1 := s.modGroup r fun g => g.setDraw id dst (t <<< 8) .ready
    if (s1.bezel? b).any fun x => x.drawAt == n && x.ticket == some (o, 0) then s1.modBezel b fun x => { x with ticket := some (o, t) }
    else s1.completeTicket (some (o, t))

/-- TICKET_DRAW_RESUME (R189): the oldest waiting draw of the group that finds room takes its ticket, on each counter in program
order (R236). -/
def State.drawResume (s : State) (r : GRef) : Option State :=
  match s.team? r.team, s.group? r with
  | some t, some g => (g.ops.filter (fun o => !(g.ops.takeWhile (fun x => x.id != o.id)).any fun x => match x.what, o.what with
      | .draw a _ _, .draw b _ _ => a.place == b.place
      | _, _ => false)).findSome? fun o => match o.what with
    | .draw ctr why dst => (match s.draw (s.homeOf ctr) (handleOf t.bezel t.kslot t.kseq) with
      | .ticket n s' => some (s'.drawn r o.id ctr why dst n)
      | .wait => none)
    | _ => none
  | _, _ => none

/-- TICKET_DRAW_RESUME. -/
def execTicketDrawResume (s : State) : Host.Outcome State Fault Refusal :=
  eventStep s "TICKET_DRAW_RESUME" fun e => match e with | .ticketDrawResume g => s.drawResume g | _ => none

/-! ### Atomics (R192 to R195) -/

/-- Address of a lane: one scalar for every lane, or a vector pair (R192). -/
def atomAd (c : Ctx) (a : BitVec 8) (i : Nat) : W64 :=
  if 0xCC ≤ a.toNat then c.s a else (c.v (a + 1)).l.lane i ++ (c.v a).l.lane i

/-- One atomic operation of a lane at a global address: the commits to its sector and the group's own stores to it come first
(R217, R219), a mapped block is recalled, and a poisoned location is left unchanged (R193, R194). Answers the old value, or none
for a killed lane. -/
def atomGlobal (c : Ctx) (s : State) (op : BitVec 8) (et : Nat) (ret : Bool) (pa ow : Nat) (sync : Bool) (x e : W32) :
    State × Option W32 :=
  if s.poisoned (pa / 256) then (s.checkSector c.handle (pa / 256), none)
  else if pa / 2 ^ 43 ≠ s.devId && !ret then
    ({ s with posted := s.posted ++ [{ src := c.g, kernel := (c.bez.num, c.kern.slot), core := c.core, instr := s.stepNo, cells := [],
                                       owner := ow, sync := sync, atomic := some (pa, op, et, x) }] }, some 0)
  else
    let s0 := (s.drainSector (pa / 256)).arriveOwn c.g (pa / 256)
    let s1 := match s0.mappedBlock (pa / 256) with
      | some (sid, m) => s0.recall sid m.off false
      | none => s0
    let old : W32 := BitVec.ofNat 32 (leNat (memBytes s1.mem pa 4))
    let s2 := (s1.homeWrite pa (leBytes (atomicNew op et old x e).toNat 4) ow (some sync)).noteLate 0 pa 4
    (s2.dropLeases c.core [pa / 256], some old)

/-- One atomic operation of a lane at its place (R193); a lane at a poisoned block is killed (R194). -/
def atomLane (c : Ctx) (s : State) (op : BitVec 8) (et : Nat) (ret : Bool) (p : Place) (x e : W32) : State × Option W32 :=
  match p with
  | .glob pa sync ow va => atomGlobal c (s.spoilMirrors c.bez.num va) op et ret pa ow sync x e
  | .stash t off va =>
    match (if isWindow va then none else s.mappedHome t off) with
    | some (pa, ow) => atomGlobal c (s.spoilMirrors c.bez.num va) op et ret pa ow false x e
    | none =>
      let s1 := s.fillBlock t off
      if s1.placePoisoned p then (s1, none)
      else
        let old : W32 := match s1.team? t with
          | some tm => BitVec.ofNat 32 (leNat (tm.stashBytes off 4))
          | none => 0
        (((s1.noteLate (t + 1) off 4).modTeam t fun tm => tm.stashWrite none off (leBytes (atomicNew op et old x e).toNat 4)).blockStored
          c.bez.num c.core t (off / 256), some old)

/-- The lanes of an atomic in ascending order (R193, R195): the state, the old values, and the killed lanes. -/
def atomLanes (c : Ctx) (op : BitVec 8) (et : Nat) (ret : Bool) (x e : Nat → W32) :
    List (Nat × Place) → State → State × List (Nat × W32) × List Nat
  | [], s => (s, [], [])
  | (i, p) :: rest, s =>
    let (s1, r) := atomLane c s op et ret p (x i) (e i)
    let (s2, olds, kills) := atomLanes c op et ret x e rest s1
    match r with
    | some old => (s2, (i, old) :: olds, kills)
    | none => (s2, olds, i :: kills)

/-- An atomic (R192 to R194). With EM zero it checks and changes nothing, and it still ends the task (R222; log entry 16). -/
def atomOp (i : Instr) (op : BitVec 8) (d a b : BitVec 8) (s : State) : Host.Outcome State Fault Refusal :=
  issue i s fun c s =>
    let et := etype c.grp.gmode
    let ret := d != 0xF0
    let lanes := lanesOf c.em
    let ad := atomAd c a
    let y := c.v b
    let e := if op = 0xAB && ret then (c.v d).l.lane else fun _ => 0
    let signed := fun (s : State) =>
      if c.shadowed && !ret then c.mod s fun g => g.signLanes c.em ad fun i => leBytes (y.l.lane i).toNat 4 else s
    if op.toNat ≤ 0xA6 && 5 ≤ et then .error (.trap ILLOP)
    else if c.g.sh then do
      let s1 ← boundary c s false
      let s2 ← if ret then takeLvq c s1 else .ok s1
      .ok (signed s2)
    else if lanes.isEmpty then do
      if ret then gateA c s else gateB c s
      let s1 ← boundary c s false
      (if ret then instantA c s1 else instantB c s1 .ok).map signed
    else do
      if ret then gateA c s else gateB c s
      let (s1, ps, _) ← checkLanes c s .store lanes ad 4
      let s2 ← boundary c s1 false
      let (s3, olds, kills) := atomLanes c op et ret y.l.lane e ps (c.mod s2 fun g => g.fixLoads (ps.map (·.2)))
      let s4 := s3.killEach c.g (kills.map fun i => (i, ad i))
      let l := Lanes.of fun i => match olds.find? fun p => p.1 == i with | some p => p.2 | none => 0
      let s5 ← if ret then issueA c s4 [.vec d (maskOf fun i => c.em.getLsbD i && !kills.contains i) l .g] .ready true
               else .ok s4
      .ok (signed s5)

/-- `atadd` (R192). -/
def execAtadd (d a b : BitVec 8) (s : State) : Host.Outcome State Fault Refusal := atomOp (.atadd d a b) 0xA4 d a b s
/-- `atmin` (R192). -/
def execAtmin (d a b : BitVec 8) (s : State) : Host.Outcome State Fault Refusal := atomOp (.atmin d a b) 0xA5 d a b s
/-- `atmax` (R192). -/
def execAtmax (d a b : BitVec 8) (s : State) : Host.Outcome State Fault Refusal := atomOp (.atmax d a b) 0xA6 d a b s
/-- `atand` (R192). -/
def execAtand (d a b : BitVec 8) (s : State) : Host.Outcome State Fault Refusal := atomOp (.atand d a b) 0xA7 d a b s
/-- `ator` (R192). -/
def execAtor (d a b : BitVec 8) (s : State) : Host.Outcome State Fault Refusal := atomOp (.ator d a b) 0xA8 d a b s
/-- `atxor` (R192). -/
def execAtxor (d a b : BitVec 8) (s : State) : Host.Outcome State Fault Refusal := atomOp (.atxor d a b) 0xA9 d a b s
/-- `atxch` (R192). -/
def execAtxch (d a b : BitVec 8) (s : State) : Host.Outcome State Fault Refusal := atomOp (.atxch d a b) 0xAA d a b s
/-- `atcas` (R192, R195). -/
def execAtcas (d a b : BitVec 8) (s : State) : Host.Outcome State Fault Refusal := atomOp (.atcas d a b) 0xAB d a b s

end Sys2Proof.Machine
end

