-- ==== Sys2Proof/Machine/Tile.lean ====
section
/-! DEFINITION. Tiles and the matrix unit (R196 to R214): opcodes 0xB0 to 0xBB and MATRIX_OP_COMPLETE. -/

namespace Sys2Proof.Machine

open Sys2Proof

/-! ### Tiles of a group -/

/-- Row `i` of a tile buffer. -/
def TileBuf.row (b : TileBuf) (i : Nat) : Lanes := if h : i < 32 then b[i] else Lanes.splat 0

/-- A buffer given by its rows. -/
def TileBuf.of (f : Nat → Lanes) : TileBuf := Vector.ofFn fun i => f i.val

/-- A buffer with the rows of a row set replaced. -/
def TileBuf.withRows (b : TileBuf) (rows : W32) (f : Nat → Lanes) : TileBuf :=
  TileBuf.of fun i => if rows.getLsbD i then f i else b.row i

/-- The value of tile `t` within the task (R196). -/
def Group.tile (g : Group) (t : Nat) : TileBuf := (g.t[t]?.getD {}).val

/-- The value of the tile that a queued operation reads: a held one where it has left the allocation since (R196, R197). -/
def Group.tileFor (g : Group) (m : MOp) (t : Nat) : TileBuf :=
  match m.heldAt.bind fun i => g.ver.heldTiles[i]? with
  | some p => p.2.val
  | none => g.tile t

/-- Tile `t` written (R196). -/
def Group.setTile (g : Group) (t : Nat) (b : TileBuf) (rows : W32 := -1) : Group := { g with t := modAt g.t t fun x => x.store b rows }

/-- The tiles that a queued operation reads (R202 to R210). -/
def MWhat.operands : MWhat → List Nat
  | .tzero _ | .tld _ _ | .stest _ => []
  | .mma t _ _ | .tst t _ _ _ | .tcolw t _ _ | .tscale t _ _ | .coll t _ => [t]
  | .tcvt _ u _ _ _ | .tcolr u _ => [u]

/-- The rows of an operation whose tile has failed: their lanes consume poison (R361). -/
def Group.badRows (g : Group) (m : MOp) : W32 :=
  m.what.operands.foldl (fun x t => x ||| (match m.heldAt.bind fun i => g.ver.heldTiles[i]? with
    | some p => p.2.bad
    | none => (g.t[t]?.getD {}).bad)) 0 &&& m.rows

/-- What is fenced in a sub-core's matrix unit (R213). -/
def State.subFence (s : State) (core sub : Nat) : SubFence :=
  (s.fencedSub.find? fun p => p.core == core && p.sub == sub).getD { core := core, sub := sub, mask := 0 }

/-- The sub-arrays fenced in a sub-core's matrix unit, at most 8 (R212, R213). -/
def State.fenced (s : State) (core sub : Nat) : BitVec 16 := (s.subFence core sub).mask

/-! ### Descriptors (R200 to R202) -/

/-- The descriptor pair that starts at a scalar code. -/
def Ctx.desc (c : Ctx) (code : BitVec 8) : Desc :=
  let hi := c.s (code + 1)
  { base := c.s code, trans := hi.getLsbD 35, fslot := recFslot c.kern.record (bits hi.toNat 34 32), stride := hi.setWidth 32 }

/-- Bits [63:36] of a pair's second register must be zero (R200). -/
def Ctx.descBad (c : Ctx) (code : BitVec 8) : Bool := decide (2 ^ 36 ≤ (c.s (code + 1)).toNat)

/-- BASE and STRIDE are multiples of 8 (R200). -/
def Desc.aligned (d : Desc) : Bool := d.base.toNat % 8 == 0 && d.stride.toNat % 8 == 0

/-- Address of stored row `r` (R200). -/
def Desc.rowVa (d : Desc) (r : Nat) : W64 := d.base + BitVec.ofNat 64 r * d.stride.signExtend 64

/-- Address of element `e` of stored row `r`, where the element starts on a byte boundary. -/
def Desc.elemVa (d : Desc) (r e : Nat) : W64 := d.rowVa r + BitVec.ofNat 64 (e * fsBits d.fslot / 8)

/-- K of a pairing, or none for a pairing that R202 does not list. -/
def pairing (a b : W64) : Option Nat :=
  let fa := fsFormat a
  let fb := fsFormat b
  if fa ≤ 1 && fb ≤ 1 then some 32
  else if fa == 2 && fb == 2 then some 64
  else if (fa == 4 || fa == 5) && (fb == 4 || fb == 5) then some 64
  else if fa == 3 && fb == 3 then some 96
  else none

/-- The element ranges read for block `b` of A: stored row, first element, count (R201). -/
def blockA (d : Desc) (rows : W32) (b : Nat) : List (Nat × Nat × Nat) :=
  if d.trans then (List.range 16).map fun k => (16 * b + k, 0, 32) else (lanesOf rows).map fun i => (i, 16 * b, 16)

/-- The element ranges read for block `b` of B (R201). -/
def blockB (d : Desc) (b : Nat) : List (Nat × Nat × Nat) :=
  if d.trans then (List.range 32).map fun j => (j, 16 * b, 16) else (List.range 16).map fun k => (16 * b + k, 0, 32)

/-- The element ranges of a tile that `tld` or `tst` moves (R201). -/
def tileRows (d : Desc) (rows : W32) : List (Nat × Nat × Nat) :=
  if d.trans then (List.range 32).map fun r => (r, 0, 32) else (lanesOf rows).map fun i => (i, 0, 32)

/-- The four-byte words that hold an element range. -/
def rangeWords (d : Desc) (x : Nat × Nat × Nat) : List W64 :=
  (List.range ((x.2.2 * fsBits d.fslot + 31) / 32)).map fun q => d.elemVa x.1 x.2.1 + BitVec.ofNat 64 (4 * q)

/-- The words of a stored row that a `tst` writes, by their number in the row: those that hold an element it moves (R201, R207). -/
def tstWords (d : Desc) (rows : W32) (x : Nat × Nat × Nat) : List (Nat × W64) :=
  let w := fsBits d.fslot
  ((List.range ((x.2.2 * w + 31) / 32)).filter fun q => !d.trans ||
      (lanesOf rows).any fun e => decide (e * w / 32 ≤ q) && decide (q ≤ (e * w + w - 1) / 32)).map fun q =>
    (q, d.elemVa x.1 x.2.1 + BitVec.ofNat 64 (4 * q))

/-! ### Checks at issue (R205) -/

/-- The traps of R155, R165 and R160 over some addresses, each check over all of them before the next (R205). -/
def checkWords (c : Ctx) (s : State) (kind : Acc) (l : List W64) : Except Stop Unit :=
  let pl := fun a => s.place c.team c.kern c.bez kind a
  let code := fun a => match pl a with | .trap n => some (a, n) | _ => none
  match l.find? badVa with
  | some a => .error (.trap PROT a)
  | none =>
  match (l.filter isWindow).findSome? code with
  | some (a, n) => .error (.trap n a)
  | none =>
  match l.findSome? code with
  | some (a, n) => .error (.trap n a)
  | none => .ok ()

/-- The checks of R200 on descriptor pairs. -/
def checkDescs (c : Ctx) (l : List (BitVec 8)) : Except Stop Unit :=
  if l.any fun code => c.descBad code then .error (.trap ILLOPERAND)
  else match l.find? fun code => !(c.desc code).aligned with
    | some code => .error (.trap ALIGN (c.s code))
    | none => .ok ()

/-! ### Entering the queue (R197 to R199) -/

/-- An operation enters the matrix queue. -/
def enqueue (c : Ctx) (s : State) (id : Nat) (what : MWhat) (rows : W32) (op : Option Nat) (joins : Bool) : State :=
  c.mod s fun g =>
    let m : MOp := { id := id, what := what, rows := rows, pc := { hdr := c.pc }, op := op, task := g.taskSeq, joins := joins }
    ({ g with mq := g.mq ++ [m] }).modClause fun cl => { cl with issuedM := cl.issuedM || joins }

/-- A class-m instruction (R197, R198): no effect with EM zero, and a wait while the queue holds 8 entries. A shadow issues
none. `always`: it acts whatever EM holds. -/
def matrixOp (c : Ctx) (s : State) (what : MWhat) (rows : W32) (always : Bool) : Res :=
  if c.g.sh || (c.em = 0 && !always) then .ok s
  else if 8 ≤ c.grp.mq.length then .error (.wait .queue s)
  else .ok (c.mod (enqueue c s c.grp.nextOp what rows none (c.em != 0)) fun g => { g with nextOp := g.nextOp + 1 })

/-- `tzero` (R207). -/
def execTzero (t : BitVec 4) (s : State) : Host.Outcome State Fault Refusal :=
  issue (.tzero t) s fun c s => matrixOp c s (.tzero t.toNat) c.em false

/-- `mma` (R202, R203, R205). -/
def execMma (t : BitVec 4) (a b : BitVec 8) (s : State) : Host.Outcome State Fault Refusal :=
  issue (.mma t a b) s fun c s => do
    checkDescs c [a, b]
    let da := c.desc a
    let db := c.desc b
    if (pairing da.fslot db.fslot).isNone then throw (.trap ILLOP)
    if c.em ≠ 0 && !c.g.sh then
      checkWords c s .load ((blockA da c.em 0).flatMap (rangeWords da) ++ (blockB db 0).flatMap (rangeWords db))
    matrixOp c s (.mma t.toNat da db) c.em false

/-- `tld` (R207). -/
def execTld (t : BitVec 4) (a : BitVec 8) (s : State) : Host.Outcome State Fault Refusal :=
  issue (.tld t a) s fun c s => do
    checkDescs c [a]
    let d := c.desc a
    if c.em ≠ 0 && !c.g.sh then checkWords c s .load ((tileRows d c.em).flatMap (rangeWords d))
    matrixOp c s (.tld t.toNat d) c.em false

/-- The units of a `tst`, counted at its issue from its addresses (R285). -/
def tstPlaces (c : Ctx) (s : State) (d : Desc) : List Place :=
  ((tileRows d c.em).flatMap (tstWords d c.em)).map fun (_, a) =>
    match s.place c.team c.kern c.bez .store a with
    | .ok p => p
    | _ => .glob 0 false 0 a

/-- `tst` (R207). -/
def execTst (t : BitVec 4) (a : BitVec 8) (s : State) : Host.Outcome State Fault Refusal :=
  issue (.tst t a) s fun c s => do
    checkDescs c [a]
    let d := c.desc a
    let what := MWhat.tst t.toNat d (rnd c.grp.gmode) (ftzBit c.grp.gmode)
    if c.em = 0 then matrixOp c s what c.em false
    else do
      if !c.g.sh then checkWords c s .store (((tileRows d c.em).flatMap (tstWords d c.em)).map (·.2))
      if !c.g.sh && 8 ≤ c.grp.mq.length then throw (.wait .queue s)
      let s1 ← countUnits c s (tstPlaces c s d)
      matrixOp c s1 what c.em false

/-- `tcvt` (R208). -/
def execTcvt (t u f g : BitVec 4) (s : State) : Host.Outcome State Fault Refusal :=
  issue (.tcvt t u f g) s fun c s => matrixOp c s (.tcvt t.toNat u.toNat f.toNat g.toNat c.grp.gmode) c.em false

/-- `tcolr` (R210): class a, in queue order. -/
def execTcolr (d : BitVec 8) (u : BitVec 4) (col : BitVec 8) (s : State) : Host.Outcome State Fault Refusal :=
  issue (.tcolr d u col) s fun c s => classA c s fun s =>
    if c.em = 0 then instantA c s
    else if 8 ≤ c.grp.mq.length then .error (.wait .queue s)
    else do
      let id := c.grp.nextOp
      let s1 ← issueA c s [.vec d c.em (Lanes.splat 0) .g] (.matrix id) false
      .ok (enqueue c s1 id (.tcolr u.toNat col.toNat) c.em (some id) false)

/-- `tcolw` (R210). -/
def execTcolw (t : BitVec 4) (a : BitVec 8) (col : BitVec 8) (s : State) : Host.Outcome State Fault Refusal :=
  issue (.tcolw t a col) s fun c s => matrixOp c s (.tcolw t.toNat col.toNat (c.v a).l) c.em false

/-- `tscale` (R209). -/
def execTscale (t : BitVec 4) (a f : BitVec 8) (s : State) : Host.Outcome State Fault Refusal :=
  issue (.tscale t a f) s fun c s => matrixOp c s (.tscale t.toNat (f == 1) (c.v a).l) c.em false

/-- `stest` (R214): all 32 rows, whatever EM holds. -/
def execStest (t : BitVec 4) (s : State) : Host.Outcome State Fault Refusal :=
  issue (.stest t) s fun c s => matrixOp c s (.stest t.toNat) (-1) true

/-- `mfence` (R211): the whole queue of the group, the entry of a `coll` too, has emptied (log entry 63). -/
def execMfence (s : State) : Host.Outcome State Fault Refusal :=
  issue .mfence s fun c s =>
    if c.g.sh then .ok s
    else if !c.grp.mq.isEmpty then .error (.wait .mfence s)
    else .ok (c.mod s fun g =>
      let n := if c.cl.issuedM then g.lastBatch + 1 else g.lastBatch
      ({ g with lastBatch := n, mbat := n, acquire := max g.acquire s.stepNo }).modClause fun cl => { cl with issuedM := false })

/-- `rprd` (R212). A shadow takes the value that its leader has read (R121; log entry 50). -/
def execRprd (d f : BitVec 8) (s : State) : Host.Outcome State Fault Refusal :=
  issue (.rprd d f) s fun c s => do
    let (s1, v) ← readPassed c s (match f.toNat with
      | 0 => BitVec.ofNat 64 c.grp.rp
      | 1 => BitVec.ofNat 64 (popc (s.fenced c.core (c.g.grp % 4)).toNat 16)
      | 2 => BitVec.ofNat 64 c.grp.mq.length
      | 3 => c.grp.lastBatch.setWidth 64
      | _ => c.grp.mbat.setWidth 64)
    .ok (c.mod s1 fun g => g.resultS d v)

/-! ### What the matrix unit reads (R204, R205) -/

/-- A byte as the matrix unit reads it: its value and, where its sector is poisoned, the address of the word. -/
abbrev MByte := Byte × Option W64

/-- Four bytes read by the matrix unit for operation `id` (R204): a byte that the group stored after the operation issued
is undefined, and a POISONED page reads as poisoned. -/
def matWord (c : Ctx) (s : State) (id : Nat) (va : W64) : Except EngineStop (State × List MByte) :=
  match s.place c.team c.kern c.bez .load va with
  | .ok p =>
    if (s.heldBlock c.g p).isSome then .error .later
    else
      let s1 := ((s.fillPlaces [p]).takeLease c.g c.core c.grp.acquire p).checkPlaces c.handle [p]
      let bad := if s1.placePoisoned p then some va else none
      let late := fun i => c.grp.late.any fun x => id ≤ x.1 && x.2.1 == p.key.1 && x.2.2 == p.key.2 + i
      .ok (s1, (List.range 4).map fun i =>
        (if late i then s1.freeAt (2 ^ 76 + p.key.1 * 2 ^ 60 + p.key.2 + i) else s1.loadByte c.g c.grp c.core p i, bad))
  | .trap code => .error (.prot code va)
  | .park ca l => .error (.park va ca l false)
  | .kill => .ok (s, List.replicate 4 (0, some va))
  | .migrating => .error .migr
  | .filling _ => .error .later
  | .uncorr => .error (.prot PROT va)

/-- Words in order. -/
def matWords (c : Ctx) (id : Nat) : State → List W64 → Except EngineStop (State × List MByte)
  | s, [] => .ok (s, [])
  | s, a :: as => do
    let (s1, l) ← matWord c s id a
    let (s2, ls) ← matWords c id s1 as
    .ok (s2, l ++ ls)

/-- Element `j` of a stream of bytes of `w` bits per element (R38), with its poison. -/
def streamElem (w : Nat) (l : List MByte) (j : Nat) : Nat × Option W64 :=
  let first := w * j / 8
  let part := (l.drop first).take ((w * j + w + 7) / 8 - first)
  ((leNat (part.map (·.1)) >>> (w * j % 8)) % 2 ^ w, part.findSome? (·.2))

/-- The elements of an element range. -/
def matRange (c : Ctx) (s : State) (id : Nat) (d : Desc) (x : Nat × Nat × Nat) :
    Except EngineStop (State × List (Nat × Option W64)) := do
  let (s1, l) ← matWords c id s (rangeWords d x)
  .ok (s1, (List.range x.2.2).map (streamElem (fsBits d.fslot) l))

/-- Element ranges in order, each with its stored row. -/
def matRanges (c : Ctx) (id : Nat) (d : Desc) : State → List (Nat × Nat × Nat) →
    Except EngineStop (State × List (Nat × List (Nat × Option W64)))
  | s, [] => .ok (s, [])
  | s, x :: xs => do
    let (s1, l) ← matRange c s id d x
    let (s2, ls) ← matRanges c id d s1 xs
    .ok (s2, (x.1, l) :: ls)

/-- Element at a stored row and a position within the range read. -/
def pick (l : List (Nat × List (Nat × Option W64))) (r e : Nat) : Nat × Option W64 :=
  match l.find? fun p => p.1 == r with
  | some p => p.2[e]?.getD (0, none)
  | none => (0, none)

/-! ### Products (R43, R203) -/

/-- A float operand of a product: the value of its F32 decoding, a tapered one by R37 (R41, R43). -/
def macValue (fs : W64) (x : Nat) : Flo := f32.dec false (fsToF32 fs false x)

/-- One block of a float element: the exact sum of 16 products, rounded, added, rounded (R43). The sign of a sum that is exactly
zero is left open there: it is the sign of adding the products in order by the signs of IEEE 754 under RNE (DESIGN CHOICE, log entry 47). -/
def macFloat (fa fb : W64) (acc : W32) (a b : List Nat) : W32 :=
  let ps := (a.zip b).map fun p => Flo.mul (macValue fa p.1) (macValue fb p.2)
  let sum := match ps with
    | [] => Flo.num false 0 0
    | p :: ps => ps.foldl (Flo.add false) p
  let r := f32.round 0 false false sum
  BitVec.ofNat 32 (f32.round 0 false false (Flo.add false (f32.dec false acc.toNat) (f32.dec false r)))

/-- One block of an integer element, with wrap (R43). -/
def macInt (fa fb : W64) (acc : W32) (a b : List Nat) : W32 :=
  let v := fun (f : W64) x => if fsFormat f = 4 then intVal true 8 x else (x : Int)
  acc + BitVec.ofInt 32 (((a.zip b).map fun p => v fa p.1 * v fb p.2).foldl (· + ·) 0)

/-- One block of an `mma`: the rows with the block added, and the lanes that poison kills with their addresses (R203,
R205). -/
def mmaBlock (c : Ctx) (s : State) (id : Nat) (da db : Desc) (rows : W32) (b : Nat) (acc : List (List W32)) :
    Except EngineStop (State × List (List W32) × List (Nat × W64)) := do
  let (s1, la) ← matRanges c id da s (blockA da rows b)
  let (s2, lb) ← matRanges c id db s1 (blockB db b)
  let ea := fun i k => if da.trans then pick la (16 * b + k) i else pick la i k
  let eb := fun k j => if db.trans then pick lb j k else pick lb (16 * b + k) j
  let poisonB := lb.findSome? fun p => p.2.findSome? (·.2)
  let kills := (lanesOf rows).filterMap fun i =>
    (((List.range 16).findSome? fun k => (ea i k).2).or poisonB).map fun va => (i, va)
  let isInt := fsFormat da.fslot = 4 || fsFormat da.fslot = 5
  let bcols := (List.range 32).map fun j => (List.range 16).map fun k => (eb k j).1
  let acc' := acc.zipIdx.map fun p =>
    if rows.getLsbD p.2 then
      let a := (List.range 16).map fun k => (ea p.2 k).1
      p.1.zipIdx.map fun x => (if isInt then macInt else macFloat) da.fslot db.fslot x.1 a (bcols[x.2]?.getD [])
    else p.1
  .ok (s2, acc', kills)

/-! ### Execution of one operation (R197, R203, R207 to R214) -/

/-- The first `n` blocks from block `b` of an `mma`, as far as no operand faults: the state with RP and the sums kept in
the queue entry, and what stopped it. -/
def mmaBlocks (c : Ctx) (m : MOp) (t : Nat) (da db : Desc) : Nat → Nat → State → State × Option EngineStop
  | 0, _, s => (s, none)
  | n + 1, b, s =>
    match s.group? c.g with
    | none => (s, none)
    | some g =>
      match g.mq with
      | [] => (s, none)
      | h :: rest =>
        let acc := h.acc.getD ((List.range 32).map fun i => (List.range 32).map fun j => ((g.tile t).row i).lane j)
        match mmaBlock { c with grp := g } s m.id da db m.rows b acc with
        | .error e => (s.modGroup c.g fun g => { g with mq := { h with acc := some acc } :: rest, rp := b }, some e)
        | .ok (s1, acc', kills) =>
          let s2 := s1.killEach c.g kills
          let s3 := s2.modGroup c.g fun g =>
            { g with mq := { h with acc := some acc', kills := h.kills ||| maskOf fun i => kills.any fun p => p.1 == i } :: rest,
                     rp := b + 1 }
          mmaBlocks c m t da db n (b + 1) s3

/-- The head leaves the queue, and `mbat` moves to the last batch complete (R199). -/
def Group.popMatrix (g : Group) : Group :=
  let mq := g.mq.tail
  { g with mq := mq, late := if mq.isEmpty then [] else g.late,
           mbat := match mq.findSome? fun (m : MOp) => m.batch with
             | some n => BitVec.ofNat 32 n - 1
             | none => g.lastBatch }

/-- A tile result written in the rows of the row set. -/
def tileResult (r : GRef) (s : State) (t : Nat) (rows : W32) (f : Nat → Lanes) : State :=
  s.modGroup r fun g => g.setTile t ((g.tile t).withRows rows f) rows

/-- The status values of `stest` (R214). -/
def stestRow (before failed : BitVec 16) (i : Nat) : Lanes :=
  Lanes.of fun j =>
    if i = 0 && j < 16 then (if before.getLsbD j then 1 else if failed.getLsbD j then 2 else 0)
    else if i = 0 && j = 16 then BitVec.ofNat 32 (popc (before ||| failed).toNat 16) else 0

/-- An operation waits at one of its accesses (R163, R205). -/
def MOp.parked (m : MOp) : Bool := m.fault.isSome || m.migr

/-- `tld` carried out (R207): decoded to F32; a poisoned element kills its lane. -/
def runTld (c : Ctx) (s : State) (m : MOp) (t : Nat) (d : Desc) : Except EngineStop State := do
  let (s1, l) ← matRanges c m.id d s (tileRows d m.rows)
  let el := fun i j => if d.trans then pick l j i else pick l i j
  let kills := (lanesOf m.rows).filterMap fun i => ((List.range 32).findSome? fun j => (el i j).2).map fun va => (i, va)
  let s2 := s1.killEach c.g kills
  let rows := m.rows &&& ~~~ maskOf fun i => kills.any fun p => p.1 == i
  .ok (tileResult c.g s2 t rows fun i => Lanes.of fun j => BitVec.ofNat 32 (fsToF32 d.fslot false (el i j).1))

/-- The bytes of one stored row of a `tst`: the value of each byte that a moved element covers, merged with the bits of
`old` that none covers (R38, R207). `el e`: the code of element `e` if it is moved. -/
def tstBytes (w : Nat) (el : Nat → Option Nat) (old : Nat → Byte) : List (Nat × Byte) :=
  (List.range ((32 * w + 7) / 8)).filterMap fun q =>
    let bit := fun p => match el ((8 * q + p) / w) with
      | some x => some (x.testBit ((8 * q + p) % w))
      | none => none
    if (List.range 8).any fun p => (bit p).isSome then
      some (q, BitVec.ofNat 8 ((List.range 8).foldl (fun a p => a + if (bit p).getD ((old q).getLsbD p) then 2 ^ p else 0) 0))
    else none

/-- The destinations of a `tst`, every word translated before any is held (R207). -/
def tstTargets (c : Ctx) (s : State) (d : Desc) (rows : W32) : List (Nat × Nat × Nat) → Except EngineStop (List (Nat × List (Nat × Place)))
  | [] => .ok []
  | x :: xs => do
    let ps ← (tstWords d rows x).mapM fun (q, va) =>
      match s.place c.team c.kern c.bez .store va with
      | .ok p => if (s.heldBlock c.g p).isSome then .error EngineStop.later else .ok (q, p)
      | .trap code => .error (.prot code va)
      | .park ca l => .error (.park va ca l true)
      | .migrating => .error .migr
      | .filling _ => .error .later
      | .kill => .error (.prot PROT va)
      | .uncorr => .error (.prot PROT va)
    let rest ← tstTargets c s d rows xs
    .ok ((x.1, ps) :: rest)

/-- Byte `i` of a place. -/
def Place.at (p : Place) (i : Nat) : Place :=
  match p with
  | .glob pa sy ow va => .glob (pa + i) sy ow (va + BitVec.ofNat 64 i)
  | .stash t off va => .stash t (off + i) (va + BitVec.ofNat 64 i)

/-- Bytes at rising offsets joined into elements of `u` bytes, each of which is one store (R216). -/
def joinUnits (u : Nat) : List (Nat × Byte) → List (Nat × List Byte)
  | [] => []
  | (q, b) :: r =>
    match joinUnits u r with
    | (p, l) :: t => if p = q + 1 && p / u = q / u then (q, b :: l) :: t else (q, [b]) :: (p, l) :: t
    | [] => [(q, [b])]

/-- `tst` carried out (R207): its elements are held with the task's version. -/
def runTst (c : Ctx) (s : State) (m : MOp) (t : Nat) (d : Desc) (rnd : Nat) (ftz : Bool) : Except EngineStop State := do
  let rows ← tstTargets c s d m.rows (tileRows d m.rows)
  let w := fsBits d.fslot
  let s0 := s.fillPlaces (rows.flatMap fun x => x.2.map (·.2))
  let b := c.grp.tileFor m t
  let code := fun r e =>
    let i := if d.trans then e else r
    let j := if d.trans then r else e
    if m.rows.getLsbD i then some (f32ToFs d.fslot rnd ftz ((b.row i).lane j).toNat) else none
  let writes := rows.flatMap fun x =>
    let word := fun q => (x.2.find? fun y => y.1 == q / 4).map (·.2)
    let old := fun q => match word q with | some p => s0.loadByte c.g c.grp c.core p (q % 4) | none => 0
    (joinUnits (if w = 16 || w = 32 then w / 8 else 1) (tstBytes w (code x.1) old)).filterMap fun y =>
      (word y.1).map fun p => (p.at (y.1 % 4), y.2)
  .ok (writes.zipIdx.foldl (fun s x => holdOne c s x.1.1 x.2 x.1.2) s0)

/-- One queued operation carried out whole, or as far as a fault lets it (R203, R207 to R214). -/
def runMatrix (c : Ctx) (s : State) (m : MOp) (before failed : BitVec 16) : State × Option EngineStop :=
  let tile := fun t => c.grp.tile t
  let whole := fun (x : Except EngineStop State) => match x with
    | .ok s' => (s', none)
    | .error e => (s, some e)
  match m.what with
  | .tzero t => (tileResult c.g s t m.rows fun _ => Lanes.splat 0, none)
  | .mma t da db =>
    let k := (pairing da.fslot db.fslot).getD 0
    let from_ := if m.acc.isSome then c.grp.rp else 0
    let s0 := if m.acc.isSome then s else s.modGroup c.g fun g => { g with rp := 0 }
    let (s1, e) := mmaBlocks c m t da db (k / 16 - from_) from_ s0
    match e with
    | some e => (s1, some e)
    | none =>
      let h := ((s1.group? c.g).bind fun g => g.mq.head?).getD m
      let rows := m.rows &&& ~~~ h.kills
      (tileResult c.g s1 t rows fun i => Lanes.of fun j => (((h.acc.getD [])[i]?.getD [])[j]?).getD 0, none)
  | .tld t d => whole (runTld c s m t d)
  | .tst t d rnd ftz => whole (runTst c s m t d rnd ftz)
  | .tcvt t u f g gm =>
    let src := c.grp.tileFor m u
    (tileResult c.g s t m.rows fun i => Lanes.of fun j => BitVec.ofNat 32 (convertE gm f g ((src.row i).lane j).toNat), none)
  | .tcolr u col =>
    let l := Lanes.of fun i => ((c.grp.tileFor m u).row i).lane col
    (s.modGroup c.g fun g => g.resolve m.id (fun ds => ds.map fun d => match d with
      | .vec code mask _ tag => .vec code mask l tag
      | .scal n v => .scal n v) .ready, none)
  | .tcolw t col l =>
    let b := tile t
    (tileResult c.g s t m.rows fun i => Lanes.of fun j => if j = col then l.lane i else (b.row i).lane j, none)
  | .stest t => (tileResult c.g s t (-1) (stestRow before failed), none)
  | .tscale t col l =>
    let b := tile t
    (tileResult c.g s t m.rows fun i => Lanes.of fun j =>
      BitVec.ofNat 32 (f32.round 0 false false (Flo.mul (f32.dec false ((b.row i).lane j).toNat)
        (f32.dec false (l.lane (if col then j else i)).toNat))), none)
  | .coll _ _ => (s, none)

/-- Die of a unit: a core's die, a slice's, a pseudo-channel's (R5). -/
def unitDie : UnitId → Nat
  | .core c => c / 64
  | .slice n => n / 48
  | .chan c => c / 192

/-- Module-wide number of the HBM stack that holds a pseudo-channel: die × 3 + stack (R5). -/
def chanStack (c : Nat) : Nat := c / 64

/-- Die of a Tythal port by its module-wide number (R5). -/
def portDie (p : Nat) : Nat := p / 8

/-! ### The slice hash (R315, R317) -/

/-- The slices among which a bezel's hash chooses: members that are neither leaving nor fenced. -/
def State.hashSlices (s : State) (b : Nat) : List Nat :=
  (List.range 192).filter fun n => s.unit (.slice n) == .member b && !s.fencedUnits.contains (.slice n)

/-- The home of a line among some slices. -/
def homeSlice (l : List Nat) (line : Nat) : Option Nat := l[Config.sliceHash l line % l.length]?

/-- A lookup of a line for a bezel (R315): found at its home under the new hash, or at its home under the old one and moved, or
filled. The line is then in exactly one slice, at its new home. -/
def State.lookLine (s : State) (b line : Nat) : State :=
  match homeSlice (s.hashSlices b) line with
  | none => s
  | some n => if s.lines.contains (line, n) then s else { s with lines := (line, n) :: s.lines.filter fun x => x.1 != line }

/-- The sweeper moves the lines that a bezel's slices hold elsewhere than the new hash sends them (R315). -/
def State.sweepLines (s : State) (b : Bezel) : State :=
  (s.lines.filter fun x => s.memberOf (.slice x.2) b.num || b.oldSlices.contains x.2).foldl (fun s x => s.lookLine b.num x.1) s

/-- A rehash begins: both hashes exist until the sweep ends (R315). -/
def State.beginSweep (s : State) (b : Nat) (old : List Nat) : State :=
  s.modBezel b fun x => { x with sweep := true, oldSlices := (old ++ x.oldSlices).eraseDups }

/-- A number that a unit can have (R5). -/
def validUnit : UnitId → Bool
  | .core n => n < 256
  | .slice n => n < 192
  | .chan n => n < 768

/-- A unit is fenced at run time (R306, R363): it keeps its state and accepts no further work. A core's resident teams end with
UNCORR; a slice leaves the slice hash by a sweep; a pseudo-channel's engine ends its command with POISON and is FENCED (R341,
R348). -/
def State.fenceUnit (s : State) (u : UnitId) : State :=
  if s.fencedUnits.contains u || s.unit u == .gone || !validUnit u then s
  else
    let s1 := { s with fencedUnits := u :: s.fencedUnits }
    match u with
    | .core c => (s1.teams.filter fun t => t.core == c && t.placed).foldl (fun s t => s.terminate { team := t.sid, grp := 0 } 19 12 0)
        (s1.locket (unitDie u) 3 (Config.lockCode 1).toNat 0 (BitVec.ofNat 64 c))
    | .slice n =>
      let s2 := (s1.bezels.filter fun b => s1.memberOf u b.num).foldl (fun s b => s.beginSweep b.num (n :: s.hashSlices b.num)) s1
      s2.locket (unitDie u) 3 (Config.lockCode 2).toNat 0 (BitVec.ofNat 64 n)
    | .chan c =>
      let e := (s1.engines.find? fun e => e.chan == c).getD { chan := c }
      let out : PvEngine := match e.cur with
        | some _ => { chan := c, st := .fenced, lastErr := 4, completed := e.completed + 1 }
        | none => { e with st := .fenced }
      ({ s1 with
         engines := out :: s1.engines.filter fun e => e.chan != c
         pvCmds := s1.pvCmds.map fun (p : PvCmd) => if e.cur == some p.id then { p with ended := p.ended ++ [(c, 4, e.idx)] } else p } : State).locket
        (unitDie u) 3 (Config.lockCode 3).toNat 0 (BitVec.ofNat 64 c)

/-- What a sub-core will hold from the next reset on, changed (R213, R303). -/
def State.setNextCap (s : State) (core sub : Nat) (f : SubCap → SubCap) : State :=
  let old := (s.nextCaps.find? fun x => x.core == core && x.sub == sub).getD { core := core, sub := sub, regs := 6144, tiles := 64 }
  { s with nextCaps := f old :: s.nextCaps.filter fun x => !(x.core == core && x.sub == sub) }

/-- A failed self-test (R213): the sub-arrays are fenced and recorded; one that would be the ninth fences the whole matrix
unit instead, ends every team on the core that has a group on the sub-core and holds a tile, and leaves the sub-core without tiles
from the next reset on. -/
def State.fenceSub (s : State) (core sub : Nat) (before failed : BitVec 16) (handle : W64) : State :=
  let all := before ||| failed
  let whole := 8 < popc all.toNat 16
  let f : SubFence := { core := core, sub := sub, mask := if whole then before else all, whole := whole }
  let s1 := { s with fencedSub := f :: s.fencedSub.filter fun p => !(p.core == core && p.sub == sub) }
  let s2 := ((List.range 16).filter fun i => failed.getLsbD i).foldl (fun s i =>
    s.locket (core / 64) 3 (Config.lockCode 0).toNat handle (Config.subArray (core * 64 + sub * 16 + i))) s1
  if whole then
    (s2.teams.filter fun t => t.core == core && t.onCore && (t.groups.any fun g => g.num % 4 == sub && g.life != .exited)
        && t.groups.any fun g => !g.t.isEmpty).foldl
      (fun s t => s.terminate { team := t.sid, grp := 0 } 19 12 0) (s2.setNextCap core sub fun x => { x with tiles := 0 })
  else s2

/-- The matrix unit stops at PROT or RANK (R205): the entry and every later one leave the queue, and the group takes a
deferred trap. -/
def State.trapMatrix (s : State) (c : Ctx) (m : MOp) (code : Nat) (va : W64) : State :=
  let s1 := s.modGroup c.g fun g =>
    { g with mq := [], late := [], ops := g.ops.filter fun o => match o.what with | .matrix _ => false | _ => true }
  s1.deferPend c.g c.core c.handle
    { code := code, pc := m.pc.hdr.setWidth 64, addr := va, em := 0, slotB := false, resume := {}, matrix := true }

/-- A group's context outside an issue. -/
def State.ctxAt (s : State) (r : GRef) (hdr : VA) : Option Ctx :=
  match s.team? r.team with
  | none => none
  | some t =>
    match t.group? r, s.bezel? t.bezel with
    | some g, some b =>
      (b.kernel? t.kslot).map fun k =>
        { g := r, grp := g, team := t, kern := k, bez := b, cl := { hdr := hdr, head := 0, words := [], lits := [], slot := .a } }
    | _, _ => none

/-- MATRIX_OP_COMPLETE (R197): the operation at the head of a group's queue is carried out and leaves the queue, parks the
queue on a fault, or traps; a row of a tile that has failed kills its lane (R361); then a unit in which an error recurs is fenced (R363). -/
def State.matrixStep (s : State) (r : GRef) (failed : BitVec 16) (unit : Option UnitId) : Option State :=
  match s.ctxAt r 0 with
  | none => none
  | some c =>
    match c.grp.mq with
    | [] => none
    | m :: _ =>
      let sub := r.grp % 4
      let before := s.fenced c.core sub
      let isColl := match m.what with | .coll _ _ => true | _ => false
      if isColl || m.parked || !c.team.onCore || (c.team.ctx == .stopping && !c.kern.nonRewindable && !c.grp.masked) || (s.subFence c.core sub).whole ||
          (failed &&& before) != 0 || (failed != 0 && m.what.writes.isNone) then none
      else
        let bad := c.grp.badRows m
        match runMatrix c (if bad = 0 then s else s.killLanes c.g bad 0) { m with rows := m.rows &&& ~~~ bad } before failed with
        | (_, some .later) => none
        | (s1, some .migr) => some (s1.modGroup r fun g => { g with mq := modAt g.mq 0 fun h => { h with migr := true } })
        | (s1, some (.prot code va)) => some (s1.trapMatrix c m code va)
        | (s1, some (.park va ca l w)) =>
          let f : FaultInfo :=
           { va := va, cause := ca, level := l, write := w, engine := true, handle := c.handle,
             place := placeWord c.team r.grp, joiner := .matrix r }
          some ((s1.fault c.bez.num f).modGroup r fun g => { g with mq := modAt g.mq 0 fun h => { h with fault := some va } })
        | (s1, none) =>
          let s2 := if failed = 0 then s1 else s1.fenceSub c.core sub before failed c.handle
          let s3 := s2.modGroup r Group.popMatrix
          some (match unit with | some u => s3.fenceUnit u | none => s3)

/-- MATRIX_OP_COMPLETE. -/
def execMatrixOpComplete (s : State) : Host.Outcome State Fault Refusal :=
  eventStep s "MATRIX_OP_COMPLETE" fun e => match e with | .matrixOpComplete g failed unit => s.matrixStep g failed unit | _ => none

end Sys2Proof.Machine
end

