-- ==== Sys2Proof/Machine/Flow.lean ====
section
/-! DEFINITION. Flows with residual coding (R241 to R264): opcodes 0xC0 to 0xC5, the coded stream, and the steps of the
link engines. -/

namespace Sys2Proof.Machine

open Sys2Proof

/-! ### The coded stream (R246 to R252) -/

/-- Bits of a stream, least significant first, padded to whole bytes (R38, R250). -/
def packBits (l : List Bool) : List Byte :=
  (List.range ((l.length + 7) / 8)).map fun q =>
    BitVec.ofNat 8 ((List.range 8).foldl (fun a p => a + if l[8 * q + p]?.getD false then 2 ^ p else 0) 0)

/-- The bits of a byte string, least significant first. -/
def unpackBits (l : List Byte) : List Bool := l.flatMap fun b => (List.range 8).map b.getLsbD

/-- The low `n` bits of a number, least significant first. -/
def natBits (x n : Nat) : List Bool := (List.range n).map x.testBit

/-- The number whose bits are given, least significant first. -/
def bitsNat : List Bool → Nat
  | [] => 0
  | b :: bs => (if b then 1 else 0) + 2 * bitsNat bs

/-- Bytes per element of a width code. -/
def widthBytes (w : Nat) : Nat := 2 ^ w

/-- The elements of a chunk. -/
def chunkElems (w : Nat) (l : List Byte) : List Nat :=
  (List.range (l.length / widthBytes w)).map fun j => leNat (slice l (j * widthBytes w) (widthBytes w))

/-- The bytes of elements. -/
def elemBytes (w : Nat) (l : List Nat) : List Byte := l.flatMap fun x => leBytes x (widthBytes w)

/-- The prediction of a slot for `n` bytes (R247); free once a program has stored into the mirror area (R244), and in a slot whose
storage has failed (R360). -/
def State.predict (s : State) (f : FlowEnd) (slot n : Nat) : List Byte :=
  let x := f.slot slot
  if !f.repeat_ then List.replicate n 0
  else if f.spoiled || x.bad then (List.range n).map fun i => s.freeAt (2 ^ 79 + f.num * 2 ^ 32 + slot * 2 ^ 16 + i)
  else if x.valid then (x.data ++ List.replicate n 0).take n else List.replicate n 0

/-- The RES body of residuals (R250). -/
def resBody (w : Nat) (rs : List Nat) : List Byte :=
  packBits (rs.map (· ≠ 0)) ++
  packBits ((rs.filter (· ≠ 0)).flatMap fun r => natBits (Nat.log2 r) (3 + w) ++ natBits r (Nat.log2 r))

/-- The residuals of a RES body's fields, for each bitmap bit. -/
def resDecode (w : Nat) : List Bool → List Bool → List Nat
  | [], _ => []
  | false :: bm, fs => 0 :: resDecode w bm fs
  | true :: bm, fs =>
    let q := bitsNat (fs.take (3 + w))
    (2 ^ q + bitsNat ((fs.drop (3 + w)).take q)) :: resDecode w bm (fs.drop (3 + w + q))

/-- The residuals of a RES body of `n` elements. -/
def resResiduals (w n : Nat) (body : List Byte) : List Nat :=
  resDecode w ((unpackBits (body.take ((n + 7) / 8)) ++ List.replicate n false).take n) (unpackBits (body.drop ((n + 7) / 8)))

/-- Mode and body of a chunk (R247, R250): 0 RES, 1 RAW, 2 ZERO. -/
def codeChunk (w : Nat) (a p : List Byte) : Nat × List Byte :=
  let rs := ((chunkElems w a).zip (chunkElems w p)).map fun x => x.1 ^^^ x.2
  if rs.all (· = 0) then (2, [])
  else if a.length ≤ (resBody w rs).length then (1, a)
  else (0, resBody w rs)

/-- One byte of the CRC-8 of R249. -/
def crc8Byte (c b : Byte) : Byte :=
  (List.range 8).foldl (fun c _ => if c.getLsbD 7 then (c <<< 1) ^^^ 0x07 else c <<< 1) (c ^^^ b)

/-- CRC-8 of bytes 1 to 7 of a header (R249). -/
def headerCrc (h : W64) : Byte := ((leBytes h.toNat 8).drop 1).foldl crc8Byte 0

/-- A chunk header (R248). -/
def chunkHeader (flow slot : Nat) (gen : BitVec 16) (mode w len : Nat) : W64 :=
  let h : W64 := BitVec.ofNat 64 (flow * 2 ^ 48 + slot * 2 ^ 36 + gen.toNat * 2 ^ 20 + mode * 2 ^ 18 + w * 2 ^ 16 + (len - 1) * 2 ^ 8)
  h ||| (headerCrc h).setWidth 64

/-- The term of a chunk in the check value (R251). -/
def chunkTerm (l : List Byte) (slot : Nat) : W32 := crc32c (l ++ leBytes slot 2)

/-- XOR of check terms. -/
def xorAll (l : List W32) : W32 := l.foldl (· ^^^ ·) 0

/-! ### Memory as the link engine reaches it (R260) -/

/-- An access of the end to an address that `at_` names waits for `fltret`, or for the end of a migration; its other accesses go on
(R163, R260). -/
def State.flowParked (s : State) (f : FlowEnd) (at_ : W64 → Bool) : Bool :=
  f.migr.any at_ || (s.bezel? f.bezel).any fun b => b.faults.any fun e => e.joined.any fun j => match j with
    | .flow n h va => n == f.num && h == f.handle && at_ va
    | _ => false

/-- An access of an end met a MIGRATING page. -/
def State.migrFlow (s : State) (f : FlowEnd) (va : W64) : State := s.modFlow f.num fun f => { f with migr := va :: f.migr }

/-- A page fault of a flow end's access (R260). -/
def State.flowFault (s : State) (f : FlowEnd) (va : W64) (cause level : Nat) (write : Bool) (joiner : Joiner) : State :=
  s.fault f.bezel
    { va := va, cause := cause, level := level, write := write, engine := true, handle := f.handle,
      place := BitVec.ofNat 32 (f.die * 64 * 2 ^ 10), joiner := joiner }

/-- A message put on the links. -/
def State.post (s : State) (m : NetMsg) : State := { s with net := s.net ++ [m] }

/-- Messages that this module sent to itself must be on the links; others arrive from other devices. Answers the state
without the message. -/
def State.takeMsg (s : State) (fromSelf : Bool) (m : NetMsg → Bool) : Option State :=
  if fromSelf then
    match s.net.find? m with
    | some x => some { s with net := s.net.erase x }
    | none => none
  else some s

/-! ### fopen (R260) -/

/-- The addresses of an area that `fopen` translates: its start and each 64 KiB boundary inside. -/
def areaPages (va : W64) (n : Nat) : List W64 :=
  if n = 0 then [] else
    va :: ((List.range (n / 2 ^ 16 + 1)).filterMap fun i =>
      let a := (va.toNat / 2 ^ 16 + 1 + i) * 2 ^ 16
      if a < va.toNat + n then some (BitVec.ofNat 64 a) else none)

/-- The areas that a flow record names. -/
def flowAreas (r : List Byte) : List W64 :=
  areaPages (frMirror r) (if (dword r 0).getLsbD 1 then 256 + 520 * frWin r else 256)
    ++ (if frLand r = 0 then [] else areaPages (frLand r) (256 * frWin r))
    ++ (if frRxobj r = 0 then [] else [frRxobj r])
    ++ (if frMembers r = 0 then [] else [frMembers r])

/-- The RECORD case of `fopen`. `members`: the member table read. -/
def flowRecordBad (r : List Byte) (rxSync : Bool) (members : List W32) : Bool :=
  frBad r || (frMirror r).toNat % 256 ≠ 0 || (frLand r).toNat % 256 ≠ 0 || (frRxobj r).toNat % 32 ≠ 0 ||
  (frMembers r).toNat % 64 ≠ 0 || (frRxobj r ≠ 0 && !rxSync) || (frLand r ≠ 0) != frRecv r ||
  (frMcast r && (frRecv r || frMembers r = 0 || members.any (fun x => x.getLsbD 31) ||
    (members.map fun x => x.toNat % 2 ^ 16).eraseDups.length ≠ 1)) ||
  (!frMcast r && (frNmem r ≠ 0 || frMembers r ≠ 0))

/-- `fopen` (R260): acts once, whatever EM holds. An end of this launch with the same record that is still CLOSING counts as open (log
entry 60). A poisoned member table ends the team (R361). -/
def execFopen (d a : BitVec 8) (s : State) : Host.Outcome State Fault Refusal :=
  issue (.fopen d a) s fun c s => classA c s fun s =>
    if (c.s a).toNat % 128 ≠ 0 then .error (.trap ALIGN (c.s a))
    else do
      gateA c s
      let (s1, r) ← readRecord c s (c.s a) 128
      let areas := flowAreas r
      if areas.any isWindow then throw (.trap PROT ((areas.find? isWindow).getD 0))
      let (s2, ps, _) ← checkLanes c s1 .store (List.range areas.length) (fun i => areas[i]?.getD 0) 1
      let placeOf := fun (va : W64) => ps.findSome? fun p => if areas[p.1]? == some va then some p.2 else none
      match (if frMcast r && frMembers r ≠ 0 then placeOf (frMembers r) else none) with
      | some p => if s2.placePoisoned p then throw (.done ((s2.checkPlaces c.handle [p]).terminate c.g 19 12 (frMembers r)))
      | none => pure ()
      let rxSync := match placeOf (frRxobj r) with | some (.glob _ sync _ _) => sync | _ => false
      let members : List W32 := if frMcast r && frMembers r ≠ 0 then
          (match placeOf (frMembers r) with
           | some p => (List.range (frNmem r + 1)).map fun m => BitVec.ofNat 32 (leNat (s2.loadBytes c.g c.grp c.core (p.at (4 * m)) 4))
           | none => [])
        else []
      let n := frFlow r
      let code : W64 := 2 ^ 63
      let done := fun (s : State) (v : W64) => issueA c s [.scal (sdstNum d) v] .ready false
      if flowRecordBad r rxSync members then done s2 (code + 1)
      else match s2.flow? n with
        | some f => if f.record = r ∧ f.handle = c.handle then done s2 (BitVec.ofNat 64 n) else done s2 (code + 2)
        | none =>
          let e : FlowEnd := { num := n, bezel := c.bez.num, kslot := c.kern.slot, handle := c.handle, team := c.team.sid, tid := c.team.tid,
                               key := c.key, record := r, members := members, die := c.die }
          done { s2 with flows := s2.flows ++ [e] } (BitVec.ofNat 64 n)

/-! ### fsend, fmcast, freseed, fclose, fstat (R261 to R264) -/

/-- A flow end of this launch. -/
def Ctx.myFlow (c : Ctx) (s : State) (h : W64) : Option FlowEnd :=
  match s.flow? h.toNat with
  | some f => if f.handle = c.handle then some f else none
  | none => none

/-- An end that takes commands: OPEN, DESYNC or RESEEDING. -/
def FlowEnd.live (f : FlowEnd) : Bool := f.st == .opened || f.st == .desync || f.st == .reseeding

/-- The ticket draw of an engine command, with the command handed over: `k` gets the issuer and the operation's wait. -/
def drawFor (c : Ctx) (s : State) (op : Nat) (ctr : Option Obj) (k : Issuer → Option Obj → State → State) : State :=
  match ctr with
  | none => k (c.issuer (some op) none) none s
  | some o =>
    match s.drawInTurn c.g o c.handle with
    | .ticket t s' => k (c.issuer (some op) (some (o, t))) none s'
    | .wait => k { c.issuer (some op) (some (o, 0)) with drawn := false } (some o) s

/-- `fsend` and `fmcast` (R261). `mask`: the members of `fmcast`. -/
def sendOp (i : Instr) (ctr : Ctx → W64) (mask : Ctx → Option W64) (a b : BitVec 8) (ops : Ctx → List W64) (s : State) :
    Host.Outcome State Fault Refusal :=
  issue i s fun c s =>
    if c.em = 0 then classB c s (ops c) fun s => instantB c s .ok
    else if c.g.sh then do
      let s1 ← boundary c s false
      .ok (sign c s1 (ops c))
    else if (c.s a).toNat % 64 ≠ 0 then .error (.trap ALIGN (c.s a))
    else do
      gateB c s
      let (s1, r) ← readRecord c s (c.s a) 64
      let h := shapeRec r
      let n := bits (dword r 24).toNat 47 32
      let base := bits (dword r 24).toNat 59 48
      match c.myFlow s1 (BitVec.ofNat 64 n) with
      | none => .error (.trap PROT (c.s a))
      | some f => do
        if f.isRecv || !f.live then throw (.trap PROT (c.s a))
        if shapeBad r (c.s b) || h.scatter then throw (.trap ILLOP)
        let p := h.count * h.esize
        let w := widthBytes (frWidth f.record)
        if p % w ≠ 0 || 256 * frWin f.record < p || frWin f.record ≤ base then throw (.trap ILLOP)
        match [h.src, h.str 1, h.str 2].find? fun x => x.toNat % h.esize ≠ 0 with
        | some x => throw (.trap ALIGN x)
        | none => pure ()
        let m ← match mask c with
          | none => .ok (f.memberNos.foldl (fun a m => a + 2 ^ m) 0)
          | some m =>
            if !frMcast f.record || 2 ^ 16 ≤ m.toNat || m = 0 || 2 ^ (frNmem f.record + 1) ≤ m.toNat then .error (.trap ILLOPERAND)
            else .ok m.toNat
        let (s2, o) ← if ctr c = 0 then .ok (s1, none) else do
          let (s2, o) ← counterAt c s1 .sync (ctr c)
          .ok (s2, some o)
        let s3 ← boundary c s2 false
        let s4 ← issueB c (s3.publish c.g c.core 3) .event fun op s =>
          .ok (drawFor c s op o fun by_ wait s =>
            let s1 := s.modFlow n fun f => { f with queue := f.queue ++ [.send r (c.s b) m by_] }
            match wait with
            | none => s1
            | some o => c.mod s1 fun g => g.resolve op id (.draw o (.flow n) 33))
        .ok (sign c s4 (ops c))

/-- `fsend` (R261). -/
def execFsend (d a b : BitVec 8) (s : State) : Host.Outcome State Fault Refusal :=
  sendOp (.fsend d a b) (fun c => c.s d) (fun _ => none) a b (fun c => [c.s d, c.s a, c.s b]) s

/-- `fmcast` (R257, R261). -/
def execFmcast (d a b : BitVec 8) (s : State) : Host.Outcome State Fault Refusal :=
  sendOp (.fmcast d a b) (fun c => c.s d) (fun c => some (c.s (d + 1))) a b (fun c => [c.s d, c.s (d + 1), c.s a, c.s b]) s

/-- `freseed` (R262): held with the version. -/
def execFreseed (a : BitVec 8) (s : State) : Host.Outcome State Fault Refusal :=
  issue (.freseed a) s fun c s =>
    classB c s [c.s a] fun s =>
      if c.em = 0 then instantB c s .ok
      else match c.myFlow s (c.s a) with
        | some f => if f.isRecv || !f.live then .error (.trap PROT (c.s a)) else defer c s (.freseed f.num c.handle)
        | none => .error (.trap PROT (c.s a))

/-- `fclose` (R262): held with the version; a handle that this launch has closed already has no effect, and an end that is SUSPENDED is
not in the state that it requires (R245, R259). -/
def execFclose (a : BitVec 8) (s : State) : Host.Outcome State Fault Refusal :=
  issue (.fclose a) s fun c s =>
    classB c s [c.s a] fun s =>
      if c.em = 0 then instantB c s .ok
      else match c.myFlow s (c.s a) with
        | some f => if f.st == .closing then instantB c s .ok
            else if f.live then defer c s (.fclose f.num c.handle) else .error (.trap PROT (c.s a))
        | none => if c.kern.closed.contains (c.s a).toNat then instantB c s .ok else .error (.trap PROT (c.s a))

/-- State code of R264. -/
def FState.code : FState → Nat
  | .opened => 1 | .desync => 2 | .reseeding => 3 | .suspended => 4 | .closing => 5

/-- What `fstat` reads (R264). -/
def FlowEnd.stat (f : FlowEnd) (fn : Nat) : W64 :=
  match fn with
  | 0 => BitVec.ofNat 64 (f.st.code + (if f.isRecv then 8 else 0) + f.lastReason * 16 + f.lastSeq.toNat * 2 ^ 32)
  | 1 => f.coded
  | 2 => f.payload
  | 3 => f.resends
  | _ =>
    let isSend := fun (x : FlowCmd) => match x with | .send _ _ _ _ => true | .reseed _ _ => false
    if f.isRecv then 0 else BitVec.ofNat 64 ((f.queue.filter isSend).length + if f.cur.any fun t => isSend t.cmd then 1 else 0)

/-- `fstat` (R264). -/
def execFstat (d a f : BitVec 8) (s : State) : Host.Outcome State Fault Refusal :=
  issue (.fstat d a f) s fun c s => classA c s fun s =>
    issueA c s [.scal (sdstNum d) (match c.myFlow s (c.s a) with | some e => e.stat f.toNat | none => 0)] .ready false

/-! ### The send end (R253, R255, R256) -/

/-- Where the link engine reads an element of a command's source (R155, R165, R260): a stash window of the issuing team, or a
global address of the launch. -/
def State.flowSrc (s : State) (f : FlowEnd) (i : Issuer) (va : W64) : Except EngineStop Place :=
  if isWindow va && !badVa va then
    match s.owner? i with
    | some (t, k, b) => s.enginePlace t k b .engine va
    | none => .error (.prot PROT va)
  else match s.flowTr f .engine va with
    | .ok pa sync ow => if s.recallWaits (pa / 256) then .error .later else .ok (.glob pa sync ow va)
    | .park ca l => .error (.park va ca l false)
    | .migrating => .error .migr
    | .filling _ => .error .later
    | _ => .error (.prot PROT va)

/-- The sector of a poisoned element, whose CHECK is verified as it is read (R362). -/
def State.checkFlowSrc (s : State) (f : FlowEnd) (i : Issuer) (va : W64) : State :=
  match s.flowSrc f i va with
  | .ok p => s.checkPlaces i.handle [p]
  | .error _ => s

/-- The elements of a chunk read for a command (R234): its bytes, or none and the address where one is poisoned (R361). -/
def State.gatherChunk (s : State) (f : FlowEnd) (i : Issuer) (h : Shape) :
    List (W64 × Nat × Bool) → Except EngineStop (Except W64 (List Byte))
  | [] => .ok (.ok [])
  | (off, _, inb) :: rest => do
    let part : Except W64 (List Byte) ← if !inb then .ok (.ok (List.replicate h.esize 0)) else do
      let p ← s.flowSrc f i (h.src + off)
      .ok (if s.placePoisoned p then .error (h.src + off) else .ok (s.engineBytes i.since p h.esize))
    let more ← s.gatherChunk f i h rest
    .ok (match part, more with
      | .ok a, .ok b => .ok (a ++ b)
      | .error va, _ => .error va
      | _, .error va => .error va)

/-- One chunk coded and sent to the members of a transfer (R253). -/
def State.sendChunk (s : State) (n : Nat) (ms : List Nat) (slot : Nat) (data : List Byte) : State :=
  match s.flow? n with
  | none => s
  | some f =>
    let w := frWidth f.record
    let x := f.slot slot
    let g : BitVec 16 := if f.repeat_ then x.gen else 0
    let (mode, body) := codeChunk w data (s.predict f slot data.length)
    let s1 := ms.foldl (fun s m =>
      let p := f.peer m
      s.post (.chunk p.1 p.2.1 p.2.2 s.devId n (chunkHeader p.2.2 slot g mode w data.length) body)) s
    s1.modFlow n fun f =>
      let f1 := if f.repeat_ then
          f.setSlot { s := slot, data := (data ++ List.replicate 256 0).take 256, gen := g + 1, valid := true }
        else f
      { f1 with coded := f1.coded + BitVec.ofNat 64 (8 + body.length),
                cur := f1.cur.map fun t => { t with chunks := t.chunks ++ [(slot, g, data)], sent := t.sent + 1,
                                                    check := t.check ^^^ chunkTerm data slot } }

/-- A transfer ends: its ticket completes and its flag falls (R256, R375). -/
def State.endSend (s : State) (n : Nat) : State :=
  match s.flow? n with
  | none => s
  | some f =>
    match f.cur with
    | none => s
    | some t =>
      let s1 := s.modFlow n fun f => { f with cur := none }
      match t.cmd with
      | .send _ _ _ by_ =>
        let s2 := match by_.op with
          | some op => s1.modGroup by_.g fun g => g.dropOp op
          | none => s1
        s2.completeTicket by_.ctr
      | .reseed op g => s1.modGroup g fun x => x.dropOp op

/-- The transfer in progress completes at its last answer (R245, R256). -/
def State.finishSend (s : State) (n : Nat) : State :=
  let s1 := s.endSend n
  match (s.flow? n).bind (·.cur) with
  | none => s1
  | some t =>
    match t.cmd with
    | .reseed _ _ => s1
    | .send _ _ _ _ => s1.modFlow n fun f =>
        let f1 := { f with lastSeq := t.seq, payload := f.payload + BitVec.ofNat 64 t.payload }
        if f1.work == .reseeding && !t.gone then f1.setWork .opened else f1

/-- Chunks of the transfer in progress resent RAW to one member, and its trailer (R255), or RESEED again (R262). -/
def State.resend (s : State) (n m : Nat) (slots : List Nat) : State :=
  match s.flow? n with
  | none => s
  | some f =>
    match f.cur with
    | none => s
    | some t =>
      let p := f.peer m
      match t.cmd with
      | .reseed _ _ => s.post (.reseed p.1 p.2.1 p.2.2 s.devId n)
      | .send _ _ _ _ =>
      let cs := t.chunks.filter fun c => slots.contains c.1
      let s1 := cs.foldl (fun s c =>
        s.post (.chunk p.1 p.2.1 p.2.2 s.devId n (chunkHeader p.2.2 c.1 c.2.1 1 (frWidth f.record) c.2.2.length) c.2.2)) s
      let s2 := s1.post (.trailer p.1 p.2.1 p.2.2 s.devId n t.check t.seq)
      s2.modFlow n fun f =>
        { f with coded := f.coded + BitVec.ofNat 64 (cs.foldl (fun a c => a + 8 + c.2.2.length) 8),
                 resends := f.resends + BitVec.ofNat 64 cs.length }

/-- The highest reason code of a NACK (R255, R264). -/
def nackTop (slots : List (Nat × Nat)) (all : Bool) : Nat :=
  slots.foldl (fun a x => max a x.2) (if all then 3 else if slots.isEmpty then 4 else 0)

/-- A NACK applied at a send end (R245, R255). GONE ends the transfer for the member, to which nothing more is sent; ABSENT is answered after a backoff;
the others at once. An empty list that names not all chunks is an ABSENT trailer; slots of an earlier NACK that still wait stay
named. -/
def State.takeNack (s : State) (n m : Nat) (slots : List (Nat × Nat)) (all : Bool) : State :=
  match s.flow? n with
  | none => s
  | some f =>
    match f.cur with
    | none => s
    | some t =>
      let s1 := s.modFlow n fun f => { f with lastReason := nackTop slots all }
      if slots.any fun x => x.2 = 5 then
        let s2 := s1.modFlow n fun f => { f with cur := some { t with
          waiting := t.waiting.filter (· != m), gone := true, nacks := t.nacks.filter fun x => x.1 != m, backoff := t.backoff.filter fun x => x.1 != m } }
        if (t.waiting.filter (· != m)).isEmpty then s2.finishSend n else s2
      else
        let absent := (slots.filter fun x => x.2 = 4).map (·.1)
        let now := if all then t.chunks.map (·.1) else (slots.filter fun x => x.2 ≠ 4).map (·.1)
        let s2 := if all || slots.any (fun x => x.2 = 1) then s1.modFlow n fun f =>
            let f1 := if f.work == .opened then f.setWork .desync else f
            if f1.work == .desync then f1.setWork .reseeding else f1
          else s1
        let s3 := if now.isEmpty then s2 else s2.resend n m now
        if absent.isEmpty && !(slots.isEmpty && !all) then s3
        else s3.modFlow n fun f =>
          { f with cur := f.cur.map fun t =>
              let old := t.backoff.find? fun b => b.1 == m
              let last := match old with | some b => b.2.2 | none => 0
              let open_ := (old.bind fun b => b.2.1).getD []
              { t with backoff := (m, some (open_ ++ absent.filter fun x => !open_.contains x), if last = 0 then 1 else min 1000 (2 * last)) :: t.backoff.filter fun b => b.1 != m } }

/-- What a send end does next for the transfer in progress (R253, R258): its next chunk, read, coded and sent, or the trailer,
after which it answers the NACKs it holds; a source that faults parks the end, one that is poisoned ends the team (R361), and
one that traps PROT ends the transfer from that chunk on (R261). -/
def State.sendNext (s : State) (n : Nat) : Option State :=
  match s.flow? n with
  | none => none
  | some f =>
    match f.cur with
    | none => none
    | some t =>
      match t.cmd with
      | .reseed _ _ => none
      | .send r x _ by_ =>
        if t.trailer || f.st == .suspended || s.flowParked f (fun _ => true) then none
        else
          let h := shapeRec r
          let ms := t.waiting
          let base := bits (dword r 24).toNat 59 48
          if 256 * t.sent < t.payload && f.repeat_ && (f.slot ((base + t.sent) % frWin f.record)).bad then some (s.terminate by_.g 19 12 0)
          else if 256 * t.sent < t.payload then
            let per := 256 / h.esize
            match s.gatherChunk f by_ h (((h.elems x).drop (per * t.sent)).take per) with
            | .ok (.ok data) => some (s.sendChunk n ms ((base + t.sent) % frWin f.record) data)
            | .ok (.error va) => some ((s.checkFlowSrc f by_ va).terminate by_.g 19 12 va)
            | .error (.park va ca l w) => some (s.flowFault f va ca l w (.flow f.num f.handle va))
            | .error (.prot code va) => some ((s.deferTrap by_ code va).endSend n)
            | .error .migr => some (s.migrFlow f h.src)
            | .error .later => none
          else
            let s1 := ms.foldl (fun s m =>
              let p := f.peer m
              s.post (.trailer p.1 p.2.1 p.2.2 s.devId n t.check t.seq)) s
            let s2 := s1.modFlow n fun f =>
              { f with coded := f.coded + 8, cur := f.cur.map fun t => { t with trailer := true, nacks := [] } }
            some (t.nacks.foldl (fun s x => s.takeNack n x.1 x.2.1 x.2.2) s2)

/-- A transfer sent as far as nothing stops it. -/
def State.sendAll (n : Nat) : Nat → State → State
  | 0, s => s
  | k + 1, s => match s.sendNext n with
    | some s' => State.sendAll n k s'
    | none => s

/-- The next queued command of a send end becomes the transfer in progress (R253, R262). -/
def State.transferBegin (s : State) (n : Nat) : Option State :=
  match s.flow? n with
  | none => none
  | some f =>
    if f.isRecv || f.cur.isSome || f.st == .suspended then none
    else match f.queue with
      | [] => none
      | .reseed op g :: rest =>
        let s1 := s.modFlow n fun f =>
          { f with queue := rest, slots := [], spoiled := false,
                   cur := some { cmd := .reseed op g, seq := 0, waiting := f.memberNos, trailer := true } }
        some (f.memberNos.foldl (fun s m =>
          let p := f.peer m
          s.post (.reseed p.1 p.2.1 p.2.2 s.devId n)) s1)
      | .send r x mask by_ :: rest =>
        if !by_.drawn then none
        else some (s.modFlow n fun f =>
          { f with queue := rest, cur := some { cmd := .send r x mask by_, seq := f.lastSeq + 1, waiting := f.memberNos.filter mask.testBit,
                                                payload := (shapeRec r).count * (shapeRec r).esize } })

/-- TRANSFER_START (R253, R258): the next queued command of a send end whose previous transfer has ended, or a transfer that was
stopped at a chunk boundary, sent as far as its sources allow. -/
def State.transferStart (s : State) (n : Nat) : Option State :=
  match (s.flow? n).bind (·.cur) with
  | none => (s.transferBegin n).map fun s => State.sendAll n (((s.flow? n).bind (·.cur)).elim 0 fun t => (t.payload + 255) / 256 + 1) s
  | some t => (s.sendNext n).map fun s' => State.sendAll n ((t.payload + 255) / 256 + 1 - t.sent) s'

/-- TRANSFER_START. -/
def execTransferStart (s : State) : Host.Outcome State Fault Refusal :=
  eventStep s "TRANSFER_START" fun e => match e with | .transferStart f => s.transferStart f | _ => none

/-- NACK_ARRIVAL (R255, R258). A NACK of another transfer has no effect, but for an ABSENT one, whose number is that of the transfer
that its receiver awaits, which lags where earlier ones ended GONE for it. -/
def State.nackArrival (s : State) (n m : Nat) (seq : W32) (slots : List (Nat × Nat)) (all : Bool) : Option State :=
  match s.flow? n with
  | none => none
  | some f =>
    if f.isRecv || !f.memberNos.contains m then none
    else
      let dev := (f.peer m).1
      let is := fun (x : NetMsg) => match x with
        | .nack d _ fl src sf q sl al => d == s.devId && fl == n && src == dev && sf == (f.peer m).2.2 && q == seq && sl == slots && al == all
        | _ => false
      match s.takeMsg (dev == s.devId || s.net.any is) is with
      | none => none
      | some s1 =>
        match f.cur with
        | none => some s1
        | some t =>
          let gone := slots.any fun x => x.2 = 5
          let absent := !all && slots.all fun x => x.2 = 4
          let isRe := match t.cmd with | .reseed _ _ => true | .send _ _ _ _ => false
          if !t.waiting.contains m || (t.seq ≠ seq && !gone && !absent && !isRe) then some s1
          else if (f.st == .suspended || !t.trailer) && !gone then
            some (s1.modFlow n fun f => { f with cur := some { t with nacks := t.nacks ++ [(m, slots, all)] },
                                                 lastReason := nackTop slots all })
          else some (s1.takeNack n m slots all)

/-- NACK_ARRIVAL. -/
def execNackArrival (s : State) : Host.Outcome State Fault Refusal :=
  eventStep s "NACK_ARRIVAL" fun e => match e with
    | .nackArrival f m q sl all => s.nackArrival f m q sl all
    | _ => none

/-- ACK_ARRIVAL (R256, R262). -/
def State.ackArrival (s : State) (n m : Nat) (seq : W32) (re : Bool) : Option State :=
  match s.flow? n with
  | none => none
  | some f =>
    if f.isRecv || !f.memberNos.contains m then none
    else
      let dev := (f.peer m).1
      let is := fun (x : NetMsg) => match x with
        | .ack d _ fl src sf q r => d == s.devId && fl == n && src == dev && sf == (f.peer m).2.2 && q == seq && r == re
        | _ => false
      match s.takeMsg (dev == s.devId || s.net.any is) is with
      | none => none
      | some s1 =>
        match f.cur with
        | none => some s1
        | some t =>
          let isRe := match t.cmd with | .reseed _ _ => true | .send _ _ _ _ => false
          if !t.waiting.contains m || isRe != re || (!re && t.seq ≠ seq) then some s1
          else
            let left := t.waiting.filter (· != m)
            let s2 := s1.modFlow n fun f => { f with cur := some { t with waiting := left, nacks := t.nacks.filter fun x => x.1 != m,
                                                                          backoff := t.backoff.filter fun x => x.1 != m } }
            some (if left.isEmpty then s2.finishSend n else s2)

/-- ACK_ARRIVAL. -/
def execAckArrival (s : State) : Host.Outcome State Fault Refusal :=
  eventStep s "ACK_ARRIVAL" fun e => match e with | .ackArrival f m q re => s.ackArrival f m q re | _ => none

/-- ABSENT_RETRY_TIMER (R255): the named chunks, or the trailer alone, are sent again. -/
def State.absentRetry (s : State) (n m : Nat) : Option State :=
  match s.flow? n with
  | none => none
  | some f =>
    match f.cur with
    | none => none
    | some t =>
      match t.backoff.find? fun b => b.1 == m with
      | some (_, some slots, delay) =>
        if f.st == .suspended then none
        else some ((s.modFlow n fun f => { f with cur := some { t with
            backoff := (m, none, delay) :: t.backoff.filter fun b => b.1 != m } }).resend n m slots)
      | _ => none

/-- ABSENT_RETRY_TIMER. -/
def execAbsentRetryTimer (s : State) : Host.Outcome State Fault Refusal :=
  eventStep s "ABSENT_RETRY_TIMER" fun e => match e with | .absentRetryTimer f m => s.absentRetry f m | _ => none

/-- FLOW_CLOSE_COMPLETE (R245): a closing send end with nothing outstanding frees its number, and the flags of its
`fclose`s fall. -/
def State.flowClose (s : State) (n : Nat) : Option State :=
  match s.flow? n with
  | none => none
  | some f =>
    if f.st == .closing && f.cur.isNone && f.queue.isEmpty then
      let s1 := f.closeOps.foldl (fun s p => s.modGroup p.1 fun g => g.dropOp p.2) (s.closeMirror f)
      some { (s1.modKernel f.bezel f.kslot fun k => { k with closed := n :: k.closed }) with
        flows := s1.flows.filter fun e => e.num != n }
    else none

/-- FLOW_CLOSE_COMPLETE. -/
def execFlowCloseComplete (s : State) : Host.Outcome State Fault Refusal :=
  eventStep s "FLOW_CLOSE_COMPLETE" fun e => match e with | .flowCloseComplete f => s.flowClose f | _ => none

/-! ### The receive end (R243, R254) -/

/-- GONE sent to the source of an arrival (R255). -/
def State.answerGone (s : State) (n srcDev srcFlow : Nat) (seq : W32) : State :=
  s.post (.nack srcDev 0 srcFlow s.devId n seq [(0, 5)] false)

/-- A NACK sent by a receive end to its peer; the chunks it names count for `fstat` (R264). -/
def State.sendNack (s : State) (f : FlowEnd) (seq : W32) (slots : List (Nat × Nat)) (all : Bool) : State :=
  (s.post (.nack (frPdev f.record) (frPdie f.record) (frPflow f.record) s.devId f.num seq slots all)).modFlow f.num fun f =>
    { f with lastReason := nackTop slots all,
             resends := f.resends + BitVec.ofNat 64 (if all then f.accepted.length else slots.length) }

/-- An arrival from a wrong source is discarded and recorded (R243, R376). -/
def State.wrongSource (s : State) (f : FlowEnd) (code srcDev srcFlow : Nat) : State :=
  s.locket f.die 9 code f.handle (BitVec.ofNat 64 (srcFlow + srcDev * 2 ^ 16 + f.num * 2 ^ 32))

/-- The receive end meets PROT (R260): GONE now and for every later arrival. -/
def State.recvProt (s : State) (f : FlowEnd) (va : W64) (seq : W32) : State :=
  ((s.locket f.die 9 0x0302 f.handle va).answerGone f.num (frPdev f.record) (frPflow f.record) seq).modFlow f.num fun f =>
    { f with dead := true, lastReason := 5, holding := [], noted := [], accepted := [] }

/-- A dead receive end answers an arrival GONE (R255, R260). -/
def State.deadGone (s : State) (f : FlowEnd) (seq : W32) : State :=
  (s.answerGone f.num (frPdev f.record) (frPflow f.record) seq).modFlow f.num fun f => { f with lastReason := 5 }

/-- A page fault met by an arrival (R260): the message stays on the links until the access can be made. -/
def State.landFault (s : State) (f : FlowEnd) (va : W64) (msg : NetMsg) : Option State :=
  if va = 0 then none
  else match s.flowTr f .store va with
    | .park ca l => some ((s.flowFault f va ca l true (.flow f.num f.handle va)).post msg)
    | .migrating => some ((s.migrFlow f va).post msg)
    | _ => none

/-- The landing sector of a slot. -/
def FlowEnd.landVa (f : FlowEnd) (slot : Nat) : W64 := frLand f.record + BitVec.ofNat 64 (256 * slot)

/-- A mirror write-back that waits is tried again (R260): it is written, or parks on a fault record, or waits for the end of a
migration; PROT drops it, makes a receive end answer GONE, and ends the transfer in progress of a send end as PROT on a source
does (R261). -/
def State.mirrorRetry (s : State) (i : Nat) : Option State :=
  match s.mirrorQ[i]? with
  | none => none
  | some w =>
    let va := frMirror w.f.record + BitVec.ofNat 64 w.off
    let out := { s with mirrorQ := s.mirrorQ.eraseIdx i }
    if s.mirrorParked w then none
    else match s.flowTr w.f .store va with
      | .ok pa sync ow => if s.recallWaits (pa / 256) then none else some (out.landSector [(pa, w.data)] ow (some sync) 0)
      | .park ca l => some (s.flowFault w.f va ca l true (.mirror w.f.num w.f.handle w.off))
      | .migrating => some { s with mirrorQ := modAt s.mirrorQ i fun w => { w with migr := true } }
      | _ =>
        match out.flow? w.f.num with
        | none => some out
        | some f =>
          if f.handle ≠ w.f.handle then some out
          else if f.isRecv then some (out.recvProt f va (f.lastSeq + 1))
          else match f.cur with
            | some t => (match t.cmd with
              | .send _ _ _ by_ => some ((out.deferTrap by_ PROT va).endSend f.num)
              | .reseed _ _ => some out)
            | none => some out

/-- A chunk accepted (R254): decoded, mirrored, landed as one sector, and entered into ACC. -/
def State.acceptChunk (s : State) (f : FlowEnd) (hdr : W64) (body : List Byte) : Option State :=
  let slot := bits hdr.toNat 47 36
  let h : BitVec 16 := BitVec.ofNat 16 (bits hdr.toNat 35 20)
  let mode := bits hdr.toNat 19 18
  let w := bits hdr.toNat 17 16
  let len := bits hdr.toNat 15 8 + 1
  let p := s.predict f slot len
  let data := if mode = 1 then (body ++ List.replicate len 0).take len
    else if mode = 2 then p
    else
      let rs := resResiduals w (len / widthBytes w) body
      let d := elemBytes w (((chunkElems w p).zip rs).map fun x => x.1 ^^^ x.2)
      d ++ p.drop d.length
  let full := (data ++ List.replicate 256 0).take 256
  let va := f.landVa slot
  match s.flowTr f .store va with
  | .migrating => none
  | .ok pa sync ow =>
    if s.recallWaits (pa / 256) then none
    else
      let s0 := s.drainSector (pa / 256)
      let s1 := match s0.mappedBlock (pa / 256) with
        | some (sid, m) => s0.recall sid m.off false
        | none => s0
      some ((s1.sectorWrite (pa / 256) full ow 0 false (some sync)).modFlow f.num fun f =>
        let f1 := if f.repeat_ then f.setSlot { s := slot, data := full, gen := h + 1, valid := true } else f
        let f2 := { f1 with accepted := (f1.accepted.filter fun x => x.1 != slot) ++ [(slot, h, chunkTerm data slot, len)] }
        if mode = 1 && f2.st == .desync then { f2 with st := .reseeding } else f2)
  | _ => some (s.recvProt f va (f.lastSeq + 1))

/-- CHUNK_ARRIVAL (R243, R249, R254). While an end that answers GONE after a PROT is SUSPENDED it answers ABSENT (R258; log
entry 60). -/
def State.chunkArrival (s : State) (n srcDev srcFlow : Nat) (hdr : W64) (body : List Byte) : Option State :=
  let msg := NetMsg.chunk s.devId 0 n srcDev srcFlow hdr body
  let is := fun (x : NetMsg) => match x with
    | .chunk d _ fl sd sf h b => d == s.devId && fl == n && sd == srcDev && sf == srcFlow && h == hdr && b == body
    | _ => false
  match s.takeMsg (srcDev == s.devId || s.net.any is) is with
  | none => none
  | some s1 =>
    let slot := bits hdr.toNat 47 36
    match s1.flow? n with
    | none => some (s1.answerGone n srcDev srcFlow 0)
    | some f =>
      if !f.isRecv then some (s1.answerGone n srcDev srcFlow 0)
      else if headerCrc hdr ≠ hdr.setWidth 8 || bits hdr.toNat 19 18 = 3 || bits hdr.toNat 17 16 = 3 then some s1
      else if srcDev ≠ frPdev f.record || srcFlow ≠ frPflow f.record then some (s1.wrongSource f 0x0300 srcDev srcFlow)
      else if f.st == .suspended then some (s1.sendNack f (f.lastSeq + 1) [(slot, 4)] false)
      else
        let s2 := s1.modFlow n fun f => { f with coded := f.coded + BitVec.ofNat 64 (8 + body.length) }
        if f.dead then some (s2.deadGone f (f.lastSeq + 1))
        else if frWin f.record ≤ slot then
          some ((s2.wrongSource f 0x0301 srcDev srcFlow).modFlow n fun f => { f with outWin := true })
        else
          let h : BitVec 16 := BitVec.ofNat 16 (bits hdr.toNat 35 20)
          let d := if f.repeat_ then h - (f.slot slot).gen else 0
          let ahead := d ≠ 0 && !d.getLsbD 15
          if (bits hdr.toNat 19 18 = 1 && !d.getLsbD 15) || d = 0 then
            if s1.flowParked f (· == f.landVa slot) then none
            else (s1.landFault f (f.landVa slot) msg).or (s2.acceptChunk f hdr body)
          else if ahead then
            let full := 64 ≤ (s2.flows.filter fun e => e.isRecv && e.die == f.die && frClass e.record == frClass f.record).foldl
              (fun a e => a + e.holding.length) 0
            some (s2.modFlow n fun f =>
              if full then { f with noted := f.noted ++ [(slot, 2)] } else { f with holding := f.holding ++ [(slot, h)] })
          else some s2

/-- CHUNK_ARRIVAL. -/
def execChunkArrival (s : State) : Host.Outcome State Fault Refusal :=
  eventStep s "CHUNK_ARRIVAL" fun e => match e with
    | .chunkArrival f sd sf h b => s.chunkArrival f sd sf h b
    | _ => none

/-- The transfer completes at a trailer with this check value (R254). -/
def FlowEnd.completes (f : FlowEnd) (check : W32) : Bool :=
  !f.outWin && f.noted.isEmpty && f.holding.isEmpty && xorAll (f.accepted.map fun x => x.2.2.1) == check

/-- A trailer judged by an open receive end (R254); the ACK follows the RXOBJ arrival (R256). -/
def State.judge (s : State) (f : FlowEnd) (check seq : W32) : Option State :=
  let clear := fun (f : FlowEnd) => { f with holding := [], noted := [], accepted := [], outWin := false }
  let noted := f.noted ++ f.holding.map fun x => (x.1, 1)
  if f.outWin then
    some ((s.answerGone f.num (frPdev f.record) (frPflow f.record) seq).modFlow f.num fun f => { clear f with lastReason := 5 })
  else if !noted.isEmpty then
    some ((s.modFlow f.num fun f =>
      { f with holding := [], noted := [], st := if noted.any (fun x => x.2 = 1) && f.st == .opened then .desync else f.st }).sendNack f seq noted false)
  else if xorAll (f.accepted.map fun x => x.2.2.1) = check then
    let done := fun (s : State) =>
      s.modFlow f.num fun f =>
        { clear f with ackDue := some seq, lastSeq := seq, st := if f.st == .reseeding then .opened else f.st,
                       payload := f.payload + BitVec.ofNat 64 (f.accepted.foldl (fun a x => a + x.2.2.2) 0) }
    if frRxobj f.record = 0 then some (done s)
    else match s.flowTr f .store (frRxobj f.record) with
      | .ok pa _ ow => some (done (s.arrive (.glob pa (frRxobj f.record) ow) 1 0 f.handle (noTlb f.die)))
      | .migrating => none
      | _ => some (s.recvProt f (frRxobj f.record) seq)
  else
    some ((s.sendNack f seq [] true).modFlow f.num fun f =>
      let back := f.accepted.foldl (fun f x => f.setSlot { f.slot x.1 with gen := x.2.1, valid := false }) f
      let g := if f.repeat_ then back else f
      { clear g with st := if g.st == .opened then .desync else g.st })

/-- The ACK that follows the RXOBJ arrival leaves (R254, R256). -/
def State.sendAck (s : State) (n : Nat) : Option State :=
  match s.flow? n with
  | none => none
  | some f => f.ackDue.map fun seq =>
      (s.post (.ack (frPdev f.record) (frPdie f.record) (frPflow f.record) s.devId n seq false)).modFlow n fun f => { f with ackDue := none }

/-- TRAILER_ARRIVAL (R254). -/
def State.trailerArrival (s : State) (n srcDev srcFlow : Nat) (check seq : W32) : Option State :=
  let msg := NetMsg.trailer s.devId 0 n srcDev srcFlow check seq
  let is := fun (x : NetMsg) => match x with
    | .trailer d _ fl sd sf c q => d == s.devId && fl == n && sd == srcDev && sf == srcFlow && c == check && q == seq
    | _ => false
  match s.takeMsg (srcDev == s.devId || s.net.any is) is with
  | none => none
  | some s1 =>
    match s1.flow? n with
    | none => some (s1.answerGone n srcDev srcFlow seq)
    | some f =>
      if !f.isRecv then some (s1.answerGone n srcDev srcFlow seq)
      else if srcDev ≠ frPdev f.record || srcFlow ≠ frPflow f.record then some (s1.wrongSource f 0x0300 srcDev srcFlow)
      else if f.st == .suspended then some (s1.sendNack f seq [] false)
      else
        let s2 := s1.modFlow n fun f => { f with coded := f.coded + 8 }
        if f.dead then some (s2.deadGone f seq)
        else if f.completes check && s1.flowParked f (· == frRxobj f.record) then none
        else (s1.landFault f (if f.completes check then frRxobj f.record else 0) msg).or (s2.judge f check seq)

/-- TRAILER_ARRIVAL. -/
def execTrailerArrival (s : State) : Host.Outcome State Fault Refusal :=
  eventStep s "TRAILER_ARRIVAL" fun e => match e with
    | .trailerArrival f sd sf c q => s.trailerArrival f sd sf c q
    | _ => none

/-- RESEED_ARRIVAL (R262): VALID and GEN become 0 in every slot, and the receive end acknowledges. -/
def State.reseedArrival (s : State) (n srcDev srcFlow : Nat) : Option State :=
  let is := fun (x : NetMsg) => match x with
    | .reseed d _ fl sd sf => d == s.devId && fl == n && sd == srcDev && sf == srcFlow
    | _ => false
  match s.takeMsg (srcDev == s.devId || s.net.any is) is with
  | none => none
  | some s1 =>
    match s1.flow? n with
    | none => some (s1.answerGone n srcDev srcFlow 0)
    | some f =>
      if !f.isRecv then some (s1.answerGone n srcDev srcFlow 0)
      else if srcDev ≠ frPdev f.record || srcFlow ≠ frPflow f.record then some (s1.wrongSource f 0x0300 srcDev srcFlow)
      else if f.st == .suspended then some (s1.sendNack f (f.lastSeq + 1) [] false)
      else if f.dead then some (s1.deadGone f 0)
      else
        some ((s1.modFlow n fun f => { f with slots := [], spoiled := false, st := .reseeding }).post
          (.ack (frPdev f.record) (frPdie f.record) (frPflow f.record) s1.devId f.num 0 true))

/-- RESEED_ARRIVAL. -/
def execReseedArrival (s : State) : Host.Outcome State Fault Refusal :=
  eventStep s "RESEED_ARRIVAL" fun e => match e with | .reseedArrival f sd sf => s.reseedArrival f sd sf | _ => none

end Sys2Proof.Machine
end

