-- ==== Sys2Proof/Machine/Coll.lean ====
section
/-! DEFINITION. Rings (R267 to R271), the collective (R272 to R275) and expert routing (R276 to R280): opcodes 0xC8 to
0xCC, with TCOPY_CREDIT_GRANT, RING_LINE_REPORT, DESCRIPTOR_RECEIVE, CONTRIB_ENTRY_HEAD, COLLECTIVE_COMPLETE,
CAPACITY_CLAIM and CLAIM_REPLY. -/

namespace Sys2Proof.Machine

open Sys2Proof

/-! ### cring (R267, R270) -/

/-- The ILLOP case of a ring record (R270): DEPTHM1 0, RANK above NRM1, a reserved SCOPE, a set bit that must be zero. -/
def ringRecordBad (r : List Byte) : Bool :=
  let d := (dword r 0).toNat
  bits d 15 9 ≠ 0 || bits d 31 28 ≠ 0 || bits d 47 44 ≠ 0 || bits d 63 51 ≠ 0 || (slice r 32 32).any (· != 0) ||
  bits d 7 0 = 0 || bits d 43 32 < bits d 27 16 || 5 ≤ bits d 50 48

/-- A page of BUF is MAPPED and no SYNC page (R270). -/
def plainPage (s : State) (c : Ctx) (va : W64) : Bool :=
  match s.lookup c.bez c.core va.toNat with
  | .leaf l => leafKind l.raw == 2 && !leafSync l.raw
  | _ => false

/-- `cring cfg` (R270): checked at issue, held with the version. -/
def execCringCfg (a : BitVec 8) (n : BitVec 3) (s : State) : Host.Outcome State Fault Refusal :=
  issue (.cringCfg a n) s fun c s => classB c s [c.s a] fun s =>
    if (c.s a).toNat % 64 ≠ 0 then .error (.trap ALIGN (c.s a))
    else do
      gateB c s
      let (s1, r) ← readRecord c s (c.s a) 64
      let buf := dword r 8
      let peers := dword r 16
      let ctrl := dword r 24
      if buf.toNat % 1024 ≠ 0 then throw (.trap ALIGN buf)
      if ctrl.toNat % 32 ≠ 0 then throw (.trap ALIGN ctrl)
      if peers.toNat % 16 ≠ 0 then throw (.trap ALIGN peers)
      if ringRecordBad r then throw (.trap ILLOP)
      let pages := areaPages buf (1024 * (bits (dword r 0).toNat 7 0 + 1))
      match pages.find? isWindow with
      | some x => throw (.trap PROT x)
      | none => pure ()
      let (s2, _, _) ← checkLanes c s1 .store (List.range pages.length) (fun i => pages[i]?.getD 0) 1
      match pages.find? fun x => !plainPage s2 c x with
      | some x => throw (.trap PROT x)
      | none => pure ()
      let (s3, o) ← counterAt c s2 .sync ctrl
      if (c.team.ring? n.toNat).isSome then throw (.trap PROT o.va)
      let pa := fun (va : W64) => s3.paOf c.bez c.core c.key va.toNat
      let pas := (List.range (4 * (bits (dword r 0).toNat 7 0 + 1))).map fun i => pa (buf + BitVec.ofNat 64 (256 * i))
      defer c s3 (.cring 0 n.toNat (c.s a) r o pas)

/-- `cring rel` and `cring close` (R270). -/
def ringOp (i : Instr) (kind : Nat) (a : BitVec 8) (n : BitVec 3) (s : State) : Host.Outcome State Fault Refusal :=
  issue i s fun c s => classB c s [c.s a] fun s =>
    if (c.team.ring? n.toNat).isNone then .error (.trap PROT)
    else defer c s (.cring kind n.toNat (c.s a) [] (.stash 0 0 0) [])

/-- `cring rel` (R270). -/
def execCringRel (a : BitVec 8) (n : BitVec 3) (s : State) : Host.Outcome State Fault Refusal :=
  ringOp (.cringRel a n) 1 a n s

/-- `cring close` (R270). -/
def execCringClose (a : BitVec 8) (n : BitVec 3) (s : State) : Host.Outcome State Fault Refusal :=
  ringOp (.cringClose a n) 2 a n s

/-! ### tcopy (R271) -/

/-- `tcopy` (R271): a release with FLUSH, then a command of the engine, whose reads see every store that the group has observed
(R234). -/
def execTcopy (d a b : BitVec 8) (s : State) : Host.Outcome State Fault Refusal :=
  issue (.tcopy d a b) s fun c s =>
    let x := (c.s a).toNat
    let u := (c.s b).toNat
    if c.em = 0 then classB c s [c.s d, c.s a, c.s b] fun s => instantB c s .ok
    else if 2 ^ 15 ≤ x || 2 ^ 32 ≤ u || u = 0 then .error (.trap ILLOPERAND)
    else if (c.s d).toNat % 256 ≠ 0 then .error (.trap ALIGN (c.s d))
    else match c.team.ring? (x / 2 ^ 12) with
      | none => .error (.trap PROT)
      | some ring =>
        if ring.mode then .error (.trap PROT)
        else if ring.ranks ≤ x % 2 ^ 12 then .error (.trap RANK)
        else do
          if !c.g.sh then gateB c s
          let s1 ← boundary c s false
          classB c s1 [c.s d, c.s a, c.s b] fun s =>
            let s := s.publish c.g c.core 3
            if s.hasPosted c.g ring.scope then .error (.wait (.posted ring.scope) s)
            else issueB c s (.engine s.nextCmd) fun op s =>
              let cmd : Cmd :=
               { id := s.nextCmd, by_ := c.issuer (some op) none,
                 what := .tcopy (c.s d) (x / 2 ^ 12) (x % 2 ^ 12) u }
              .ok { s with cmds := s.cmds ++ [cmd], nextCmd := s.nextCmd + 1 }

/-- The tag of a line (R269). -/
def lineTag (u : Nat) : BitVec 16 := BitVec.ofNat 16 ((u - 1) % 65535 + 1)

/-- A `tcopy` leaves its engine; a ring that waits for it closes (R270). -/
def State.endLine (s : State) (c : Cmd) (ring : Nat) : State := (s.endCmd c).closeRing c.by_.g.team ring

/-- The ring whose object stands at a fabric address. -/
def Ring.isAt (r : Ring) (pa : Nat) : Bool := match r.ctrl with | .glob p _ _ => p == pa | .stash _ _ _ => false

/-- A ring object that takes lines: KIND 3, and open where its ring is on this device (R271). -/
def State.ringOpen (s : State) (pa : Nat) : Bool :=
  memByte s.mem (pa + 31) == 3 &&
  (pa / 2 ^ 43 != s.devId || s.teams.any fun t => t.rings.any fun r => r.isAt pa)

/-- `n` bytes that an engine reads at a virtual address of its launch: poison ends the team (R361). -/
def State.engineRead (s : State) (t : Team) (k : Kernel) (b : Bezel) (since : Nat) (va : W64) (n : Nat) :
    Except EngineStop (List Byte × Bool) := do
  let p ← s.enginePlace t k b .engine va
  .ok (s.engineBytes since p n, s.placePoisoned p)

/-- The global home of a place that an engine writes with its tag: a mapped block is recalled first (R166). -/
def State.homePlace (s : State) (p : Place) : State × Nat × Nat :=
  match p with
  | .glob pa _ ow _ =>
    (match s.mappedBlock (pa / 256) with
     | some (sid, m) => s.recall sid m.off false
     | none => s, pa, ow)
  | .stash t off _ =>
    match (s.team? t).bind fun tm => tm.mapped.find? fun m => m.off == off / 256 * 256 with
    | some m => (s.recall t m.off false, 256 * m.sector + off % 256, m.owner)
    | none => (s, 0, 0)

/-- The four sectors of a line resolved: source, destination, and the reason that stops the first sector that cannot be
written. -/
def State.lineSectors (s : State) (t : Team) (k : Kernel) (b : Bezel) (src dst : W64) :
    Nat → Nat → List (Place × Place) × Option EngineStop
  | 0, _ => ([], none)
  | n + 1, i =>
    let at_ := fun (x : W64) => x + BitVec.ofNat 64 (256 * i)
    match (do
      let p ← s.enginePlace t k b .engine (at_ src)
      let q ← if isWindow (at_ dst) then .error (.prot PROT (at_ dst)) else s.enginePlace t k b .store (at_ dst)
      .ok (p, q)) with
    | .error e => ([], some e)
    | .ok pq =>
      let (l, e) := s.lineSectors t k b src dst n (i + 1)
      (pq :: l, e)

/-- One sector of a line with its tag, as one single-copy atomic write (R216, R271, R361). -/
def State.writeLineSector (s : State) (i : Issuer) (tag : BitVec 16) (pq : Place × Place) : State :=
  let data := s.engineBytes i.since pq.1 256
  let bad := s.placePoisoned pq.1
  let (s1, pa, ow) := (s.checkPlaces i.handle [pq.1]).homePlace pq.2
  let sync := match pq.2 with | .glob _ sync _ _ => sync | .stash _ _ _ => false
  s1.sectorWrite (pa / 256) (if bad then (List.range 256).map fun j => s1.freeAt (pa / 256 * 256 + j) else data) ow tag bad (some sync)

/-- The sectors of a line that a `tcopy` has yet to write, written with their tag (R235). -/
def State.writeLine (s : State) (cmd : Cmd) (u : Nat) (l : List (Place × Place)) : State :=
  (l.zipIdx.filter fun (p : (Place × Place) × Nat) => !cmd.written.contains p.2).foldl
    (fun (s : State) p => s.writeLineSector cmd.by_ (lineTag u) p.1) s

/-- TCOPY_CREDIT_GRANT (R271): the engine reads the peer's entry and object, and with credit writes the line's four
sectors; or, of these, sector `only` alone, the line going on (R235). -/
def State.creditGrant (s : State) (id : Nat) (only : Option Nat) : Option State :=
  match s.cmd? id with
  | none => none
  | some cmd =>
    match cmd.what, s.owner? cmd.by_ with
    | .tcopy src n rank u, some (t, k, b) =>
      if cmd.parked || cmd.stopped then none
      else match t.ring? n with
        | none => none
        | some ring =>
          let stop := fun (s : State) (e : EngineStop) => match e with
            | .prot code va => some (((s.deferTrap cmd.by_ code va).endLine cmd n))
            | .park va ca l w => some (s.parkCmd cmd va ca l w (placeWord t cmd.by_.g.grp))
            | .migr => some (s.migrCmd cmd)
            | .later => none
          let entry := ring.peers + BitVec.ofNat 64 (16 * rank)
          match (do
            let (e, bad) ← s.engineRead t k b cmd.by_.since entry 16
            let o ← s.enginePlace t k b .sync (dword e 8)
            .ok (dword e 0, o, bad)) with
          | .error e => stop s e
          | .ok (buf, o, bad) =>
            if bad then some ((s.checkSources t k b cmd.by_.handle [entry]).terminate cmd.by_.g 19 12 entry)
            else match o with
              | .stash _ _ va => stop s (.prot PROT va)
              | .glob pa _ _ _ =>
                let dep := (memByte s.mem (pa + 12)).toNat + 1
                let rel : W32 := BitVec.ofNat 32 (leNat (memBytes s.mem (pa + 4) 4))
                if !s.ringOpen pa || (rel - (BitVec.ofNat 32 u - BitVec.ofNat 32 dep)).getLsbD 31 then none
                else
                  let dst := buf + BitVec.ofNat 64 (1024 * ((u - 1) % dep))
                  match s.lineSectors t k b src dst 4 0 with
                  | (_, some .later) => none
                  | (_, some (.park va ca l w)) => stop s (.park va ca l w)
                  | (_, some .migr) => stop s .migr
                  | (l, e) =>
                    match only with
                    | some i => (match l[i]? with
                      | some pq => if cmd.written.contains i then none
                        else some ((s.writeLineSector cmd.by_ (lineTag u) pq).modCmd id fun c => { c with written := i :: c.written })
                      | none => none)
                    | none => (match e with
                      | some (.prot code va) => stop (s.writeLine cmd u l) (.prot code va)
                      | _ => some ((s.writeLine cmd u l).endLine cmd n))
    | _, _ => none

/-- TCOPY_CREDIT_GRANT. -/
def execTcopyCreditGrant (s : State) : Host.Outcome State Fault Refusal :=
  eventStep s "TCOPY_CREDIT_GRANT" fun e => match e with | .tcopyCreditGrant c => s.creditGrant c none | _ => none

/-! ### Lines counted (R269) -/

/-- The four sectors of line `u` of a ring all carry its tag (R269). -/
def State.lineHere (s : State) (r : Ring) (u : Nat) : Bool :=
  (List.range 4).all fun i =>
    (s.sidecar ((r.bufPa[4 * ((u - 1) % r.depth) + i]?.getD 0) / 256)).rseq == lineTag u

/-- PHASE over the lines that have arrived in order (R269), each a release at the ring's scope by the ring's team on `core`; at
most DEPTH lines can stand in BUF. -/
def State.countLines (core : Nat) (r : Ring) : Nat → State → State
  | 0, s => s
  | n + 1, s =>
    let ph := s.objPhase r.ctrl
    if s.lineHere r (ph.toNat + 1) then
      State.countLines core r n ((s.objWrite r.ctrl 0 (leBytes (ph + 1).toNat 4)).noteRelease r.ctrl 0 core r.scope)
    else s

/-- RING_LINE_REPORT (R269): reported whether or not the ring's team is resident; the object of a MIGRATING page takes no report
(R316). -/
def State.lineReport (s : State) (sid n : Nat) : Option State :=
  match (s.team? sid).bind fun t => (t.ring? n).map fun r => (t.core, r) with
  | none => none
  | some (core, r) =>
    if !s.objMoving r.ctrl && s.lineHere r ((s.objPhase r.ctrl).toNat + 1) then some (State.countLines core r r.depth s) else none

/-- RING_LINE_REPORT. -/
def execRingLineReport (s : State) : Host.Outcome State Fault Refusal :=
  eventStep s "RING_LINE_REPORT" fun e => match e with | .ringLineReport t n => s.lineReport t n | _ => none

/-! ### coll (R272, R273) -/

/-- CROLE, FUNC, RING, INT and ROOT of a collective record (R272). -/
def crRole (r : List Byte) : Nat := bits (dword r 0).toNat 9 8
/-- FUNC. -/
def crFunc (r : List Byte) : Nat := bits (dword r 0).toNat 3 0
/-- RING. -/
def crRing (r : List Byte) : Nat := bits (dword r 0).toNat 6 4
/-- INT. -/
def crInt (r : List Byte) : Bool := (dword r 0).getLsbD 7
/-- ROOT. -/
def crRoot (r : List Byte) : Nat := bits (dword r 0).toNat 27 16
/-- OUT. -/
def crOut (r : List Byte) : W64 := dword r 16
/-- STAT. -/
def crStat (r : List Byte) : W64 := dword r 24

/-- A group's collective is one that another group of its team has begun as communication group (R273). -/
def Ctx.othersColl (c : Ctx) : Bool := c.team.rings.any fun r => r.coll.order == c.grp.colls + 1 && r.coll.commGrp != c.grp.num

/-- The roles of a launch that have one group (R273). -/
def soloRoles (record : List Byte) : List Nat := (List.range 4).filter fun r => roleGroups (recRole record r) == 1

/-- The group is the communication group of the collective (R273; log entry 54): no other group has begun it, and it has no
tile, or its role is the one role with one group. Where several roles have one group, or none has, its record says so; where that
cannot be read, its D, 0x00 in a role of one group. -/
def isComm (s : State) (c : Ctx) (d : BitVec 8) (ad : W64) : Bool :=
  let solo := soloRoles c.kern.record
  let byD := d == 0 && solo.contains c.grp.role
  !c.othersColl && (c.grp.t.isEmpty ||
    (if solo.length = 1 then solo.contains c.grp.role
     else if !solo.isEmpty && !solo.contains c.grp.role then false
     else if ad.toNat % 64 ≠ 0 then byD
     else match s.place c.team c.kern c.bez .scalarLoad ad with
      | .ok p => crRole (s.loadBytes c.g c.grp c.core p 64) == c.grp.role
      | _ => byD))

/-- Fabric address of the ring object of a rank, as the peer table gives it to an engine of the team (R267). -/
def State.peerPa (s : State) (t : Team) (k : Kernel) (b : Bezel) (r : Ring) (q : Nat) : Option Nat :=
  if q = r.rank then (match r.ctrl with | .glob pa _ _ => some pa | .stash _ _ _ => none)
  else match (do
      let (l, _) ← s.engineRead t k b s.stepNo (r.peers + BitVec.ofNat 64 (16 * q)) 16
      s.enginePlace t k b .engine (dword l 8)) with
    | .ok (.glob pa _ _ _) => some pa
    | _ => none

/-- CTRL of the entry of rank `q` among the entries of a peer table that the sequencer reads at some places (R267). -/
def peerCtrl (c : Ctx) (s : State) (ps : List (Nat × Place)) (q : Nat) : W64 :=
  match ps.find? fun p => p.1 == q with
  | some p => dword (s.loadBytes c.g { c.grp with acquire := s.stepNo + 1 } c.core p.2 16) 8
  | none => 0

/-- The fabric address of a ring's own object. -/
def Ring.home (r : Ring) : Nat := match r.ctrl with | .glob pa _ _ => pa | .stash _ _ _ => 0

/-- The ring objects of every rank as the sequencer reads them at the issue of a `coll`, with the checks of an access for the
peer table and for the objects (R160, R163, R267). -/
def collPeers (c : Ctx) (s : State) (ring : Ring) : Except Stop (State × List Nat) := do
  let qs := (List.range ring.ranks).filter (· != ring.rank)
  let (s1, ps, _) ← checkLanes c s .scalarLoad qs (fun q => ring.peers + BitVec.ofNat 64 (16 * q)) 1
  let s2 := s1.fillPlaces (ps.map (·.2))
  if ps.any fun p => s2.placePoisoned p.2 then throw (.done ((s2.checkPlaces c.handle (ps.map (·.2))).terminate c.g 19 12 ring.peers))
  let (s3, cs, _) ← checkLanes c s2 .scalarLoad qs (peerCtrl c s2 ps) 1
  let pas ← (List.range ring.ranks).mapM fun q =>
    if q = ring.rank then .ok ring.home
    else match cs.find? fun p => p.1 == q with
      | some (_, .glob pa _ _ _) => .ok pa
      | _ => .error (.trap PROT (peerCtrl c s2 ps q))
  .ok (s3, pas)

/-- The communication group's `coll` (R273, R274): the ring's collective object takes the next sequence number and the
descriptor goes to every rank. -/
def collComm (c : Ctx) (s : State) (d a b : BitVec 8) : Res := do
  gateB c s
  if d ≠ 0 then throw (.trap ILLOPERAND)
  if (c.s a).toNat % 64 ≠ 0 then throw (.trap ALIGN (c.s a))
  let (s1, r) ← readRecord c s (c.s a) 64
  if roleGroups (recRole c.kern.record (crRole r)) ≠ 1 then throw (.trap ILLOP)
  if crRole r ≠ c.grp.role then throw (.trap ILLOPERAND)
  if (crStat r).toNat % 8 ≠ 0 then throw (.trap ALIGN (crStat r))
  if (crOut r).toNat % 4096 ≠ 0 then throw (.trap ALIGN (crOut r))
  let d0 := (dword r 0).toNat
  let n := crRing r
  let gs := recGroups c.kern.record - 1
  if bits d0 63 28 ≠ 0 || bits d0 15 10 ≠ 0 || dword r 8 ≠ 0 || (slice r 32 32).any (· != 0) || 5 ≤ crFunc r then throw (.trap ILLOP)
  match c.team.ring? n with
  | none => throw (.trap PROT)
  | some ring => do
    if ring.ranks ≤ crRoot r || ((crFunc r = 1 || crFunc r = 4) && gs % ring.ranks ≠ 0) then throw (.trap ILLOP)
    if !ring.mode then throw (.trap PROT)
    let size := ring.ranks * gs * 4096
    let areas := (if crFunc r = 2 && size ≠ 0 then areaPages (crOut r) size ++ [crOut r + BitVec.ofNat 64 (size - 1)] else [])
      ++ (if crStat r = 0 then [] else [crStat r])
    let (s2, _, _) ← checkLanes c s1 .store (List.range areas.length) (fun i => areas[i]?.getD 0) 1
    let (s2, pas) ← collPeers c s2 ring
    let (s3, o) ← objAt c s2 .store (c.s b) false
    if ring.coll.st != .idle then throw (.wait .none s3)
    let s4 ← boundary c s3 false
    issueB c (s4.publish c.g c.core 3) .event fun op s =>
      let seq := ring.coll.seq + 1
      let ds : CollDesc := { seq := seq, func := crFunc r, int := crInt r, root := crRoot r, groups := gs, ranks := ring.ranks }
      let s5 := s.modTeam c.team.sid fun t => t.modRing n fun x =>
        { x with coll := { x.coll with st := .matching, seq := seq, order := c.grp.colls + 1, commGrp := c.grp.num, own := ds,
                                       tiles := [], out := crOut r, stat := crStat r, done := some o, pas := pas } }
      let s6 := pas.foldl (fun s pa => if pa / 2 ^ 43 = s.devId then s.post (.desc pa ring.rank ds) else s) s5
      .ok (c.mod s6 fun g => { g with colls := g.colls + 1, collOp := op, life := .collective, inSet := false })

/-- A contributing group's `coll` (R273): one entry of its matrix queue. -/
def collPart (c : Ctx) (s : State) (d : BitVec 8) : Res := do
  if c.grp.t.length ≤ d.toNat then throw (.trap ILLOPERAND)
  gateB c s
  let s1 ← boundary c s false
  match s1.group? c.g with
  | none => .ok s1
  | some g =>
    if 8 ≤ g.mq.length then throw (.wait .queue s1)
    issueB c (s1.publish c.g c.core 3) .event fun op s =>
      .ok (c.mod (enqueue c s op (.coll d.toNat (g.colls + 1)) (-1) (some op) false) fun g => { g with colls := g.colls + 1 })

/-- `coll` (R273): acts whatever EM holds; a shadow group only signs it. -/
def execColl (d a b : BitVec 8) (s : State) : Host.Outcome State Fault Refusal :=
  issue (.coll d a b) s fun c s => do
    let s1 ← if c.g.sh then boundary c s false
      else if isComm s c d (c.s a) then collComm c s d a b
      else collPart c s d
    .ok (sign c s1 [c.s a, c.s b])

/-! ### The collective object (R274) -/

/-- A ring of a running team, with its team. -/
def State.ringOf? (s : State) (sid n : Nat) : Option (Team × Ring) :=
  match s.team? sid with
  | some t => if t.ctx == .running && !t.ended then (t.ring? n).map fun r => (t, r) else none
  | none => none

/-- The sequencer of a ring's collective, as the agent of its accesses (R274). -/
def collIssuer (t : Team) (k : Kernel) (r : Ring) : Issuer :=
  { g := { team := t.sid, grp := r.coll.commGrp }, pc := {}, op := none, bezel := t.bezel, kslot := t.kslot,
    handle := handleOf t.bezel t.kslot t.kseq, key := recKey k.record % 4096, core := t.core }

/-- The sequencer waits at an access on a page that is not present or bad: it joins the entry of its granule (R163, R164). -/
def State.collPark (s : State) (t : Team) (n : Nat) (r : Ring) (va : W64) (cause level : Nat) : State :=
  s.fault t.bezel
    { va := va, cause := cause, level := level, write := true, engine := true, handle := handleOf t.bezel t.kslot t.kseq,
      place := placeWord t r.coll.commGrp, joiner := .coll t.sid n }

/-- The sequencer of a ring has joined a pending-fault entry. -/
def Bezel.collJoined (b : Bezel) (sid n : Nat) : Bool := b.faults.any fun e => e.joined.contains (.coll sid n)

/-- What stops the sequencer at an access that it makes while it stands: a fault, or a MIGRATING page until the next `tlbinv`
(R163). -/
def State.collStop (s : State) (t : Team) (n : Nat) (r : Ring) : EngineStop → Option State
  | .park va ca l _ => some (s.collPark t n r va ca l)
  | .migr => some (s.modTeam t.sid fun t => t.modRing n fun x => { x with coll := { x.coll with migr := true } })
  | _ => none

/-- The places of the sectors that the sequencer writes for a ring: those of OUT, then the status word. -/
def State.collPlaces (s : State) (t : Team) (k : Kernel) (b : Bezel) (r : Ring) (out : Nat) :
    Except EngineStop (List Place × Option Place) := do
  let l ← (List.range (out / 256)).mapM fun i => s.enginePlace t k b .store (r.coll.out + BitVec.ofNat 64 (256 * i))
  let st ← if r.coll.stat = 0 then .ok none else (s.enginePlace t k b .store r.coll.stat).map some
  .ok (l, st)

/-- The entries of a collective leave the queues of its groups, and the flag of every group's `coll` clears (R273, R274). -/
def Group.collEnd (order comm now : Nat) (g : Group) : Group :=
  let mine := fun (m : MOp) => match m.what with | .coll _ k => k == order | _ => false
  let ids := (g.mq.filter mine).filterMap (·.op)
  let g1 := { g with mq := g.mq.filter fun m => !mine m, ops := g.ops.filter fun o => !ids.contains o.id }
  if g.num = comm then
    { g1 with life := if g.life == .collective then .pending else g.life, readySince := now,
              ops := g1.ops.filter fun o => !(o.what == .event && !o.classA && o.id == g.collOp) }
  else g1

/-- A collective ends at a rank (R274): the status word, the arrival on the completion object with a count of EXPECTED, the
entries and flags of every group, and the communication group PENDING again. -/
def State.collFinish (s : State) (t : Team) (k : Kernel) (n code : Nat) (r : Ring) (stat : Option Place) : State :=
  let s1 := match stat with
    | some p => s.engineSector (collIssuer t k r) [(p, leBytes (code + r.coll.own.seq * 2 ^ 32) 8)] false
    | none => s
  let s2 := match r.coll.done with
    | some o => s1.arrive o (s1.objW o 8) 0 (handleOf t.bezel t.kslot t.kseq) t.core
    | none => s1
  s2.modTeam t.sid fun t =>
    { t with groups := t.groups.map (Group.collEnd r.coll.order r.coll.commGrp s.stepNo),
             collSkip := if code = 0 then t.collSkip else r.coll.order :: t.collSkip,
             rings := t.rings.map fun x => if x.n == n then
               { x with coll := { x.coll with st := .idle, tiles := [], done := none, out := 0, stat := 0, written := [] } } else x }

/-- The first descriptor received from each rank, in rank order, once every rank has sent one (R274). -/
def Coll.descSet (c : Coll) (ranks : Nat) : Option (List CollDesc) :=
  (List.range ranks).mapM fun q => (c.descs.find? fun p => p.1 == q).map (·.2)

/-- The descriptors without the first of each rank. -/
def dropFirsts (l : List (Nat × CollDesc)) : List (Nat × CollDesc) :=
  (l.foldl (fun (acc : List (Nat × CollDesc) × List Nat) p =>
    if acc.2.contains p.1 then (acc.1 ++ [p], acc.2) else (acc.1, p.1 :: acc.2)) ([], [])).1

/-- MATCHING with NR descriptors received: RUNNING when all are equal, else MISMATCH (R274); or what stops the write of the
status word. -/
def State.collMatch (s : State) (t : Team) (n : Nat) : Except EngineStop State :=
  match (s.team? t.sid).bind fun t => t.ring? n, s.kernel? t.bezel t.kslot, s.bezel? t.bezel with
  | some r, some k, some b =>
    if r.coll.st != .matching then .ok s
    else match r.coll.descSet r.ranks with
      | none => .ok s
      | some ds =>
        let s1 := s.modTeam t.sid fun t => t.modRing n fun x => { x with coll := { x.coll with descs := dropFirsts x.coll.descs } }
        if ds.all fun d => d == r.coll.own then
          .ok (s1.modTeam t.sid fun t => t.modRing n fun x => { x with coll := { x.coll with st := .running } })
        else if s.objHeld r.coll.done then .error .later
        else do
          let (_, st) ← s1.collPlaces t k b r 0
          .ok (s1.collFinish t k n 1 r st)
  | _, _, _ => .error .later

/-- DESCRIPTOR_RECEIVE (R274). A descriptor of a rank on this device must be on the links. Where the status word that it leads to
cannot be written, the sequencer waits on the fault and the descriptor on the links. -/
def State.descReceive (s : State) (sid n rank : Nat) (d : CollDesc) : Option State :=
  match s.ringOf? sid n with
  | none => none
  | some (t, r) =>
    match s.kernel? t.bezel t.kslot, s.bezel? t.bezel with
    | some k, some b =>
      if !r.mode || r.ranks ≤ rank || b.collJoined sid n || r.coll.migr then none
      else match s.peerPa t k b r r.rank, (match r.coll.pas[rank]? with | some p => some p | none => s.peerPa t k b r rank) with
      | some own, some from_ =>
        (match s.takeMsg (from_ / 2 ^ 43 == s.devId) (· == .desc own rank d) with
        | none => none
        | some s1 =>
          match (s1.modTeam sid fun t => t.modRing n fun x => { x with coll := { x.coll with descs := x.coll.descs ++ [(rank, d)] } }).collMatch t n with
          | .ok s2 => some s2
          | .error e => s.collStop t n r e)
      | _, _ => none
    | _, _ => none

/-- DESCRIPTOR_RECEIVE. -/
def execDescriptorReceive (s : State) : Host.Outcome State Fault Refusal :=
  eventStep s "DESCRIPTOR_RECEIVE" fun e => match e with | .descriptorReceive t n q d => s.descReceive t n q d | _ => none

/-- CONTRIB_ENTRY_HEAD (R273, R274): the entry at the head of a group's queue reads its tile, where a failed row ends the team (R361);
an entry of a collective
that ended with MISMATCH leaves with the tile unchanged. -/
def State.contribHead (s : State) (g : GRef) : Option State :=
  match s.team? g.team, s.group? g with
  | some t, some gr =>
    match gr.mq with
    | [] => none
    | m :: _ =>
      match m.what with
      | .coll ti order =>
        if m.read || t.ctx != .running || t.ended then none
        else if t.collSkip.contains order then
          some (s.modGroup g fun x => match m.op with | some op => x.popMatrix.dropOp op | none => x.popMatrix)
        else match t.rings.find? fun r => r.coll.st == .running && r.coll.order == order with
          | none => none
          | some r =>
            let tile := (gr.t[ti]?.getD {}).committed
            if (gr.t[ti]?.getD {}).bad != 0 then some (s.terminate g 19 12 0)
            else some ((s.modTeam t.sid fun t => t.modRing r.n fun x =>
              { x with coll := { x.coll with tiles := x.coll.tiles ++ [(g.grp, tile)] } }).modGroup g fun x =>
                { x with mq := modAt x.mq 0 fun h => { h with read := true } })
      | _ => none
  | _, _ => none

/-- CONTRIB_ENTRY_HEAD. -/
def execContribEntryHead (s : State) : Host.Outcome State Fault Refusal :=
  eventStep s "CONTRIB_ENTRY_HEAD" fun e => match e with | .contribEntryHead g => s.contribHead g | _ => none

/-! ### Reduction and results (R45, R273) -/

/-- One level of the canonical tree: pairs are added, a leftover last value is carried (R45). -/
def treeLevel {α : Type} (f : α → α → α) : List α → List α
  | x :: y :: l => f x y :: treeLevel f l
  | l => l

/-- The canonical tree over values in rank order; twelve levels reduce 4,096 ranks (R45). -/
def treeSum {α : Type} (f : α → α → α) (z : α) : Nat → List α → α
  | _, [] => z
  | _, [x] => x
  | 0, x :: _ => x
  | n + 1, l => treeSum f z n (treeLevel f l)

/-- The collective's add: F32 in RNE with subnormals kept, or I32 that wraps (R273). -/
def collAdd (int : Bool) (x y : W32) : W32 :=
  if int then x + y
  else BitVec.ofNat 32 (f32.round 0 false false (Flo.add false (f32.dec false x.toNat) (f32.dec false y.toNat)))

/-- The canonical tree over one element of every rank; a NaN anywhere gives 0x7FC0_0000 (R45). -/
def reduceElem (int : Bool) (l : List W32) : W32 :=
  if !int && l.any fun x => f32.isNan x.toNat then 0x7FC00000
  else treeSum (collAdd int) 0 13 l

/-- The canonical tree over one tile of every rank (R45). -/
def reduceTiles (int : Bool) (l : List TileBuf) : TileBuf :=
  TileBuf.of fun i => Lanes.of fun j => reduceElem int (l.map fun t => (t.row i).lane j)

/-- The 4,096 bytes of a tile, row-major (R273). -/
def TileBuf.bytes (b : TileBuf) : List Byte :=
  (List.range 32).flatMap fun i => (List.range 32).flatMap fun j => leBytes ((b.row i).lane j).toNat 4

/-- The tile that contributing group `g` of rank `r` receives, or none where its tile keeps its value (R273). `tiles q h`:
the tile of group `h` of rank `q`. -/
def collResult (d : CollDesc) (r g : Nat) (tiles : Nat → Nat → TileBuf) : Option TileBuf :=
  let sum := fun h => reduceTiles d.int ((List.range d.ranks).map fun q => tiles q h)
  let m := d.groups / d.ranks
  match d.func with
  | 0 => some (sum g)
  | 1 => if r * m ≤ g && g < r * m + m then some (sum g) else none
  | 3 => some (tiles d.root g)
  | 4 => if m = 0 then none else some (tiles (g / m) (r * m + g % m))
  | _ => none

/-- A result written into the buffer that CUR names (R273). -/
def Tile.putCur (t : Tile) (b : TileBuf) : Tile := if t.cur then { t with p1 := b } else { t with p0 := b }

/-- The contributing groups of a collective: every group but the communication group, ascending. -/
def contributors (t : Team) (c : Coll) : List Nat := (List.range t.groups.length).filter (· != c.commGrp)

/-- This rank's tiles, once every contributing group has contributed or exited; a group that exited before counts as
zero (R273). -/
def ownTiles (t : Team) (c : Coll) : Option (List TileBuf) :=
  (contributors t c).mapM fun g =>
    match c.tiles.find? fun p => p.1 == g with
    | some p => some p.2
    | none => if (t.groups[g]?).any fun x => x.life == .exited then some TileBuf.zero else none

/-- The tile number of a group's entry of a collective. -/
def Group.collTile (g : Group) (order : Nat) : Option Nat :=
  g.mq.findSome? fun m => match m.what with | .coll t k => if k == order then some t else none | _ => none

/-- A tile given by its rows. -/
def tileOfRows (l : List Lanes) : TileBuf := TileBuf.of fun i => l[i]?.getD (Lanes.splat 0)

/-- The tiles of rank `q`, whose ring object stands at `pa`: those that the inbox holds, those of a ring of this device, or given
from outside. -/
def peerTiles (s : State) (r : Ring) (given : List (Nat × List (List Lanes))) (q pa : Nat) : Option (List TileBuf) :=
  let d := r.coll.own
  match r.coll.inbox.find? fun p => p.1 == q && p.2.1 == d.seq with
  | some p => some p.2.2
  | none =>
    if pa / 2 ^ 43 = s.devId then s.teams.findSome? fun t => t.rings.findSome? fun x =>
      if x.isAt pa && x.coll.st == .running && x.coll.own == d then ownTiles t x.coll else none
    else match given.find? fun p => p.1 == q with
      | some p => if p.2.length = d.groups then some (p.2.map tileOfRows) else none
      | none => none

/-- A ring's inbox after rank `rank` has completed: rings of other ranks that still run the collective keep its tiles,
and its own inbox forgets the collective. `pas`: the ring objects of the other ranks. -/
def Ring.afterComplete (rank seq : Nat) (mine : List TileBuf) (pas : List Nat) (own : Bool) (y : Ring) : Ring :=
  if own then { y with coll := { y.coll with inbox := y.coll.inbox.filter fun p => p.2.1 != seq } }
  else if (pas.any fun pa => y.isAt pa) && y.coll.seq == seq && y.coll.st != .idle then
    { y with coll := { y.coll with inbox := y.coll.inbox ++ [(rank, seq, mine)] } }
  else y

/-- A tile result put where the group's entry of the collective names it. -/
def Group.putResult (g : Group) (order : Nat) (res : TileBuf) : Group :=
  match g.collTile order with
  | some ti => { g with t := modAt g.t ti fun x => x.putCur res }
  | none => g

/-- What the sequencer of a running collective has to write at its rank (R273): the team, the ring, its kernel and bezel, the
tiles of every rank, and the places of OUT and STAT or what stops it at one. -/
def State.collReady (s : State) (sid n : Nat) (given : List (Nat × List (List Lanes))) :
    Option (Team × Ring × Kernel × Bezel × List (List TileBuf) × Except EngineStop (List Place × Option Place)) :=
  match s.ringOf? sid n with
  | none => none
  | some (t, r) =>
    match s.kernel? t.bezel t.kslot, s.bezel? t.bezel, ownTiles t r.coll with
    | some k, some b, some mine =>
      let d := r.coll.own
      if r.coll.st != .running || s.objHeld r.coll.done || b.collJoined sid n || r.coll.migr then none
      else (r.coll.pas.zipIdx.mapM fun (p : Nat × Nat) => if p.2 = r.rank then some mine else peerTiles s r given p.2 p.1).map fun all =>
        (t, r, k, b, all, s.collPlaces t k b r (if d.func = 2 then d.ranks * d.groups * 4096 else 0))
    | _, _, _ => none

/-- Sectors of OUT written, each in one instant (R235): tile `g` of rank `q` at 4,096 × (q·G + g). -/
def State.collOut (s : State) (t : Team) (k : Kernel) (r : Ring) (all : List (List TileBuf)) (outs : List (Place × Nat)) : State :=
  let gs := r.coll.own.groups
  let tile := fun q h => (all[q]?.getD [])[h]?.getD TileBuf.zero
  outs.foldl (fun s (p : Place × Nat) =>
    let i := p.2 / 16
    s.engineSector (collIssuer t k r) [(p.1, slice (tile (i / gs) (i % gs)).bytes (256 * (p.2 % 16)) 256)] false) s

/-- The sequencer writes one sector of OUT of a collective that goes on (R235); the tiles of the other ranks are fixed with it. -/
def State.collSector (s : State) (sid n i : Nat) (given : List (Nat × List (List Lanes))) : Option State :=
  match s.collReady sid n given with
  | some (t, r, k, _, all, .ok (outs, _)) =>
    match outs[i]? with
    | none => none
    | some p =>
      if r.coll.written.contains i then none
      else
        let keep := all.zipIdx.map fun (x : List TileBuf × Nat) => (x.2, r.coll.own.seq, x.1)
        some ((s.collOut t k r all [(p, i)]).modTeam sid fun t => t.modRing n fun x =>
          { x with coll := { x.coll with written := i :: x.coll.written,
                                         inbox := (x.coll.inbox.filter fun (y : Nat × Nat × List TileBuf) => y.2.1 != r.coll.own.seq) ++ keep } })
  | _ => none

/-- COLLECTIVE_COMPLETE (R273 to R275): every result that is left is written at this rank, and the collective ends with status 0; or
the sequencer waits on the fault of an access. -/
def State.collComplete (s : State) (sid n : Nat) (given : List (Nat × List (List Lanes))) : Option State :=
  match s.collReady sid n given with
  | none => none
  | some (t, r, _, _, _, .error e) => s.collStop t n r e
  | some (t, r, k, _, all, .ok (outs, stat)) =>
    let d := r.coll.own
    let tile := fun q h => (all[q]?.getD [])[h]?.getD TileBuf.zero
    let s1 := (contributors t r.coll).zipIdx.foldl (fun s (p : Nat × Nat) =>
      match collResult d r.rank p.2 tile with
      | none => s
      | some res => s.modGroup { team := sid, grp := p.1 } fun g => g.putResult r.coll.order res) s
    let s2 := s1.collOut t k r all (outs.zipIdx.filter fun (p : Place × Nat) => !r.coll.written.contains p.2)
    let s3 := { s2 with teams := s2.teams.map fun (x : Team) =>
      { x with rings := x.rings.map fun (y : Ring) =>
          y.afterComplete r.rank d.seq (all[r.rank]?.getD []) (r.coll.pas.eraseIdx r.rank) (x.sid == sid && y.n == n) } }
    some (s3.collFinish t k n 0 r stat)

/-- COLLECTIVE_COMPLETE. -/
def execCollectiveComplete (s : State) : Host.Outcome State Fault Refusal :=
  eventStep s "COLLECTIVE_COMPLETE" fun e => match e with | .collectiveComplete t n p => s.collComplete t n p | _ => none

/-! ### Expert routing (R276 to R280) -/

/-- `n` 64-byte pieces that an instruction reads at issue from an aligned address on (R155, R160, R163); poison ends the team
(R361). -/
def readPieces (c : Ctx) (s : State) (ad : W64) (n : Nat) : Except Stop (State × List Byte) := do
  let (s1, ps, _) ← checkLanes c s .scalarLoad (List.range n) (fun i => ad + BitVec.ofNat 64 (64 * i)) 1
  let s2 := (ps.map (·.2)).foldl (fun s p => s.takeLease c.g c.core c.grp.acquire p) (s1.fillPlaces (ps.map (·.2)))
  if ps.any fun p => s2.placePoisoned p.2 then .error (.done ((s2.checkPlaces c.handle (ps.map (·.2))).terminate c.g 19 12 ad))
  else .ok (s2, ps.flatMap fun p => s2.loadBytes c.g ((s2.group? c.g).getD c.grp) c.core p.2 64)

/-- `xtable` (R277): the image is read at issue with its header (log entry 55), and held with the version. -/
def execXtable (a : BitVec 8) (s : State) : Host.Outcome State Fault Refusal :=
  issue (.xtable a) s fun c s => classB c s [c.s a] fun s =>
    if (c.s a).toNat % 64 ≠ 0 then .error (.trap ALIGN (c.s a))
    else do
      gateB c s
      let (s1, r) ← readRecord c s (c.s a) 64
      let h := dword r 0
      if bits h.toNat 15 12 ≠ 0 || bits h.toNat 63 28 ≠ 0 || (slice r 8 56).any (· != 0) ||
          4096 < bits h.toNat 11 0 + bits h.toNat 27 16 + 1 then throw (.trap ILLOP)
      let (s2, image) ← readPieces c s1 (c.s a + 64) (bits h.toNat 27 16 + 1)
      defer c s2 (.xtable image h)

/-- SRC, EXPERTS, TOKENS and SPILL of a route record, N and R (R278). -/
def rrSrc (r : List Byte) : W64 := dword r 0
/-- EXPERTS. -/
def rrExperts (r : List Byte) : W64 := dword r 8
/-- TOKENS. -/
def rrTokens (r : List Byte) : W64 := dword r 16
/-- SPILL. -/
def rrSpill (r : List Byte) : W64 := dword r 24
/-- N. -/
def rrCount (r : List Byte) : Nat := bits (dword r 32).toNat 11 0 + 1
/-- R. -/
def rrRow (r : List Byte) : Nat := 256 * (bits (dword r 32).toNat 19 16 + 1)
/-- A must-be-zero bit of a route record is set (R278). -/
def routeRecordBad (r : List Byte) : Bool :=
  bits (dword r 32).toNat 15 12 ≠ 0 || bits (dword r 32).toNat 63 20 ≠ 0 || (slice r 40 24).any (· != 0)

/-- `xroute` (R279). -/
def execXroute (d a b : BitVec 8) (s : State) : Host.Outcome State Fault Refusal :=
  issue (.xroute d a b) s fun c s =>
    let ops := [c.s d, c.s a, c.s b]
    if c.em = 0 then classB c s ops fun s => instantB c s .ok
    else if c.g.sh then do
      let s1 ← boundary c s false
      .ok (sign c s1 ops)
    else if (c.s a).toNat % 64 ≠ 0 then .error (.trap ALIGN (c.s a))
    else do
      gateB c s
      let (s1, r) ← readRecord c s (c.s a) 64
      if (rrSrc r).toNat % 256 ≠ 0 then throw (.trap ALIGN (rrSrc r))
      if (rrExperts r).toNat % 2 ≠ 0 then throw (.trap ALIGN (rrExperts r))
      if (rrTokens r).toNat % 4 ≠ 0 then throw (.trap ALIGN (rrTokens r))
      if (rrSpill r).toNat % 32 ≠ 0 then throw (.trap ALIGN (rrSpill r))
      if (c.s b).toNat % 8 ≠ 0 then throw (.trap ALIGN (c.s b))
      if routeRecordBad r then throw (.trap ILLOP)
      let (s2, _, _) ← checkLanes c s1 .store [0] (fun _ => c.s b) 8
      let (s3, o) ← if d = 0xF0 then .ok (s2, none) else do
        let (s3, o) ← counterAt c s2 .sync (c.s d)
        .ok (s3, some o)
      let s4 := (← boundary c s3 false).publish c.g c.core 3
      let s5 ← issueB c s4 (.engine s4.nextCmd) fun op s =>
        .ok (drawFor c s op o fun by_ wait s =>
          let cmd : Cmd := { id := s.nextCmd, by_ := by_, what := .xroute r (c.s b) {} }
          let s1 := { s with cmds := s.cmds ++ [cmd], nextCmd := s.nextCmd + 1 }
          match wait with
          | none => s1
          | some o => c.mod s1 fun g => g.resolve op id (.draw o (.cmd cmd.id) 33))
      .ok (sign c s5 ops)

/-- An `xroute` has begun its packet: a claim of it has been made (R279). -/
def Route.begun (x : Route) : Bool := x.entry.isSome || x.claim.isSome

/-- An `xroute` command that can act: drawn, not parked, and not stopped, but for the packet that it has begun, which is finished
before the stop (R279, R298). -/
def State.route? (s : State) (id : Nat) : Option (Cmd × List Byte × W64 × Route × Team × Kernel × Bezel) :=
  match s.cmd? id with
  | none => none
  | some cmd =>
    match cmd.what, s.owner? cmd.by_ with
    | .xroute r stat x, some (t, k, b) =>
      if cmd.parked || (cmd.stopped && (!x.begun || t.ctx == .saved)) || !cmd.by_.drawn then none
      else some (cmd, r, stat, x, t, k, b)
    | _, _ => none

/-- The command with other progress. -/
def State.setRoute (s : State) (id : Nat) (f : Route → Route) : State :=
  s.modCmd id fun c => { c with what := match c.what with
    | .xroute r st x => .xroute r st (f x)
    | w => w }

/-- How an engine stop ends an `xroute` (R163, R279, R375). -/
def State.routeStop (s : State) (cmd : Cmd) (t : Team) : EngineStop → Option State
  | .prot code va => some (s.trapCmd cmd code va)
  | .park va ca l w => some (s.parkCmd cmd va ca l w (placeWord t cmd.by_.g.grp))
  | .migr => some (s.migrCmd cmd)
  | .later => none

/-- The addresses that the engine reads for a packet of a route record (R278). -/
def routeSources (r : List Byte) (p : Nat) : List W64 :=
  [rrExperts r + BitVec.ofNat 64 (2 * p), rrTokens r + BitVec.ofNat 64 (4 * p)] ++
    (List.range (rrRow r / 256)).map fun i => rrSrc r + BitVec.ofNat 64 (p * rrRow r) + BitVec.ofNat 64 (256 * i)

/-- The expert word of a packet (R278). -/
def State.expertWord (s : State) (t : Team) (k : Kernel) (b : Bezel) (since : Nat) (r : List Byte) (p : Nat) :
    Except EngineStop (Nat × Bool) := do
  let (l, bad) ← s.engineRead t k b since (rrExperts r + BitVec.ofNat 64 (2 * p)) 2
  .ok (leNat l, bad)

/-- The next replica to try: the least load among the valid replicas not tried, ties to the lower k (R279). `sw`: the
switch table with its load values. -/
def nextReplica (sw entry : List Replica) (tried : List Nat) : Option Replica :=
  let load := fun (r : Replica) => match sw.find? fun x => x.expert == r.expert && x.k == r.k with
    | some x => x.load
    | none => 0
  (entry.filter fun r => !tried.contains r.k).foldl (fun best r => match best with
    | none => some r
    | some y => if load r < load y || (load r == load y && r.k < y.k) then some r else some y) none

/-- CAPACITY_CLAIM (R279): the current packet's next claim is made; its expert's entry is read at its first claim. -/
def State.capacityClaim (s : State) (id : Nat) : Option State :=
  match s.route? id with
  | none => none
  | some (cmd, r, _, x, t, k, b) =>
    if x.claim.isSome || rrCount r ≤ x.packet then none
    else match s.expertWord t k b cmd.by_.since r x.packet with
      | .error e => s.routeStop cmd t e
      | .ok (w, bad) =>
        if bad then some ((s.checkSources t k b cmd.by_.handle ((routeSources r x.packet).take 1)).terminate cmd.by_.g 19 12 (rrExperts r))
        else if w / 2 ^ 12 ≠ 0 then none
        else
          let entry := x.entry.getD (b.switch.filter fun e => e.expert == w)
          let rep := nextReplica b.switch entry x.tried
          let va := match rep with | some e => e.ctr | none => rrSpill r
          match s.enginePlace t k b .store va with
          | .error e => s.routeStop cmd t e
          | .ok p =>
            if isWindow va then s.routeStop cmd t (.prot PROT va)
            else
              let (s1, pa, ow) := s.homePlace p
              let (s2, cl) := s1.claimAt (.glob pa va ow) (rep.map (·.k)) cmd.by_.handle
              some (s2.setRoute id fun x =>
                { x with entry := some entry, tried := (match rep with | some e => e.k :: x.tried | none => x.tried), claim := some cl })

/-- CAPACITY_CLAIM. -/
def execCapacityClaim (s : State) : Host.Outcome State Fault Refusal :=
  eventStep s "CAPACITY_CLAIM" fun e => match e with | .capacityClaim c => s.capacityClaim c | _ => none

/-- The tag of a routed row (R279). -/
def routeTag (e dev : Nat) (token : W32) : W64 := BitVec.ofNat 64 (token.toNat + dev * 2 ^ 32 + e * 2 ^ 45)

/-- The sectors of a granted row: bytes and place of each, and whether a source sector is poisoned. -/
def State.rowSectors (s : State) (t : Team) (k : Kernel) (b : Bezel) (since : Nat) (src dst : W64) (n : Nat) :
    Except EngineStop (List (Place × List Byte × Bool)) :=
  (List.range n).mapM fun i => do
    let (l, bad) ← s.engineRead t k b since (src + BitVec.ofNat 64 (256 * i)) 256
    let va := dst + BitVec.ofNat 64 (256 * i)
    let q ← if isWindow va then .error (.prot PROT va) else s.enginePlace t k b .store va
    .ok (q, l, bad)

/-- The row and tag of a granted claim, ready to be written (R235, R279). -/
def State.routeRow (s : State) (t : Team) (k : Kernel) (b : Bezel) (since : Nat) (r : List Byte) (x : Route) (cl : Claim) (w : Nat) :
    Except EngineStop (List (Place × List Byte) × Bool) := do
  let (e, bad0) ← s.expertWord t k b since r x.packet
  let (tok, bad1) ← s.engineRead t k b since (rrTokens r + BitVec.ofNat 64 (4 * x.packet)) 4
  let row ← s.rowSectors t k b since (rrSrc r + BitVec.ofNat 64 (x.packet * rrRow r)) (cl.rows + BitVec.ofNat 64 (w * rrRow r)) (rrRow r / 256)
  let tva := cl.tags + BitVec.ofNat 64 (8 * w)
  let q ← if isWindow tva then .error (.prot PROT tva) else s.enginePlace t k b .store tva
  .ok ((row.map fun p => (p.1, p.2.1)) ++ [(q, leBytes (routeTag e s.devId (BitVec.ofNat 32 (leNat tok))).toNat 8)],
    bad0 || bad1 || row.any fun p => p.2.2)

/-- The load value that a reply carries, put in the bezel's switch table (R279). -/
def State.takeLoad (s : State) (b expert : Nat) (cl : Claim) : State :=
  match cl.replica with
  | none => s
  | some k => s.modBezel b fun x =>
      { x with switch := x.switch.map fun (e : Replica) => if e.expert == expert && e.k == k then { e with load := cl.load } else e }

/-- The next packet. -/
def Route.next (x : Route) : Route := { x with packet := x.packet + 1, entry := none, tried := [], claim := none }

/-- The end of an `xroute` whose packets are all delivered, spilled or dropped (R279): status word, ticket and flag. -/
def State.routeEnd (s : State) (id : Nat) : Option State :=
  match s.route? id with
  | none => none
  | some (cmd, r, stat, x, t, k, b) =>
    if x.packet < rrCount r then some s
    else match s.enginePlace t k b .store stat with
      | .error e => s.routeStop cmd t e
      | .ok p =>
        let v := leBytes (x.delivered % 2 ^ 16 + x.spilled % 2 ^ 16 * 2 ^ 16 + x.dropped % 2 ^ 16 * 2 ^ 32) 8
        some ((s.engineSector cmd.by_ [(p, v)] false).endCmd cmd)

/-- A packet is finished: the command goes on to its end, unless a stop waited for the packet (R279, R298). -/
def State.packetDone (s : State) (cmd : Cmd) : Option State := if cmd.stopped then some s else s.routeEnd cmd.id

/-- CLAIM_REPLY (R279): a granted row and its tag are written, a FULL reply leads to the next replica, to the spill
object or to a drop; a packet whose expert word is bad is dropped without a claim; the last packet ends the command. -/
def State.claimReply (s : State) (id : Nat) : Option State :=
  match s.route? id with
  | none => none
  | some (cmd, r, _, x, t, k, b) =>
    if rrCount r ≤ x.packet then s.routeEnd id
    else match s.expertWord t k b cmd.by_.since r x.packet with
      | .error e => s.routeStop cmd t e
      | .ok (w, bad) =>
        if bad then some ((s.checkSources t k b cmd.by_.handle ((routeSources r x.packet).take 1)).terminate cmd.by_.g 19 12 (rrExperts r))
        else match x.claim with
          | none =>
            if w / 2 ^ 12 = 0 then none
            else (s.setRoute id fun x => { x.next with dropped := x.dropped + 1 }).packetDone cmd
          | some cl =>
            let s1 := s.takeLoad b.num (w % 4096) cl
            match cl.row with
            | none =>
              if cl.replica.isSome then some (s1.setRoute id fun x => { x with claim := none })
              else (s1.setRoute id fun x => { x.next with dropped := x.dropped + 1 }).packetDone cmd
            | some row =>
              match s1.routeRow t k b cmd.by_.since r x cl row with
              | .error e => s1.routeStop cmd t e
              | .ok (ws, poison) =>
                if poison then some ((s1.checkSources t k b cmd.by_.handle (routeSources r x.packet)).terminate cmd.by_.g 19 12 (rrSrc r))
                else
                  let left := ws.zipIdx.filter fun (p : (Place × List Byte) × Nat) => !cmd.written.contains p.2
                  let s2 := ((left.foldl (fun (s : State) p => s.engineSector cmd.by_ [p.1] false) s1).modCmd id fun c =>
                    { c with written := [] }).setRoute id fun x =>
                      if cl.replica.isSome then { x.next with delivered := x.delivered + 1 }
                      else { x.next with spilled := x.spilled + 1 }
                  s2.packetDone cmd

/-- The sequencer writes one sector of a granted row, or its tag, while the packet goes on (R235, R279). -/
def State.routeSector (s : State) (id i : Nat) : Option State :=
  match s.route? id with
  | some (cmd, r, _, x, t, k, b) =>
    (match x.claim.bind fun cl => cl.row.map fun row => (cl, row) with
     | none => none
     | some (cl, row) => match s.routeRow t k b cmd.by_.since r x cl row with
       | .ok (ws, false) => (match ws[i]? with
         | some p => if cmd.written.contains i then none
           else some ((s.engineSector cmd.by_ [p] false).modCmd id fun c => { c with written := i :: c.written })
         | none => none)
       | _ => none)
  | none => none

/-- An engine writes one destination sector of a command that goes on (R235). -/
def State.cmdSector (s : State) (id n : Nat) : Option State :=
  match (s.cmd? id).map Cmd.what with
  | some (.copy _ _ _) => s.copySector id n
  | some (.tcopy _ _ _ _) => s.creditGrant id (some n)
  | some (.xroute _ _ _) => s.routeSector id n
  | _ => none

/-- CLAIM_REPLY. -/
def execClaimReply (s : State) : Host.Outcome State Fault Refusal :=
  eventStep s "CLAIM_REPLY" fun e => match e with | .claimReply c => s.claimReply c | _ => none

end Sys2Proof.Machine
end

