-- ==== Sys2Proof/Machine/Place.lean ====
section
/-! DEFINITION. Placing teams: footprints and capacities (R7, R80), which core fits a team (R75), and whose team a die's
dispatcher places next (R76). -/

namespace Sys2Proof.Machine

open Sys2Proof

/-! ### Footprints (R7, R80) -/

/-- What a team needs on one sub-core: group slots, vector registers and tiles (R80). -/
structure Need where
  slots : Nat
  regs : Nat
  tiles : Nat
deriving DecidableEq, Repr

/-- Sum of two needs. -/
def Need.add (x y : Need) : Need := { slots := x.slots + y.slots, regs := x.regs + y.regs, tiles := x.tiles + y.tiles }

/-- A need repeated. -/
def Need.times (n : Nat) (x : Need) : Need := { slots := n * x.slots, regs := n * x.regs, tiles := n * x.tiles }

/-- The footprint of a team on sub-core `sub` (R79, R80). -/
def footprint (r : List Byte) (sub : Nat) : Need :=
  ((List.range (recGroups r)).filter fun n => n % 4 == sub).foldl (fun a n =>
    let role := recRole r (roleOf r n).1
    let f := if recShadow r then 2 else 1
    a.add { slots := f, regs := f * roleVmax role, tiles := roleTmax role }) { slots := 0, regs := 0, tiles := 0 }

/-- Stash bytes and version reserve of a team (R80). -/
def stashNeed (r : List Byte) : Nat := recStash r + 256 * recVbound r

/-- What a sub-core holds: 128 group slots, 6,144 vector registers, 64 tiles (R7, R11). -/
def subCore : Need := { slots := 128, regs := 6144, tiles := 64 }
/-- Bytes of a core's stash (R7). -/
def coreStash : Nat := 1048576

/-- A need within a capacity. -/
def Need.within (x cap : Need) : Bool := x.slots ≤ cap.slots && x.regs ≤ cap.regs && x.tiles ≤ cap.tiles

/-- What a sub-core holds since the last reset (R6, R213, R303). -/
def State.subCap (s : State) (core sub : Nat) : Need :=
  match s.caps.find? fun x => x.core == core && x.sub == sub with
  | some x => { subCore with regs := x.regs, tiles := x.tiles }
  | none => subCore

/-- What stands on a sub-core for a placed team: its footprint, without the slots that groups have returned (R75, R88). -/
def Team.need (t : Team) (r : List Byte) (sub : Nat) : Need :=
  let f := footprint r sub
  let out := ((t.groups ++ t.shadows).filter fun g => g.num % 4 == sub && g.life == .exited).length
  { f with slots := f.slots - out }

/-- The room of a core: capacity and use of each sub-core, and the stash bytes in use (R75). -/
structure Room where
  subs : List (Need × Need)
  stash : Nat
deriving DecidableEq, Repr

/-- The room of a core on which some teams stand. -/
def State.roomWith (s : State) (core : Nat) (ts : List (Team × List Byte)) : Room :=
  { subs := (List.range 4).map fun sub =>
      (s.subCap core sub, ts.foldl (fun a x => a.add (x.1.need x.2 sub)) { slots := 0, regs := 0, tiles := 0 }),
    stash := ts.foldl (fun a x => a + stashNeed x.2) 0 }

/-- The room of a core as it stands. -/
def State.room (s : State) (core : Nat) : Room :=
  s.roomWith core (s.teams.filterMap fun t =>
    if t.core == core && t.placed then (s.kernel? t.bezel t.kslot).map fun k => (t, k.record) else none)

/-- The room of a core that is empty. -/
def State.emptyRoom (s : State) (core : Nat) : Room := s.roomWith core []

/-- A core also holds `n` teams of record `r` (R75). -/
def Room.fits (x : Room) (r : List Byte) (n : Nat) : Bool :=
  (x.subs.zipIdx.all fun p => (p.1.2.add ((footprint r p.2).times n)).within p.1.1) && x.stash + n * stashNeed r ≤ coreStash

/-- The room that is left beside `n` teams of record `r`. -/
def Room.plus (x : Room) (r : List Byte) (n : Nat) : Room :=
  { subs := x.subs.zipIdx.map fun p => (p.1.1, p.1.2.add ((footprint r p.2).times n)), stash := x.stash + n * stashNeed r }

/-- The cores of a bezel that take teams, ascending: members that are neither leaving nor fenced (R314, R363). -/
def State.openCores (s : State) (b : Nat) : List Nat :=
  (List.range 256).filter fun c => s.unit (.core c) == .member b && !s.fencedUnits.contains (.core c)

/-- Cores for `n` teams of record `r`, each on the first core of the list that still fits it. -/
def assignCores (room : Nat → Room) (r : List Byte) (cores : List Nat) : Nat → List Nat → Option (List Nat)
  | 0, acc => some acc
  | n + 1, acc =>
    match cores.find? fun c => (room c).fits r (acc.count c + 1) with
    | none => none
    | some c => assignCores room r cores n (acc ++ [c])

/-- Teams that one core holds, up to a limit. -/
def coreHolds (room : Room) (r : List Byte) : Nat → Nat
  | 0 => 0
  | n + 1 => if room.fits r (n + 1) then n + 1 else coreHolds room r n

/-- Teams that each ccl holds. -/
def cclHolds (room : Nat → Room) (r : List Byte) (cores : List Nat) : List (Nat × Nat) :=
  ((cores.map (· / 8)).eraseDups).map fun q =>
    (q, ((cores.filter fun c => c / 8 == q).map fun c => coreHolds (room c) r 128).foldl (· + ·) 0)

/-- A ccl for each of some clusters of which only a number of teams is to be placed, each on the ccl given with it if any, so that
`whole` clusters of `cl` teams fit beside them; none where there is no such choice. -/
def packClusters (cl whole : Nat) : List (Nat × Option Nat) → List (Nat × Nat) → Option (List Nat)
  | [], caps => if whole ≤ (caps.map fun c => c.2 / cl).foldl (· + ·) 0 then some [] else none
  | (n, at_) :: rest, caps => caps.findSome? fun c =>
    if at_.all (· == c.1) && n ≤ c.2 then
      (packClusters cl whole rest (caps.map fun x => if x.1 == c.1 then (x.1, x.2 - n) else x)).map (c.1 :: ·)
    else none

/-- The teams of a grid fit cores at once: as many as the cores hold, cluster by cluster within a ccl (R75, R81). `part`: clusters of
which only some teams are to be placed, beside `n` teams of whole ones. -/
def allFit (room : Nat → Room) (r : List Byte) (cores : List Nat) (n : Nat) (part : List (Nat × Option Nat) := []) : Bool :=
  let cl := max 1 (recCluster r)
  if cl = 1 then n ≤ ((cclHolds room r cores).map (·.2)).foldl (· + ·) 0
  else (packClusters cl (n / cl) part (cclHolds room r cores)).isSome

/-! ### The next team (R74 to R77) -/

/-- The cluster of a team: its lowest team id (R90). -/
def clusterBase (r : List Byte) (tid : Nat) : Nat := tid - teamRank r tid

/-- The teams that are placed together with team `tid`: the unplaced teams of its cluster. -/
def Kernel.companions (k : Kernel) (tid : Nat) : List Nat :=
  ((List.range (max 1 (recCluster k.record))).map fun i => clusterBase k.record tid + i).filter fun i =>
    k.requeued.contains i || (k.nextTid ≤ i && i < recTeams k.record)

/-- A team put in a list that rises by team id. -/
def insertTeam (t : Team) : List Team → List Team
  | [] => [t]
  | x :: l => if t.tid ≤ x.tid then t :: x :: l else x :: insertTeam t l

/-- The saved teams of a kernel, lowest team id first. -/
def State.savedTeams (s : State) (b : Nat) (k : Kernel) : List Team :=
  (s.teams.filter fun t => t.bezel == b && t.kslot == k.slot && t.kseq == k.seq && t.ctx == .saved && !t.ended).foldr insertTeam []

/-- Cores of die `d` in a list, and the others after them. -/
def dieFirst (d : Nat) (cores : List Nat) : List Nat := (cores.filter fun c => c / 64 == d) ++ cores.filter fun c => c / 64 != d

/-- What a dispatcher places for a kernel: a saved team on a core, or unplaced teams with a core each. -/
inductive Placing where
  | restore (sid core : Nat)
  | fresh (teams : List (Nat × Nat))
deriving DecidableEq, Repr

/-- Cores for `n` teams of a cluster on one ccl: the lowest ccl that holds them all. -/
def State.clusterCores (s : State) (r : List Byte) (cores : List Nat) (n : Nat) : Option (List Nat) :=
  (List.range 32).findSome? fun q => assignCores s.room r (cores.filter fun c => c / 8 == q) n []

/-- The teams of a kernel in the cluster of a team id that have not ended. -/
def State.mates (s : State) (b : Nat) (k : Kernel) (tid : Nat) : List Team :=
  s.teams.filter fun x => x.bezel == b && x.kslot == k.slot && x.kseq == k.seq && !x.ended &&
    clusterBase k.record x.tid == clusterBase k.record tid

/-- The cores that a team of a cluster may take: those of the ccl on which mates of it stand, or all (R75). -/
def State.besideMates (s : State) (b : Nat) (k : Kernel) (tid : Nat) (cores : List Nat) : List Nat :=
  match (s.mates b k tid).find? Team.placed with
  | some x => cores.filter fun c => c / 8 == x.core / 8
  | none => cores

/-- Where a saved team is restored: on the ccl of its cluster's resident teams, or on a ccl that takes all of its cluster's
saved teams (R75, R297, R303). -/
def State.restoreCore (s : State) (k : Kernel) (t : Team) (cores : List Nat) : Option Nat :=
  if recCluster k.record ≤ 1 then cores.find? fun c => (s.room c).fits k.record 1
  else
    let mates := s.mates t.bezel k t.tid
    if mates.any Team.placed then (s.besideMates t.bezel k t.tid cores).find? fun c => (s.room c).fits k.record 1
    else (s.clusterCores k.record cores (mates.filter fun x => x.ctx == .saved).length).bind (·.head?)

/-- Clusters placed one after another, each on one ccl: the one given, or the first that holds it. The teams with their cores, or none
where one fits nowhere (R75). -/
def State.placeClusters (s : State) (k : Kernel) (order : List Nat) : List (List Nat × Option Nat) → List (Nat × Nat) → Option (List (Nat × Nat))
  | [], acc => some acc
  | (tids, at_) :: rest, acc =>
    let room := fun c => (s.room c).plus k.record ((acc.map (·.2)).count c)
    match ((order.map (· / 8)).eraseDups.filter fun q => at_.all (· == q)).findSome? fun q =>
      assignCores room k.record (order.filter fun c => c / 8 == q) tids.length [] with
    | none => none
    | some cs => s.placeClusters k order rest (acc ++ tids.zip cs)

/-- Team ids cluster by cluster. -/
def byCluster (r : List Byte) (tids : List Nat) : List (List Nat) :=
  ((tids.map (clusterBase r)).eraseDups).map fun x => tids.filter fun i => clusterBase r i == x

/-- The teams of a kernel that stand on no core and have not ended: saved ones, and unplaced ones. -/
def State.offCores (s : State) (b : Nat) (k : Kernel) : List Nat :=
  (s.savedTeams b k).map (·.tid) ++ k.requeued ++ (List.range (recTeams k.record - k.nextTid)).map (k.nextTid + ·)

/-- The clusters of some teams of which others have ended or stand on a ccl: how many teams each has there, and that ccl (R75). -/
def State.partClusters (s : State) (b : Nat) (k : Kernel) (tids : List Nat) : List (List Nat × Option Nat) :=
  ((byCluster k.record tids).filter fun l => l.length < recCluster k.record).map fun l =>
    (l, ((s.mates b k (l.headD 0)).find? Team.placed).map fun x => x.core / 8)

/-- The teams of a CORESIDENT kernel that stand on no core fit the cores at once (R75). -/
def State.fitTogether (s : State) (room : Nat → Room) (b : Nat) (k : Kernel) (cores : List Nat) : Bool :=
  let tids := s.offCores b k
  let part := s.partClusters b k tids
  allFit room k.record cores (tids.length - (part.map fun p => p.1.length).foldl (· + ·) 0)
    (part.map fun p => (p.1.length, p.2))

/-- All the teams of a kernel that have not ended, resident ones too, would fit some empty cores at once (R75, R314). -/
def State.liveFit (s : State) (b : Nat) (k : Kernel) (cores : List Nat) : Bool :=
  let tids := ((s.teams.filter fun t => t.bezel == b && t.kslot == k.slot && t.kseq == k.seq && !t.ended && t.ctx != .saved).map (·.tid)) ++
    s.offCores b k
  let part := (byCluster k.record tids).filter fun l => l.length < recCluster k.record
  allFit s.emptyRoom k.record cores (tids.length - (part.map (·.length)).foldl (· + ·) 0) (part.map fun l => (l.length, none))

/-- The clusters of a CORESIDENT kernel's teams with a ccl for each that is not whole, those first, so that all fit (R75). -/
def State.planClusters (s : State) (b : Nat) (k : Kernel) (tids order : List Nat) : List (List Nat × Option Nat) :=
  let part := s.partClusters b k tids
  let whole := (byCluster k.record tids).filter fun l => recCluster k.record ≤ l.length
  let qs := (packClusters (recCluster k.record) whole.length (part.map fun p => (p.1.length, p.2)) (cclHolds s.room k.record order)).getD []
  (part.zip qs).map (fun p => (p.1.1, some p.2)) ++ whole.map fun l => (l, none)

/-- What the dispatcher of die `d` would place for a kernel now (R75, R76): saved teams come before unplaced ones (R87). A
CORESIDENT kernel's first team or cluster goes on this die, and the others on its cores first (log entry 57). -/
def State.placing (s : State) (d : Nat) (b : Bezel) (k : Kernel) : Option Placing :=
  let cores := s.openCores b.num
  let here := cores.filter fun c => c / 64 == d && (b.st != .forming || c == b.seat)
  let saved := s.savedTeams b.num k
  if !(k.st == .admitted || k.st == .running) || !k.drawn || !k.depMet then none
  else if recCoresident k.record && !s.fitTogether s.room b.num k cores then none
  else match saved with
    | t :: _ => (s.restoreCore k t here).map fun c => .restore t.sid c
    | [] => match k.lowest with
      | none => none
      | some tid =>
        let first := if recCluster k.record ≤ 1 then assignCores s.room k.record here 1 []
          else s.clusterCores k.record (s.besideMates b.num k tid here) (k.companions tid).length
        match first with
        | none => none
        | some cs =>
          if !recCoresident k.record then some (.fresh ((k.companions tid).zip cs))
          else
            let tids := k.requeued ++ (List.range (recTeams k.record - k.nextTid)).map (k.nextTid + ·)
            if recCluster k.record ≤ 1 then
              (assignCores s.room k.record (dieFirst d cores) tids.length []).map fun cs => .fresh (tids.zip cs)
            else
              let order := dieFirst d cores
              (s.placeClusters k order (s.planClusters b.num k tids order) []).map .fresh

/-- The kernels of one queue in the order in which a die scans them (R76): after the one it served last. `last`: the
kernel slot served last, or the slot that followed it when it left. -/
def scanOrder (queue : List Nat) (last : Option (Nat × Bool)) : List Nat :=
  match last with
  | none => queue
  | some (k, after) =>
    match queue.idxOf? k with
    | none => queue
    | some i => let n := if after then i + 1 else i
                queue.drop n ++ queue.take n

/-- The choice of die `d` in a bezel (R76): queues from priority 7 down, and the first kernel that can be served. -/
def State.dispatchIn (s : State) (d : Nat) (b : Bezel) : Option (Nat × Kernel × Placing) :=
  [7, 6, 5, 4, 3, 2, 1, 0].findSome? fun pr =>
    let q := (b.queues.filter fun p => p.1 == pr).map (·.2)
    let last := (b.lastServed.find? fun p => p.1 == d && p.2.1 == pr).map (·.2.2)
    (scanOrder q last).findSome? fun slot =>
      match b.kernel? slot with
      | some k => (s.placing d b k).map fun p => (pr, k, p)
      | none => none

/-- The choice of die `d` over the bezels, lowest number first. -/
def State.dispatchChoice (s : State) (d : Nat) : Option (Bezel × Nat × Kernel × Placing) :=
  (List.range 16).findSome? fun n => (s.bezel? n).bind fun b => (s.dispatchIn d b).map fun x => (b, x)

end Sys2Proof.Machine
end

