-- ==== Sys2Proof/Machine/Context.lean ====
section
/-! DEFINITION. Tasks, traps, stops and contexts (R281 to R303): opcodes 0xD0 to 0xD5, with TASK_COMMIT, TRAP_DELIVERY,
DEFERRED_TRAP_TAKE, STOP_COMPLETE, MASKED_HOLD_TIMEOUT and CONTEXT_RESTORE. -/

namespace Sys2Proof.Machine

open Sys2Proof

/-! ### task (R282, R286) -/

/-- Some doublewords read one after another, each as a record (R282: a table is only 8-byte aligned). -/
def readDwords (c : Ctx) (s : State) (ad : W64) : Nat → Except Stop (State × List Byte)
  | 0 => .ok (s, [])
  | n + 1 => do
    let (s1, l) ← readRecord c s ad 8
    let (s2, m) ← readDwords c s1 (ad + 8) n
    .ok (s2, l ++ m)

/-- Recipe entry `r`, which a leader reads from memory and passes to its shadow (R97; log entry 50). -/
def readEntry (c : Ctx) (s : State) (r : Nat) : Except Stop (State × List Byte) :=
  if c.g.sh then do
    let (s1, l) ← takeSide c s 4
    .ok (s1, l.flatMap fun x => leBytes x.toNat 8)
  else do
    let (s1, e) ← readDwords c s (recRecipes c.kern.record + BitVec.ofNat 64 (32 + 32 * r)) 4
    .ok (passSide c s1 ((List.range 4).map fun i => dword e (8 * i)), e)

/-- The VLIST bytes of an entry that name a register. -/
def vlistOf (e : List Byte) : List Nat := ((slice e 8 8).map (·.toNat)).filter (· ≠ 255)

/-- A recipe entry breaks R282. -/
def recipeBad (e : List Byte) : Bool :=
  (slice e 20 12).any (· != 0) || 8 < popc (leNat (slice e 16 4)) 32 || (dword e 16).getLsbD 30 || (dword e 16).getLsbD 31 ||
  (vlistOf e).any (fun n => 192 ≤ n) || (vlistOf e).eraseDups.length ≠ (vlistOf e).length || (dword e 0).toNat % 4 ≠ 0

/-- `task` (R286): the recipe entry is read, the current task commits, and the new task takes the recipe and the bound. After a
commit that it had to wait for it goes on from there. -/
def execTask (n r : BitVec 8) (s : State) : Host.Outcome State Fault Refusal :=
  issue (.task n r) s fun c s =>
    let vb := recVbound c.kern.record
    let count := bits (dword c.kern.recipe0 0).toNat 8 0
    if recRecipes c.kern.record = 0 then .error (.trap ILLOP)
    else if vb < n.toNat then .error (.trap ILLOP)
    else if count ≤ r.toNat then .error (.trap ILLOP)
    else if c.grp.bnd == .passed then .ok (c.mod s fun g => { g with recipe := r, bound := if n = 0 then vb else n.toNat, explicit := true })
    else do
      let (s1, e) ← readEntry c s r.toNat
      if recipeBad e then throw (.trap ILLOP)
      if (vlistOf e).any fun m => c.grp.v.length ≤ m then throw (.trap ILLOPERAND)
      let c1 := { c with grp := { c.grp with nextEntry := some e } }
      let s2 ← boundary c1 (c.mod s1 fun g => { g with nextEntry := some e }) false
      .ok (c.mod s2 fun g => { g with recipe := r, bound := if n = 0 then vb else n.toNat, explicit := true })

/-! ### trap, tret, and the mask (R294 to R296) -/

/-- `trap` (R294): the clause ends; with a nonzero scalar SWTRAP is delivered, and the group goes on at the next clause. -/
def execTrap (d : BitVec 8) (i : BitVec 16) (s : State) : Host.Outcome State Fault Refusal :=
  issue (.trap d i) s fun c s =>
    if c.s d = 0 then .ok s
    else
      let s1 := c.mod s fun g => (g.closeBatches c.cl).modClause fun cl => { cl with issuedM := false, issuedC := false }
      .error (.done (s1.raise c SWTRAP 0 i { hdr := c.cl.next }))

/-- A handler of a kernel that does not flash back returns (R295): MASKED 0, GMODE := TGMODE, and the slot that trapped
goes on at TRESUME. -/
def Group.handlerReturn (g : Group) : Group :=
  let sl := if g.report.tem.getLsbD 32 then Slot.b else Slot.a
  let p : Pc := { hdr := g.report.tresume.setWidth 57, idx := bits g.report.tresume.toNat 63 60, resume := true }
  { (g.setPc sl p) with
    masked := false, life := .active, mode := .normal, gmode := g.report.tgmode.setWidth 16, clause := none, bnd := .idle,
    bndHere := false, wait := .none }

/-- `tret` (R295). The commit of a handler's task raises no TASKSEQ (R281). -/
def execTret (s : State) : Host.Outcome State Fault Refusal :=
  issue .tret s fun c s =>
    match c.grp.mode with
    | .normal => .error (.trap ILLOP)
    | .recompute => .ok (c.mod s fun g => ({ g with mode := .normal }).modClause fun cl => { cl with close := false })
    | .handler => do
      let s1 ← boundary c s false
      if flashesBack c.kern.record then
        if (s1.group? c.g).any fun g => g.ops.any fun o => o.ck then throw (.wait .ckpt s1)
        .error (.done ((c.mod s1 fun g => { g.closeBatches c.cl with masked := false, life := .active }).flashbackPair c.g))
      else .error (.done (c.mod s1 fun g => (g.closeBatches c.cl).handlerReturn))

/-- `tmask` (R296). -/
def execTmask (s : State) : Host.Outcome State Fault Refusal :=
  issue .tmask s fun c s => .ok (c.mod s fun g => { g with masked := true })

/-- `tunmask` (R296). -/
def execTunmask (s : State) : Host.Outcome State Fault Refusal :=
  issue .tunmask s fun c s =>
    if c.grp.life == .trapped then .error (.trap ILLOP) else .ok (c.mod s fun g => { g with masked := false })

/-- `lkill` (R296). -/
def execLkill (s : State) : Host.Outcome State Fault Refusal :=
  issue .lkill s fun c s => .ok (s.deadLanes c.g c.em)

/-! ### The commit (R287 to R289) -/

/-- Where a group that waits to commit stands: slot and resume point of the instruction, or none when its slots have
ended. -/
def Group.stand (g : Group) : Slot × Pc :=
  match g.clause with
  | some c => (c.slot, { hdr := c.hdr, idx := c.idx })
  | none => (.a, {})

/-- Steps 3 and 4 of R287 for a group at its boundary; it goes on with the instruction, or is ended. -/
def State.commitOne (s : State) (r : GRef) (k : Kernel) : State :=
  match s.group? r with
  | none => s
  | some g =>
    let (sl, p) := g.stand
    (s.release r (g.boundaryEntry k) { p with passed := !g.bndHere && g.clause.isSome } sl).modGroup r fun g => { (g.wake s.stepNo) with bnd := if g.alive then .passed else .idle }

/-- The group's comparison value at a commit (R98, R288): its signature with the checkpointed registers. -/
def Group.finalSig (g : Group) (k : Kernel) : Group := g.signCkpt (g.boundaryEntry k) (fullCkpt k.record)

/-- TASK_COMMIT (R287): the operations have drained; under SHADOW both groups stand at the boundary and their signatures
are compared. -/
def State.taskCommit (s : State) (r : GRef) : Option State :=
  match s.team? r.team, s.group? r with
  | some t, some g =>
    match s.kernel? t.bezel t.kslot with
    | none => none
    | some k =>
      if r.sh || g.bnd != .waiting || !s.goesOn t g true || !g.drained || s.commitHeldUp r g || g.deferredTrap.isSome then none
      else if !recShadow k.record || g.mode == .handler then some (s.commitOne r k)
      else match s.group? r.shadow with
        | none => none
        | some h =>
          if h.bnd != .waiting || !h.drained || h.deferredTrap.isSome then none
          else
            let a := g.finalSig k
            let b := h.finalSig k
            if a.sig = b.sig then some ((s.commitOne r k).commitOne r.shadow k)
            else some (((s.modGroup r fun _ => a).modGroup r.shadow fun _ => b).mismatch r)
  | _, _ => none

/-- TASK_COMMIT. -/
def execTaskCommit (s : State) : Host.Outcome State Fault Refusal :=
  eventStep s "TASK_COMMIT" fun e => match e with | .taskCommit g => s.taskCommit g | _ => none

/-! ### Delivery of traps (R292, R375) -/

/-- The instructions that a group's version has deferred are delivered, in program order (R287 step 3). -/
def State.deliverHeld (s : State) (r : GRef) : State :=
  match s.team? r.team, s.group? r with
  | some t, some g => match s.bezel? t.bezel with
    | some b => (g.ver.deferred.foldl (fun s d => s.deliver r b t.core d) s).modGroup r fun g => { g with ver := { g.ver with deferred := [] } }
    | none => s
  | _, _ => s

/-- TRAP_DELIVERY (R292): the operations that a trap of a kernel without versions waits for have drained, what its task has deferred
is delivered, and the handler is entered. -/
def State.trapDelivery (s : State) (r : GRef) : Option State :=
  match s.team? r.team, s.group? r with
  | some t, some g =>
    match g.pend with
    | none => none
    | some p => if t.onCore && (g.ops.all fun o => !o.classA) && g.mq.isEmpty && !s.commitHeldUp r g then some ((s.deliverHeld r).takeTrap r p) else none
  | _, _ => none

/-- TRAP_DELIVERY. -/
def execTrapDelivery (s : State) : Host.Outcome State Fault Refusal :=
  eventStep s "TRAP_DELIVERY" fun e => match e with | .trapDelivery g => s.trapDelivery g | _ => none

/-- Where a group would go on (R375): the instruction about to issue or waiting, the header of a clause at its WAIT, or the
next clause. -/
def Group.nextPoint (g : Group) : Slot × Pc :=
  match g.clause with
  | some c => (c.slot, { hdr := c.hdr, idx := if c.started then c.idx else 0 })
  | none =>
    let sl := g.candidates.head?.getD .a
    (sl, { hdr := (g.pcOf sl).hdr, idx := (g.pcOf sl).idx })

/-- DEFERRED_TRAP_TAKE (R375): a group that issues, waits or is parked takes the trap; a group whose slots have all ended
takes it as a fatal one. -/
def State.deferredTake (s : State) (r : GRef) : Option State :=
  match s.team? r.team, s.group? r with
  | some t, some g =>
    match g.deferredTrap with
    | none => none
    | some p =>
      if !t.onCore || g.life == .pending || g.life == .collective || g.life == .exited || g.pend.isSome then none
      else if !g.alive && !g.blive then some (s.fatalTrap r p)
      else
        let (sl, at_) := g.nextPoint
        let s1 := s.modTeam r.team fun t => { t with requests := t.requests.filter fun q => q.grp != r.grp }
        some ((s1.modGroup r fun g => { (g.wake s.stepNo) with deferredTrap := none, bnd := .idle, nextEntry := none }).takeTrap r
          { p with em := g.em sl, slotB := sl == .b, resume := at_ })
  | _, _ => none

/-- DEFERRED_TRAP_TAKE. -/
def execDeferredTrapTake (s : State) : Host.Outcome State Fault Refusal :=
  eventStep s "DEFERRED_TRAP_TAKE" fun e => match e with | .deferredTrapTake g => s.deferredTake g | _ => none

/-! ### Stops (R298 to R300) -/

/-- The engine commands of a team, held or released. -/
def State.holdCmds (s : State) (sid : Nat) (stop : Bool) : State :=
  { s with cmds := s.cmds.map fun (c : Cmd) => if c.by_.g.team == sid then { c with stopped := stop } else c }

/-- The pavé commands of a team leave their engines, whose state goes into the image (R298, R302, R349). -/
def State.holdPave (s : State) (sid : Nat) : State :=
  let mine := fun (id : Nat) => s.pvCmds.any fun c => c.id == id && c.by_.g.team == sid
  { s with
    pvCmds := s.pvCmds.map fun (c : PvCmd) =>
      if c.by_.g.team == sid then
        { c with stopped := true,
                 waitAt := c.waitAt ++ (s.engines.filter fun e => e.cur == some c.id).map (·.chan),
                 saved := c.saved ++ s.engines.filter fun e => e.cur == some c.id }
      else c
    engines := s.engines.map fun (e : PvEngine) =>
      if e.cur.any mine then
        { chan := e.chan, st := if e.st == .fenced then .fenced else .idle, lastErr := e.lastErr, completed := e.completed }
      else e }

/-- The pavé commands of a restored team stand in their engines' queues again, in the order in which they arrived at first
(R341; log entry 23). -/
def State.releasePave (s : State) (sid : Nat) : State :=
  { s with pvCmds := s.pvCmds.map fun (c : PvCmd) => if c.by_.g.team == sid then { c with stopped := false } else c }

/-- A stop reaches a running team (R298): its groups are to stop, and its engines stop at their units. -/
def State.stopTeam (s : State) (sid : Nat) : State :=
  match s.team? sid with
  | none => s
  | some t =>
    if t.ctx != .running || t.ended then s
    else
      let mark := fun (g : Group) => { g with stopAt := s.arith, halted := false }
      ((s.modTeam sid fun t => { t with ctx := .stopping, groups := t.groups.map mark, shadows := t.shadows.map mark }).holdCmds sid
        true).holdPave sid

/-- The group's matrix queue is parked on a fault (R205). -/
def Group.mqParked (g : Group) : Bool := g.mq.head?.any MOp.parked

/-- A group waits for an access (R163, R224). -/
def Wait.access : Wait → Bool
  | .page _ | .migrating | .block _ _ | .recall _ _ | .fill _ => true
  | _ => false

/-- A group of a non-rewindable kernel stands where a stop may save it (R299): between clauses, or at an instruction that
waits for a phase, for a ticket, for registers or tiles, on an access, or for a matrix queue that is parked on a fault, as a pending
trap does too (R205); a shadow also where it waits for its leader. -/
def Group.atStop (g : Group) (sh : Bool) : Bool :=
  (g.pend.isNone || g.mqParked) && (match g.clause with
    | none => true
    | some c => !c.started || g.wait.access || (match g.wait with
      | .phase _ _ | .mbat _ | .cbat _ | .regs _ | .tiles _ | .draw _ => true
      | .boundary => sh || g.mqParked
      | .queue | .mfence | .shrink _ _ => g.mqParked
      | .lvq => sh || g.mqParked
      | .leader | .side => sh
      | _ => false))

/-- The matrix queue has nothing that a stop waits for: it is empty, parked on a fault, or behind a collective (R205). -/
def Group.mqStopped (g : Group) : Bool :=
  match g.mq with
  | [] => true
  | m :: _ => g.mqParked || (match m.what with | .coll _ _ => true | _ => false)

/-- A group has stopped (R298 to R300). A column that waits in a parked matrix queue is saved with the queue (R205). -/
def Group.stopped (g : Group) (nonRew sh : Bool) : Bool :=
  g.life == .exited || (!(g.masked && !g.halted) &&
    (if nonRew then
       g.atStop sh && g.mqStopped && g.ops.all fun o => !o.classA || (g.mqParked && (match o.what with | .matrix _ => true | _ => false))
     else g.ops.all fun o => !o.ck))

/-- A leader and its shadow stand at one point. -/
def Group.samePoint (a b : Group) : Bool :=
  a.pcA == b.pcA && a.pcB == b.pcB && a.pcH == b.pcH && (a.clause.map fun (c : Clause) => (c.hdr, c.idx, c.started)) == (b.clause.map fun (c : Clause) => (c.hdr, c.idx, c.started))

/-- A group leaves its core. A shadow that waits for its leader is asleep until the leader has gone on (R88, R97). -/
def Group.offCore (g : Group) (now : Nat) : Group :=
  { g with inSet := false, yielded := false, asleep := g.wait == .leader, readySince := now, halted := false,
           life := match g.life with
             | .exited => .exited | .collective => .collective | .trapped => .trapped
             | _ => (match g.wait with | .phase _ _ | .mbat _ | .cbat _ | .leader => .waiting | _ => .pending) }

/-- A group of a non-rewindable kernel as it is saved (R299): a `bwait` stays waiting, and so does the shadow of one; any other
instruction that waits issues again; a trap that waits for the group's operations goes on waiting. -/
def Group.park299 (g : Group) : Group :=
  if g.pend.isSome then g else match g.clause with
  | none => { g with wait := .none }
  | some c =>
    if !c.started then { g with clause := none, wait := .none }
    else match g.wait with
      | .phase _ _ | .mbat _ | .cbat _ | .leader => g
      | _ =>
        let sl := c.slot
        { (g.cut.setPc sl { hdr := c.hdr, idx := c.idx, resume := true }) with wait := .none, bnd := .idle, bndHere := false }

/-- The current checkpoint changed. -/
def Group.modCkpt (g : Group) (f : Ckpt → Ckpt) : Group := if g.ckCur then { g with ck1 := f g.ck1 } else { g with ck0 := f g.ck0 }

/-- The group with the task of another state of it. -/
def Group.sameTask (x g : Group) : Group := { x with taskSeq := g.taskSeq, bound := g.bound, explicit := g.explicit }

/-- The task of a group of a non-rewindable kernel committed at a stop (R299). TASKSEQ stays, also in a full checkpoint, for such a
commit is no boundary (R281). -/
def State.stopCommit (s : State) (r : GRef) (k : Kernel) : State :=
  match s.group? r with
  | none => s
  | some g =>
    if g.life == .exited || !g.drained then s
    else
      let (sl, p) := g.nextPoint
      (s.release r (g.boundaryEntry k) p sl).modGroup r fun x =>
        (x.modCkpt fun c => { c with taskSeq := g.taskSeq, bound := g.bound, explicit := g.explicit }).sameTask g

/-- A flow end at a save (R245, R258): a receive end NACKs the chunks that it holds, and the end is SUSPENDED. -/
def State.suspendFlow (s : State) (f : FlowEnd) : State :=
  if f.st == .closing || f.st == .suspended then s
  else
    let s0 := s.flushMirror f
    let s1 := if f.isRecv && !f.holding.isEmpty then
        s0.sendNack f (f.lastSeq + 1) (f.holding.map fun h => (h.1, 4)) false
      else s0
    s1.modFlow f.num fun x => { x with held := x.st, st := .suspended, holding := [] }

/-- A flow end at a restore on a die (R258): it goes on in the state it held, and its recorded NACKs are answered once the
trailer has been sent. -/
def State.resumeFlow (s : State) (f : FlowEnd) (die : Nat) : State :=
  let answer := f.cur.any fun t => t.trailer
  let s1 := s.modFlow f.num fun x =>
    { x with die := die, st := if x.st == .suspended then x.held else x.st,
             cur := x.cur.map fun t => if answer then { t with nacks := [] } else t }
  match f.cur with
  | some t => if answer then t.nacks.foldl (fun s x => s.takeNack f.num x.1 x.2.1 x.2.2) s1 else s1
  | none => s1

/-- Why a saved team is not restored (R297, R314): no empty core fits it, or the teams of a CORESIDENT kernel do not fit the empty
bezel together. -/
def State.savedReason (s : State) (t : Team) : CtxReason :=
  match s.kernel? t.bezel t.kslot, s.bezel? t.bezel with
  | some k, some b =>
    let cores := s.openCores b.num
    if recCoresident k.record && !s.liveFit b.num k cores then .shape
    else if !cores.any (fun c => (s.emptyRoom c).fits k.record 1) then .capacity
    else .none
  | _, _ => .none

/-- The reasons of the saved teams of a bezel, judged again (R297). -/
def State.judgeSaved (s : State) (b : Nat) : State :=
  { s with teams := s.teams.map fun (t : Team) =>
    if t.bezel == b && t.ctx == .saved && !t.ended then { t with reason := s.savedReason t } else t }

/-- The kernel is in its queue again (R87). -/
def State.requeue (s : State) (b : Nat) (k : Kernel) : State :=
  s.modBezel b fun x =>
    if x.queues.any fun p => p.2 == k.slot then x else { x with queues := x.queues ++ [(recPriority k.record, k.slot)] }

/-- The team's image complete (R297, R298, R302): groups flashed back or saved in full, their stores released at device scope (R230),
mapped blocks written back, flow ends suspended, requests withdrawn. -/
def State.saveTeam (s : State) (t : Team) (k : Kernel) : State :=
  let refs := (List.range t.groups.length).map fun i => ({ team := t.sid, grp := i } : GRef)
  let live := refs.filter fun r => (s.group? r).any fun g => g.life != .exited
  let s1 : State := if k.nonRewindable then
      (live.foldl (fun s r => if (s.group? r).any Group.mqParked then s else (s.stopCommit r k).stopCommit r.shadow k) s).modTeam t.sid fun t =>
        { t with groups := t.groups.map Group.park299, shadows := t.shadows.map Group.park299 }
    else live.foldl (fun s r => s.flashbackPair r) s
  let s1 := refs.foldl (fun (s : State) r => s.publish r t.core 3) s1
  let s2 : State := match s1.team? t.sid with
    | some x => (x.mapped.filter fun m => !x.undo.any fun u => u.blk == m.off / 256).foldl (fun (s : State) m => s.recall t.sid m.off false) s1
    | none => s1
  let s3 := (s2.flows.filter fun f => f.team == t.sid).foldl (fun s f => s.suspendFlow f) s2
  let s4 := ((s3.holdCmds t.sid true).holdPave t.sid).modTeam t.sid fun t =>
    { t with ctx := .saved, requests := [], groups := t.groups.map (Group.offCore · s.stepNo),
             shadows := t.shadows.map (Group.offCore · s.stepNo) }
  let s5 := if t.moving then s4 else s4.requeue t.bezel k
  (s5.settleBezel t.bezel).judgeSaved t.bezel

/-- STOP_COMPLETE (R298, R299): every group has stopped; under SHADOW in a non-rewindable kernel the signatures are compared
first, and a mismatch flashes back. A pair whose leader's matrix queue is parked on a fault is saved as it is, without a commit, the
shadow where it has got to (R205); one whose leader is parked on an access that its shadow has passed goes back to its full
checkpoint (log entry 18). -/
def State.stopComplete (s : State) (sid : Nat) : Option State :=
  match s.team? sid with
  | none => none
  | some t =>
    match s.kernel? t.bezel t.kslot with
    | none => none
    | some k =>
      let granted := fun (c : Cmd) => c.by_.g.team == sid && !c.parked && (match c.what with
        | .xroute _ _ x => x.begun
        | _ => false)
      if t.ctx != .stopping || t.ended || s.cmds.any granted || !t.groups.all (fun g => g.stopped k.nonRewindable false) ||
          !t.shadows.all (fun g => g.stopped k.nonRewindable true) then none
      else if !(k.nonRewindable && recShadow k.record) then some (s.saveTeam t k)
      else
        let live := t.groups.zipIdx.filter fun (p : Group × Nat) => p.1.life != .exited && !p.1.mqParked
        let apart := live.find? fun (p : Group × Nat) => !(t.shadows[p.2]?).any fun h => p.1.samePoint h
        match apart with
        | some p => if p.1.wait.access then some (s.flashbackPair { team := sid, grp := p.2 }) else none
        | none =>
        if live.any fun (p : Group × Nat) => !p.1.drained then none
        else match live.find? fun (p : Group × Nat) =>
            (match t.shadows[p.2]? with
              | some h => (p.1.finalSig k).sig != (h.finalSig k).sig
              | none => false) with
          | some p =>
            let r : GRef := { team := sid, grp := p.2 }
            some (((s.modGroup r fun g => g.finalSig k).modGroup r.shadow fun g => g.finalSig k).mismatch r)
          | none => some (s.saveTeam t k)

/-- STOP_COMPLETE. -/
def execStopComplete (s : State) : Host.Outcome State Fault Refusal :=
  eventStep s "STOP_COMPLETE" fun e => match e with | .stopComplete t => s.stopComplete t | _ => none

/-- MASKED_HOLD_TIMEOUT (R300): a masked group of a rewindable kernel is flashed back and stops; one of a non-rewindable
kernel ends the team with PREEMPT_TIMEOUT. -/
def State.holdTimeout (s : State) (r : GRef) : Option State :=
  match s.team? r.team, s.group? r with
  | some t, some g =>
    match s.kernel? t.bezel t.kslot with
    | none => none
    | some k =>
      let passed := (s.arith - g.stopAt) / 720
      if r.sh || t.ctx != .stopping || t.ended || !g.masked || g.halted || g.life == .exited then none
      else if k.nonRewindable then
        if 2 ^ 20 ≤ passed then some (s.terminate r 18 18 g.report.tpc) else none
      else if passed < 65536 || g.ops.any (fun o => o.ck) then none
      else
        let stop := fun (s : State) (r : GRef) => s.modGroup r fun g => { g with halted := true }
        some (stop (stop ((s.modGroup r fun g => { g with life := if g.life == .trapped then .active else g.life }).flashbackPair r) r) r.shadow)
  | _, _ => none

/-- MASKED_HOLD_TIMEOUT. -/
def execMaskedHoldTimeout (s : State) : Host.Outcome State Fault Refusal :=
  eventStep s "MASKED_HOLD_TIMEOUT" fun e => match e with | .maskedHoldTimeout g => s.holdTimeout g | _ => none

/-! ### Restores (R297, R303) -/

/-- A saved team goes on on a core (R297, R303): its groups are ready there and have made the acquire of R230. -/
def State.restoreTeam (s : State) (t : Team) (core : Nat) : State :=
  let up := fun (g : Group) => { (g.acquireAt s.stepNo) with readySince := s.stepNo }
  let s1 := s.modTeam t.sid fun t =>
    { t with ctx := .running, reason := .none, core := core, moving := false, placedAt := s.stepNo, groups := t.groups.map up,
             shadows := t.shadows.map up }
  let s2 := { s1 with cmds := s1.cmds.map fun (c : Cmd) =>
    if c.by_.g.team == t.sid then { c with stopped := false, by_ := { c.by_ with core := core } } else c }
  (s2.flows.filter fun f => f.team == t.sid).foldl (fun s f => s.resumeFlow f (core / 64)) (s2.releasePave t.sid)

/-- A die has served a kernel (R76), which leaves its queue when nothing of it is left to place (R74). -/
def State.served (s : State) (d b pr slot : Nat) : State :=
  let s1 := s.modBezel b fun x =>
    { x with lastServed := (d, pr, slot, true) :: x.lastServed.filter fun (p : Nat × Nat × Nat × Bool) => !(p.1 == d && p.2.1 == pr) }
  match s1.kernel? b slot with
  | some k => if k.allPlaced && (s1.savedTeams b k).isEmpty then s1.modBezel b fun x => x.leaveQueue slot else s1
  | none => s1

/-- CONTEXT_RESTORE (R297): the dispatcher's choice is this saved team on this core, or the team moves to a core that
remains, where the other teams of a CORESIDENT kernel that stand on no core fit too (R75, R314). -/
def State.contextRestore (s : State) (sid core : Nat) : Option State :=
  match s.team? sid with
  | none => none
  | some t =>
    if t.ctx != .saved || t.ended then none
    else if t.moving then
      match s.kernel? t.bezel t.kslot, s.bezel? t.bezel with
      | some k, some b =>
        let s1 := s.restoreTeam t core
        if (s.restoreCore k t ((s.openCores b.num).filter (· == core)) == some core ||
            ((s.restoreCore k t (s.openCores b.num)).any fun c => c / 8 == core / 8 && (s.openCores b.num).contains core &&
              (s.room core).fits k.record 1)) && (!recCoresident k.record || s1.fitTogether s1.room b.num k (s1.openCores b.num)) then
          some s1
        else none
      | _, _ => none
    else match s.dispatchChoice (core / 64) with
      | some (b, pr, k, .restore x c) => if x = sid ∧ c = core then some ((s.restoreTeam t core).served (core / 64) b.num pr k.slot) else none
      | _ => none

/-- CONTEXT_RESTORE. -/
def execContextRestore (s : State) : Host.Outcome State Fault Refusal :=
  eventStep s "CONTEXT_RESTORE" fun e => match e with | .contextRestore t c => s.contextRestore t c | _ => none

end Sys2Proof.Machine
end

