-- ==== Sys2Proof/Machine/Mailbox.lean ====
section
/-! DEFINITION. Mailboxes (R64 to R73): opcodes 0xD8 to 0xDA, with SEAL, MAILBOX_FIELD_STORE, HOST_MAILBOX_WRITE and
OUTBOUND_PHASE_ADVANCE. -/

namespace Sys2Proof.Machine

open Sys2Proof

/-! ### The instructions (R70 to R73) -/

/-- A mailbox object of the issuing kernel's bezel (R70): a multiple of 32 in the bezel's mailbox block. -/
def mailboxArg (c : Ctx) (s : State) (kind : Acc) (ad : W64) : Except Stop (State × Obj) :=
  if ad.toNat % 32 ≠ 0 then .error (.trap ALIGN ad)
  else if ad.toNat < c.bez.mbox.toNat || c.bez.mbox.toNat + 2048 ≤ ad.toNat then .error (.trap PROT ad)
  else counterAt c s kind ad

/-- The lanes of an `mbrecv` (R71): the message in lanes 0 to 15, the status in lane 16, the slot in lane 17. -/
def recvLanes (msg : List Byte) (st slot : Nat) : Lanes := Lanes.of fun i =>
  if i < 16 then (if st = 0 then BitVec.ofNat 32 (leNat (slice msg (4 * i) 4)) else 0)
  else if i = 16 then BitVec.ofNat 32 st
  else if i = 17 && st = 0 then BitVec.ofNat 32 slot
  else 0

/-- One message taken from an inbound mailbox as one operation (R71): the state, the status, the slot, the message, and
whether its sector is poisoned. The message of a slot whose page translates no more is free. -/
def State.mbTake (s : State) (b : Bezel) (o : Obj) : State × Nat × Nat × List Byte × Bool :=
  let head := s.mbHead o
  if s.mbDir o || !s.mbEnable o then (s, 2, 0, [], false)
  else if s.objPhase o = head then (s, 1, 0, [], false)
  else
    let slot := head.toNat % 256
    let s1 := s.objWrite o 4 (leBytes (head + 1).toNat 4)
    match s.mbSlot b o slot with
    | some pa => (s1, 0, slot, s.homeBytes pa 64, s.poisoned (pa / 256))
    | none => (s1, 0, slot, (List.range 64).map fun i => s.freeAt (2 ^ 78 + i), false)

/-- `mbrecv` (R71): the task commits, and one message is taken as one operation. A poisoned slot kills the lanes that would
receive it (R361). -/
def execMbrecv (d a : BitVec 8) (s : State) : Host.Outcome State Fault Refusal :=
  issue (.mbrecv d a) s fun c s =>
    if c.em = 0 then classA c s fun s => instantA c s
    else if c.g.sh then do
      let s1 ← boundary c s false
      takeLvq c s1
    else do
      gateA c s
      let (s1, o) ← mailboxArg c s .sync (c.s a)
      let s2 := (← boundary c s1 false).publish c.g c.core 3
      let floor := s2.releasedAt o c.core fun _ => true
      let (s3, st, slot, msg, bad) := s2.mbTake c.bez o
      let s4 := if bad then s3.killEach c.g ((lanesOf (c.em &&& 0xFFFF)).map fun i => (i, c.s a)) else s3
      let mask := if bad then c.em &&& 0xFFFF0000 else c.em
      let s5 := if st = 0 then c.mod s4 fun g => g.acquireAt floor else s4
      issueA c s5 [.vec d mask (recvLanes msg st slot) .g] .ready true

/-- `mbsend` (R72): lanes 0 to 13 are the body, whatever EM holds in them; held with the version. -/
def execMbsend (d a b : BitVec 8) (s : State) : Host.Outcome State Fault Refusal :=
  issue (.mbsend d a b) s fun c s =>
    let x := (c.s b).toNat
    (fun s => signData c s (if c.em = 0 then 0 else 0x3FFF) (c.v d)) <$> classB c s [c.s a, c.s b] fun s =>
      if c.em = 0 then instantB c s .ok
      else if bits x 63 33 ≠ 0 then .error (.trap ILLOPERAND)
      else do
        gateB c s
        let (s1, o) ← mailboxArg c s .sync (c.s a)
        let body := (List.range 14).flatMap fun i => leBytes ((c.v d).l.lane i).toNat 4
        defer c s1 (.mbsend o body ((c.s b).setWidth 32) (x.testBit 32))

/-- What `mbpeek` reads (R73). -/
def State.mbPeek (s : State) (o : Obj) (f : Nat) : W64 :=
  let n := (s.objPhase o - s.mbHead o).toNat
  match f with
  | 0 => BitVec.ofNat 64 n
  | 1 => 256 - BitVec.ofNat 64 n
  | 2 => (s.objPhase o).setWidth 64
  | 3 => (s.mbHead o).setWidth 64
  | _ => BitVec.ofNat 64 ((s.mbRejects o).toNat + if s.mbOverrun o then 2 ^ 32 else 0)

/-- `mbpeek` (R73). -/
def execMbpeek (d a f : BitVec 8) (s : State) : Host.Outcome State Fault Refusal :=
  issue (.mbpeek d a f) s fun c s => classA c s fun s =>
    if c.em = 0 then instantA c s
    else do
      gateA c s
      let (s1, o) ← mailboxArg c s .syncRead (c.s a)
      issueA c s1 [.scal (sdstNum d) (s1.mbPeek o f.toNat)] .ready false

/-! ### Audit (R359, R376) -/

/-- An audit event for a bezel: it joins the undelivered record of its kind, or begins one. -/
def State.audit (s : State) (bezel kind : Nat) (addr : W64) : State :=
  if s.audits.any fun a => a.bezel == bezel && a.kind == kind then
    { s with audits := s.audits.map fun (a : Audit) => if a.bezel == bezel && a.kind == kind then { a with count := a.count + 1 } else a }
  else { s with audits := s.audits ++ [{ bezel := bezel, kind := kind, addr := addr, count := 1 }] }

/-- A host access to a tenant sector (R359, R376): one event, and an audit record of the bezel to which the slot is
sealed. `kind`: 1 read, 2 write. -/
def State.blocked (s : State) (owner kind addr : Nat) : State :=
  let a := BitVec.ofNat 64 addr
  let s1 := s.locket (dieOfPa addr) 5 kind 0 a
  match (s.keySlot owner).sealed with
  | some b => s1.audit b kind a
  | none => s1

/-- A host write over CXL.mem at a fabric address: discarded while there is no open key, blocked at a tenant's sector, else `f`
(R359, R372). -/
def State.hostOpen (s : State) (pa : Nat) (f : State → State) : State :=
  if s.host.entropy then s
  else if (s.sidecar (pa / 256)).owner ≠ 0 then s.blocked (s.sidecar (pa / 256)).owner 2 (pa % 2 ^ 40)
  else f s

/-! ### Arrival (R67, R68) -/

/-- A host write that touches the seal word of slot `slot` of an enabled inbound mailbox (R67). `data` stands at byte
`off` of the slot. A rejected seal leaves the slot as it was. -/
def State.sealSlot (s : State) (b : Bezel) (o : Obj) (slot : Nat) (data : List Byte) (off : Nat) : State :=
  let va := (s.mbRing o) + BitVec.ofNat 64 (64 * slot)
  if 56 < off || off + data.length < 64 then s.locket o.die 9 0x0502 0 va
  else match s.mbSlot b o slot with
    | none => s
    | some pa =>
      let word := (slice data (56 - off) 8)
      let seq : W32 := BitVec.ofNat 32 (leNat (slice word 4 4))
      let d := (seq - s.mbHead o).toNat
      let e := (seq - s.objPhase o).toNat
      if slot ≠ (seq - 1).toNat % 256 || d = 0 || 256 < d || e = 0 || 2 ^ 31 < e then s.mbReject o
      else State.mbAdvance b o 256 (s.landSector [(pa + off, data)] 0 none 0)

/-- SEAL; the mailbox of a MIGRATING page takes none (R316). -/
def State.sealArrival (s : State) (b m slot : Nat) (data : List Byte) (off : Nat) : Option State :=
  match s.bezel? b with
  | none => none
  | some bz =>
    if 64 ≤ m || 256 ≤ slot || 64 < off + data.length || off + data.length ≤ 56 || data.isEmpty then none
    else match s.mailbox bz m with
      | none => none
      | some o =>
        if s.objMoving o || s.mbDir o || !s.mbEnable o then none
        else match s.mbSlot bz o slot with
          | some pa => some (s.hostOpen pa fun s => s.sealSlot bz o slot data off)
          | none => none

/-- SEAL (R67). -/
def execSealArrival (s : State) : Host.Outcome State Fault Refusal :=
  eventStep s "SEAL" fun e => match e with
    | .sealArrival b m slot data off => s.sealArrival b m slot data off
    | _ => none

/-- MAILBOX_FIELD_STORE (R65): a device store to a mailbox object, applied as one operation at its home. -/
def execMailboxFieldStore (s : State) : Host.Outcome State Fault Refusal :=
  eventStep s "MAILBOX_FIELD_STORE" fun e => match e with
    | .mailboxFieldStore b m off data h => (s.bezel? b).bind fun bz =>
        if 64 ≤ m || 32 < off + data.length || data.isEmpty then none
        else ((s.mailbox bz m).filter fun o => !s.objMoving o).map fun o => s.mailboxStore bz o off data h
    | _ => none

/-- A host write to a mailbox object (R65): only the HEAD of an outbound mailbox is written. -/
def State.hostMailbox (s : State) (o : Obj) (off : Nat) (data : List Byte) : State :=
  if s.mbDir o && 4 ≤ off && off + data.length ≤ 8 then s.objWrite o off data else s.locket o.die 9 0x0501 0 o.va

/-- HOST_MAILBOX_WRITE (R65). -/
def execHostMailboxWrite (s : State) : Host.Outcome State Fault Refusal :=
  eventStep s "HOST_MAILBOX_WRITE" fun e => match e with
    | .hostMailboxWrite b m off data => (s.bezel? b).bind fun bz =>
        if 64 ≤ m || 32 < off + data.length || data.isEmpty then none
        else ((s.mailbox bz m).filter fun o => !s.objMoving o).map fun o => match o with
          | .glob pa _ _ => s.hostOpen pa fun s => s.hostMailbox o off data
          | .stash _ _ _ => s
    | _ => none

/-- OUTBOUND_PHASE_ADVANCE (R72): CXL.cache has completed the writes of the oldest message of an outbound mailbox; PHASE
rises, MSI-X is sent where asked, and the flag of the `mbsend` is lowered. -/
def State.outboundAdvance (s : State) (b m : Nat) : Option State :=
  match (s.bezel? b).bind fun bz => s.mailbox bz m with
  | none => none
  | some o =>
    match (s.host.outbound.find? fun p => (s.homeOf p.1).place == o.place).filter fun _ => !s.objMoving o with
    | none => none
    | some (o', n, irq, r, op) =>
      let s1 := (s.objWrite o 0 (leBytes n.toNat 4)).noteRelease o 0 0 3
      let msix := if irq || s.mbIrq o then [HostOut.msix (s.mbVector o)] else []
      let s2 := { s1 with host := { s1.host with outbound := s1.host.outbound.erase (o', n, irq, r, op), out := msix ++ s1.host.out } }
      some (s2.modGroup r fun g => g.dropOp op)

/-- OUTBOUND_PHASE_ADVANCE. -/
def execOutboundPhaseAdvance (s : State) : Host.Outcome State Fault Refusal :=
  eventStep s "OUTBOUND_PHASE_ADVANCE" fun e => match e with | .outboundPhaseAdvance b m => s.outboundAdvance b m | _ => none

end Sys2Proof.Machine
end

