-- ==== Sys2Proof/Machine/Kernel.lean ====
section
/-! DEFINITION. Kernels (R78 to R87, R377): opcodes 0xDC to 0xDF, with TEAM_DISPATCH and RETIREMENT_COMPLETE. -/

namespace Sys2Proof.Machine

open Sys2Proof

/-! ### Refusal (R81) -/

/-- A role doubleword breaks R79. -/
def roleBad (x : W64) : Bool :=
  if roleGroups x = 0 then x != 0
  else bits x.toNat 63 40 ≠ 0 || roleVregs x % 8 ≠ 0 || roleVregs x < 8 || roleVmax x % 8 ≠ 0 || roleVmax x < roleVregs x ||
    192 < roleVmax x || 16 < roleTiles x || roleTmax x < roleTiles x || 16 < roleTmax x

/-- A must-be-zero bit of a launch record is set (R78). -/
def recordMbz (r : List Byte) : Bool :=
  (dword r 8).getLsbD 63 || bits (dword r 96).toNat 23 21 ≠ 0 || bits (dword r 96).toNat 31 28 ≠ 0 ||
  bits (dword r 96).toNat 39 35 ≠ 0 || bits (dword r 96).toNat 63 49 ≠ 0 || bits (dword r 104).toNat 31 24 ≠ 0 ||
  bits (dword r 104).toNat 63 36 ≠ 0 || (slice r 176 80).any (· != 0)

/-- An instruction address is misaligned or outside the address space. -/
def codeBad (a : W64) : Bool := a.toNat % 4 ≠ 0 || 2 ^ 57 ≤ a.toNat

/-- The RECORD conditions of R81 on the record itself. -/
def recordBad (r : List Byte) : Bool :=
  recordMbz r || codeBad (recCode r) || codeBad (recHandler r) || (recArgs r).toNat % 8 ≠ 0 || (recRecipes r).toNat % 8 ≠ 0 ||
  recVbound r = 0 || (List.range 4).any fun n => roleBad (recRole r n)

/-- The recipe table's first doubleword and entry 0 break R282, or entry 0 names a register at or above the VREGS of a
present role (R81). -/
def recipe0Bad (r tab : List Byte) : Bool :=
  recRecipes r != 0 &&
  (let n := (dword tab 0).toNat
   let e := slice tab 8 32
   n = 0 || 256 < n || recipeBad e ||
   (List.range 4).any fun i => roleGroups (recRole r i) ≠ 0 && (vlistOf e).any fun v => roleVregs (recRole r i) ≤ v)

/-- A format slot breaks R40. -/
def fslotBad (x : W64) : Bool :=
  let f := bits x.toNat 3 0
  let es := bits x.toNat 5 4
  let bias := bits x.toNat 15 8
  bits x.toNat 63 17 ≠ 0 || bits x.toNat 7 6 ≠ 0 || 6 < f ||
  (if f = 2 then 2 < es else if f = 3 then 1 < es else es ≠ 0 || bias ≠ 0)

/-- A counter of the record is unusable (R81, R377). -/
def State.ctrBad (s : State) (b : Bezel) (r : List Byte) : Bool :=
  let use := fun (ad : W64) (done : Bool) => ad != 0 && (match s.ctrUse b (recKey r % 4096) ad done with | .bad => true | _ => false)
  use (recDepCtr r) false || use (recDoneCtr r) true

/-- A key handle is valid for a launch in a bezel (R354). -/
def State.keyOk (s : State) (b key : Nat) : Bool :=
  key / 4096 = b && key % 4096 ≠ 0 &&
  s.keys.any fun k => k.slot == key % 4096 && k.sealed == some b && (k.st == .generating || k.st == .ready)

/-- The bezel has a kernel slot that no kernel occupies (R84). -/
def Bezel.hasSlot (b : Bezel) : Bool := b.nextSlot < 1024 || !b.freed.isEmpty

/-- The code of the first failing check of R81, 0 for none. `super`: the record may set SUPER. -/
def State.refusal (s : State) (b : Bezel) (r tab : List Byte) (super : Bool) : Nat :=
  let grid := recTeams r
  if !b.hasSlot then 10
  else if recordBad r || recipe0Bad r tab || s.ctrBad b r then 1
  else if recSuper r && !super then 9
  else if (List.range 8).any fun n => fslotBad (recFslot r n) then 3
  else if recGridX r = 0 || recGridY r = 0 || recGridZ r = 0 || 2 ^ 32 ≤ grid then 4
  else if recCluster r = 0 || 8 < recCluster r || recGridX r % recCluster r ≠ 0 then 6
  else if recGroups r = 0 || 32 < recGroups r || !(s.openCores b.num).any (fun c => (List.range 4).all fun q => (footprint r q).within (s.subCap c q)) then 2
  else if recStash r % 256 ≠ 0 || coreStash < stashNeed r then 5
  else if recCoresident r && !allFit s.emptyRoom r (s.openCores b.num) grid then 11
  else if !s.keyOk b.num (recKey r) then 7
  else 0

/-! ### The life of a kernel (R82 to R84) -/

/-- A RECORDED kernel whose key slot holds a key joins its queue (R82, R74). -/
def State.tryAdmit (s : State) (b slot : Nat) : State :=
  match s.kernel? b slot with
  | none => s
  | some k =>
    if k.st == .recorded && s.keys.any fun x => x.slot == recKey k.record % 4096 && x.st == .ready then
      ((s.modKernel b slot fun k => { k with st := .admitted }).modBezel b fun x =>
        { x with queues := x.queues ++ [(recPriority k.record, slot)] }).testDep b slot
    else s

/-- A kernel created from a record that passed R81 (R84, R85): the oldest free slot and the next SEQ. -/
def State.newKernel (s : State) (b : Bezel) (r tab : List Byte) (recAddr : W64) (comp : Option Nat) : State × Nat × W32 :=
  let fresh := b.nextSlot < 1024
  let slot := if fresh then b.nextSlot else b.freed.headD 0
  let k : Kernel :=
   { slot := slot, seq := b.nextSeq, st := .recorded, record := r, recipe0 := tab, recAddr := recAddr, comp := comp, acq := s.stepNo }
  (s.modBezel b.num fun x =>
    { x with kernels := x.kernels.filter (fun y => y.slot != slot) ++ [k], nextSeq := x.nextSeq + 1,
             nextSlot := if fresh then x.nextSlot + 1 else x.nextSlot, freed := if fresh then x.freed else x.freed.tail },
   slot, b.nextSeq)

/-- The final state of a kernel whose retirement is done (R82). -/
def Kernel.ending (k : Kernel) : KState :=
  if k.err = 8 then .refused else if k.cancel then .cancelled else if k.err ≠ 0 then .failed
  else if k.lost ≠ 0 then .completePartial else .complete

/-- The status of a compensator by its ending (R330). -/
def Kernel.compStatus (k : Kernel) : W32 :=
  match k.ending with
  | .complete => (match k.acret with | some x => x | none => 0xFFFFFFFF)
  | .completePartial => 0x80000020
  | .cancelled => 0x80000021
  | .refused => 0x80000100 + BitVec.ofNat 32 k.err
  | _ => 0x80000000 + BitVec.ofNat 32 k.err

/-- The completion of a kernel's ticket, through a fresh translation of DONECTR (R83, R377): done or dropped, or waiting until the
page has returned or the migration has ended. -/
def State.doneTicket (s : State) (b : Bezel) (k : Kernel) : State × Bool :=
  if k.ticket = 0 then (s, true)
  else if k.doneMigr || b.kernelJoined k.slot (recDoneCtr k.record) then (s, false)
  else match s.ctrUse b (recKey k.record % 4096) (recDoneCtr k.record) true with
    | .ok o => (s.completeTicket (some (o, k.ticket)), true)
    | .bad => (s.locket b.die 9 0x0600 (handleOf b.num k.slot k.seq) (recDoneCtr k.record), true)
    | .migrating => (s.modKernel b.num k.slot fun k => { k with doneMigr := true }, false)
    | .wait c l => (s.ctrFault b k (recDoneCtr k.record) c l true, false)

/-- A kernel reaches its final state (R82, R84), unless its ticket must wait: then it stays DRAINING. The slot is free from
now on; activities that it opened are abandoned (R324), and a compensator's status goes to its activity (R330). -/
def State.endKernel (s : State) (bn slot : Nat) : State :=
  match s.bezel? bn, s.kernel? bn slot with
  | some b, some k =>
    let (s1, done) := s.doneTicket b k
    if !done then (s1.modKernel bn slot fun k => { k with st := .draining }).modBezel bn fun x => x.leaveQueue slot
    else
      let s2 := (s1.modKernel bn slot fun x => { x with st := k.ending }).modBezel bn fun x =>
        { x.leaveQueue slot with freed := x.freed ++ [slot] }
      let s3 := { s2 with
        teams := s2.teams.filter fun t => !(t.bezel == bn && t.kslot == slot && t.kseq == k.seq)
        acts := s2.acts.map fun (a : Activity) =>
          if a.bezel == bn && a.kslot == slot && a.kseq == k.seq && a.st == AState.opened then { a with st := AState.abandoning }
          else if k.comp == some a.slot && a.bezel == bn && a.running == some slot then { a with ended := some k.compStatus } else a }
      s3.settleActs.settleBezel bn
  | _, _ => s

/-- `kcancel` at the home sync engine (R82, R87). -/
def State.cancelKernel (s : State) (b slot : Nat) : State :=
  match s.kernel? b slot with
  | none => s
  | some k =>
    match k.st with
    | .recorded => (s.modKernel b slot fun k => { k with cancel := true }).endKernel b slot
    | .admitted => (s.modKernel b slot fun k => { k with cancel := true }).endKernel b slot
    | .running => s.stopKernel b slot 0 true
    | _ => s

/-! ### launch (R85) -/

/-- A page of a counter that the record names makes `launch` wait (R377): the group parks, on a MIGRATING page as a
writer. -/
def parkOnCtr (c : Ctx) (s : State) (r : List Byte) (ad : W64) (done : Bool) : Except Stop Unit :=
  if ad = 0 then .ok ()
  else match s.ctrUse c.bez (recKey r % 4096) ad done with
    | .wait cause level => .error (.done (s.parkGroup c ad cause level done false))
    | .migrating => .error (.done (s.modGroup c.g (Group.park · .migrating)))
    | _ => .ok ()

/-- The recipe table's first doubleword and entry 0, read with the record (R85). -/
def readRecipe0 (c : Ctx) (s : State) (r : List Byte) : Except Stop (State × List Byte) :=
  if recRecipes r = 0 ∨ (recRecipes r).toNat % 8 ≠ 0 then .ok (s, [])
  else do
    let (s1, x) ← readDwords c s (recRecipes r) 1
    let (s2, e) ← readDwords c s1 (recRecipes r + 32) 4
    .ok (s2, x ++ e)

/-- The kernel of an accepted `launch`: created, its ticket drawn, its results on their way (R85). -/
def launchKernel (c : Ctx) (s : State) (d : BitVec 8) (r tab : List Byte) (recAddr : W64) : Res :=
  let n := sdstNum d
  let (s1, slot, seq) := s.newKernel c.bez r tab recAddr none
  let h := handleOf c.bez.num slot seq
  let go := fun (s : State) (t : W64) => (issueA c s [.scal n h, .scal (n + 1) t] .ready true).map fun s => s.tryAdmit c.bez.num slot
  if recDoneCtr r = 0 then go s1 0
  else match s1.ctrUse c.bez (recKey r % 4096) (recDoneCtr r) true with
    | .ok o =>
      (match s1.draw o h with
       | .ticket t s2 => go (s2.modKernel c.bez.num slot fun k => { k with ticket := t }) t
       | .wait =>
         (issueA c (s1.modKernel c.bez.num slot fun k => { k with drawn := false }) [.scal n h, .scal (n + 1) 0]
           (.draw o (.kernel c.bez.num slot seq) (n + 1)) true).map fun s => s.tryAdmit c.bez.num slot)
    | _ => go s1 0

/-- `launch` (R85). -/
def execLaunch (d a : BitVec 8) (s : State) : Host.Outcome State Fault Refusal :=
  issue (.launch d a) s fun c s =>
    if c.em = 0 then classA c s fun s => instantA c s
    else if c.g.sh then do
      let s1 ← boundary c s false
      takeLvq c s1
    else if (c.s a).toNat % 256 ≠ 0 then .error (.trap ALIGN (c.s a))
    else do
      gateA c s
      let (s1, r) ← readRecord c s (c.s a) 256
      let (s2, tab) ← readRecipe0 c s1 r
      if c.bez.hasSlot && !recordBad r && !recipe0Bad r tab && !s2.ctrBad c.bez r then
        parkOnCtr c s2 r (recDepCtr r) false
        parkOnCtr c s2 r (recDoneCtr r) true
      let s3 := (← boundary c s2 false).publish c.g c.core 3
      let code := s3.refusal c.bez r tab (recSuper c.kern.record)
      if code ≠ 0 then
        issueA c s3 [.scal (sdstNum d) (BitVec.ofNat 64 (2 ^ 63 + code)), .scal (sdstNum d + 1) 0] .ready true
      else launchKernel c s3 d r tab (c.s a)

/-! ### kquery, kcancel, kpreempt (R86, R87) -/

/-- The kernel that a handle names in a bezel (R86). -/
def Bezel.byHandle (b : Bezel) (h : W64) : Option Kernel :=
  b.kernels.find? fun k => handleOf b.num k.slot k.seq == h

/-- The teams of a kernel. -/
def State.teamsOf (s : State) (b : Nat) (k : Kernel) : List Team :=
  s.teams.filter fun t => t.bezel == b && t.kslot == k.slot && t.kseq == k.seq && !t.ended

/-- What `kquery` reads (R86). -/
def State.kqueryWord (s : State) (b : Bezel) (h : W64) (f : Nat) : W64 :=
  match b.byHandle h with
  | none => if f = 0 then 15 else 0
  | some k =>
    match f with
    | 0 => BitVec.ofNat 64 (k.st.code + k.err * 2 ^ 8 + k.lost.toNat * 2 ^ 32)
    | 1 => BitVec.ofNat 64 k.exitedTeams
    | 2 => k.ticket
    | 3 => BitVec.ofNat 64 ((s.teamsOf b.num k).filter Team.placed).length
    | _ => BitVec.ofNat 64 ((s.teamsOf b.num k).filter fun t => t.ctx == .saved).length

/-- `kquery` (R86). It reads and writes whatever EM holds (log entry 53). -/
def execKquery (d a f : BitVec 8) (s : State) : Host.Outcome State Fault Refusal :=
  issue (.kquery d a f) s fun c s => classA c s fun s => do
    gateA c s
    issueA c s [.scal (sdstNum d) (s.kqueryWord c.bez (c.s a) f.toNat)] .ready false

/-- The target of a `kcancel` or `kpreempt` whose event has an effect (R87). -/
def Ctx.target (c : Ctx) (h : W64) : Option Kernel :=
  match c.bez.byHandle h with
  | none => none
  | some k =>
    if k.slot = c.kern.slot ∧ k.seq = c.kern.seq then none
    else if !recSuper c.kern.record && (recSuper k.record || recKey k.record != recKey c.kern.record) then none
    else some k

/-- An instruction that delivers one event to a kernel's home (R87): the task commits first; an event without effect is
recorded. -/
def kernelOp (i : Instr) (op : Nat) (a : BitVec 8) (f : Ctx → State → Kernel → State) (s : State) : Host.Outcome State Fault Refusal :=
  issue i s fun c s =>
    if c.em = 0 then classB c s [c.s a] fun s => instantB c s .ok
    else do
      if !c.g.sh then gateB c s
      let s1 ← boundary c s false
      classB c s1 [c.s a] fun s =>
        let s := s.publish c.g c.core 3
        match ({ c with bez := (s.bezel? c.bez.num).getD c.bez } : Ctx).target (c.s a) with
        | some k => .ok (f c s k)
        | none => .ok (s.locket c.bez.die 9 (0x0100 + op) c.handle (c.s a))

/-- `kcancel` (R87). -/
def execKcancel (a : BitVec 8) (s : State) : Host.Outcome State Fault Refusal :=
  kernelOp (.kcancel a) 0xDE a (fun c s k => s.cancelKernel c.bez.num k.slot) s

/-- The resident teams of a RUNNING kernel stopped, to be saved or rewound (R87). -/
def State.preemptSave (s : State) (b : Nat) (k : Kernel) : State :=
  if k.st != .running then s
  else
    let ts := (s.teamsOf b k).filter fun t => t.ctx == .running
    let s1 := ts.foldl (fun s t => s.stopTeam t.sid) s
    if ts.isEmpty then s1 else s1.requeue b k

/-- A number put in a rising list. -/
def insertNat (n : Nat) : List Nat → List Nat
  | [] => [n]
  | x :: l => if n ≤ x then n :: x :: l else x :: insertNat n l

/-- The sends of a flow end stop at the link engine, for the team that issued them ends unsaved (R87; log entry 17). The end stays,
and follows the team when it is placed again. -/
def FlowEnd.stopSends (f : FlowEnd) : FlowEnd :=
  { f with queue := f.queue.filter fun c => (match c with | .send _ _ _ _ => false | .reseed _ _ => true), cur := none }

/-- A team discarded, to be run again from its start (R87): its tasks are discarded and its commands stop. -/
def State.discardTeam (s : State) (b : Nat) (k : Kernel) (t : Team) : State :=
  let s1 := (s.haltTeam t).holdPave t.sid
  let s2 := { s1 with
    teams := s1.teams.filter fun x => x.sid != t.sid
    cmds := s1.cmds.filter fun c => c.by_.g.team != t.sid
    pvCmds := s1.pvCmds.filter fun c => c.by_.g.team != t.sid
    flows := s1.flows.map fun (f : FlowEnd) => if f.team == t.sid then f.stopSends else f }
  s2.modKernel b k.slot fun x => { x with requeued := insertNat t.tid x.requeued }

/-- The resident teams of a RUNNING and RESTARTABLE kernel discarded (R87). -/
def State.preemptDiscard (s : State) (b : Nat) (k : Kernel) : State :=
  if !recRestartable k.record then s.preemptSave b k
  else if k.st != .running then s
  else
    let ts := (s.teamsOf b k).filter fun t => t.ctx == .running
    let s1 := ts.foldl (fun s t => s.discardTeam b k t) s
    if ts.isEmpty then s1 else (s1.requeue b k).settleBezel b

/-- `kpreempt` fn 0 (R87). -/
def execKpreemptSave (a : BitVec 8) (s : State) : Host.Outcome State Fault Refusal :=
  kernelOp (.kpreemptSave a) 0xDF a (fun c s k => s.preemptSave c.bez.num k) s

/-- `kpreempt` fn 1 (R87). -/
def execKpreemptDiscard (a : BitVec 8) (s : State) : Host.Outcome State Fault Refusal :=
  kernelOp (.kpreemptDiscard a) 0xDF a (fun c s k => s.preemptDiscard c.bez.num k) s

/-! ### Placing teams (R74 to R76, R89, R90) -/

/-- A group at its placement (R89, R90), with its first checkpoint (R281, R290). -/
def startGroup (k : Kernel) (tid n now : Nat) : Group :=
  let role := roleOf k.record n
  let x := recRole k.record role.1
  let pre := preScalars k tid n
  let sval := fun (i : Nat) => if i = 30 then 0xFFFFFFFF else match pre.find? (fun p => p.1 == i) with | some p => p.2 | none => 0
  let g : Group :=
   { num := n, role := role.1, roleIdx := role.2, vmax := roleVmax x, tmax := roleTmax x, readySince := now,
     s := Vector.ofFn fun i => sval i.val,
     v := (List.range (roleVregs x)).map fun i => if i = 0 then (preV0 k tid n).getD {} else {},
     t := List.replicate (roleTiles x) {}, pcA := { hdr := (recCode k.record).setWidth 57 }, bound := recVbound k.record,
     ver := { allocStart := roleVregs x, tilesStart := roleTiles x }, acquire := k.acq,
     entry := if recRecipes k.record = 0 then [] else k.entry0 }
  if flashesBack k.record then g.setCkpt (g.checkpoint g.entry (fullCkpt k.record) g.pcA .a) else g

/-- A team placed on a core (R88, R89): LOADING ends at once, and its groups are PENDING. -/
def State.placeTeam (s : State) (b : Nat) (k : Kernel) (tid core : Nat) : State :=
  let gs := (List.range (recGroups k.record)).map fun n => startGroup k tid n s.stepNo
  let t : Team :=
   { sid := s.nextSid, bezel := b, kslot := k.slot, kseq := k.seq, tid := tid, core := core, groups := gs,
     shadows := if recShadow k.record then gs else [], placedAt := s.stepNo }
  { s with
    teams := s.teams ++ [t], nextSid := s.nextSid + 1
    flows := s.flows.map fun (f : FlowEnd) => if f.handle == handleOf b k.slot k.seq && f.tid == tid then { f with team := t.sid, die := core / 64 } else f }

/-- Team ids claimed at the kernel's home (R76). -/
def Kernel.claim (k : Kernel) (tids : List Nat) : Kernel :=
  { k with requeued := k.requeued.filter fun i => !tids.contains i,
           nextTid := tids.foldl (fun n i => max n (i + 1)) k.nextTid,
           st := if k.st == .admitted then .running else k.st }

/-- A bezel whose dispatcher's first team has been placed is ACTIVE (R310). -/
def State.formed (s : State) (bn : Nat) : State :=
  match s.bezel? bn with
  | none => s
  | some b => if b.st == .forming then (s.modBezel bn fun x => { x with st := .active, ticket := none }).completeTicket b.ticket else s

/-- The draw of a kernel's ticket that no group waits for any more is tried again (R189): the launch of a dispatcher, or one
whose group has gone. -/
def State.drawKernel (s : State) (bn slot : Nat) : State :=
  match s.bezel? bn, s.kernel? bn slot with
  | some b, some k =>
    let waits := s.teams.any fun t => t.groups.any fun g => g.ops.any fun o => match o.what with
      | .draw _ (.kernel x y q) _ => x == bn && y == slot && q == k.seq
      | _ => false
    if k.drawn || waits || k.st.final then s
    else match s.ctrUse b (recKey k.record % 4096) (recDoneCtr k.record) true with
      | .ok o => (match s.draw o (handleOf bn slot k.seq) with
        | .ticket t s1 => s1.modKernel bn slot fun x => { x with ticket := t, drawn := true }
        | .wait => s)
      | _ => s
  | _, _ => s

/-- The draws of kernels that waited tried again (R189). -/
def State.drawKernels (s : State) : State :=
  s.bezels.foldl (fun s b => b.kernels.foldl (fun s k => s.drawKernel b.num k.slot) s) s

/-- TEAM_DISPATCH (R76): the dispatcher of a die places the teams that it chooses. A draw that is made shows in its bezel. -/
def State.teamDispatch (s : State) (die : Nat) : Option State :=
  let s0 := s.drawKernels
  match s0.dispatchChoice die with
  | some (b, pr, k, .fresh l) =>
    let s1 := l.foldl (fun s p => s.placeTeam b.num k p.1 p.2) s0
    let s2 := s1.modKernel b.num k.slot fun k => k.claim (l.map (·.1))
    some ((s2.formed b.num).served die b.num pr k.slot)
  | _ => if s0.bezels = s.bezels then none else some s0

/-- TEAM_DISPATCH. -/
def execTeamDispatch (s : State) : Host.Outcome State Fault Refusal :=
  eventStep s "TEAM_DISPATCH" fun e => match e with | .teamDispatch d => s.teamDispatch d | _ => none

/-! ### Retirement (R83) -/

/-- What retirement waits for has ended (R83): teams, posted stores, engine commands and flow ends. -/
def State.drainedKernel (s : State) (b : Nat) (k : Kernel) : Bool :=
  (s.teamsOf b k).isEmpty && !(s.posted.any fun p => p.kernel == (b, k.slot) && p.sig.isNone) &&
  !(s.cmds.any fun c => c.by_.bezel == b && c.by_.kslot == k.slot) &&
  !(s.pvCmds.any fun c => c.by_.bezel == b && c.by_.kslot == k.slot) &&
  !(s.flows.any fun f => f.bezel == b && f.kslot == k.slot)

/-- RETIREMENT_COMPLETE (R83). -/
def State.retire (s : State) (b slot : Nat) : Option State :=
  match s.kernel? b slot with
  | none => none
  | some k => if k.st != .draining || !s.drainedKernel b k then none else some (s.endKernel b slot)

/-- RETIREMENT_COMPLETE. -/
def execRetirementComplete (s : State) : Host.Outcome State Fault Refusal :=
  eventStep s "RETIREMENT_COMPLETE" fun e => match e with | .retirementComplete b k => s.retire b k | _ => none

end Sys2Proof.Machine
end

