-- ==== Sys2Proof/Machine/Activity.lean ====
section
/-! DEFINITION. Clasped activities (R320 to R338): opcodes 0xE0 to 0xE6, with COMPENSATOR_LAUNCH and COMPENSATOR_RETIRE. -/

namespace Sys2Proof.Machine

open Sys2Proof

/-! ### Opening (R321, R333) -/

/-- MAXSTEPS. -/
def arMax (r : List Byte) : Nat := bits (dword r 0).toNat 11 0
/-- TEMPLATE. -/
def arTemplate (r : List Byte) : W64 := dword r 8
/-- STAGE. -/
def arStage (r : List Byte) : W64 := dword r 16
/-- DONECTR. -/
def arDone (r : List Byte) : W64 := dword r 24

/-- The RECORD conditions of R333 on the record itself. -/
def actRecordBad (r : List Byte) : Bool :=
  (slice r 32 32).any (· != 0) || bits (dword r 0).toNat 63 12 ≠ 0 || arMax r = 0 || (arTemplate r).toNat % 256 ≠ 0 ||
  (arStage r).toNat % 64 ≠ 0 || (arDone r).toNat % 32 ≠ 0 || isWindow (arStage r) || badVa (arStage r)

/-- An address that `aopen` or `bzreq` tests for an access of kind `k` (R312, R333): the state with translations cached, and its
place; none when the access may not be made. A page that is not there parks the group. -/
def testAt (k : Acc) (c : Ctx) (s : State) (ad : W64) : Except Stop (State × Option Place) :=
  if badVa ad || isWindow ad then .ok (s, none)
  else match s.place c.team c.kern c.bez k ad with
    | .ok p => .ok (s.touch c.bez c.core [ad], some p)
    | .park ca l => .error (.done (s.parkGroup c ad ca l true false))
    | .migrating => .error (.done (s.modGroup c.g (Group.park · .migrating)))
    | _ => .ok (s, none)

/-- The place of a counter in a SYNC page. -/
def Place.counter : Option Place → Option Obj
  | some (.glob pa true ow va) => some (.glob pa va ow)
  | _ => none

/-- An accepted `aopen` (R320, R324, R333): the slot, the handle and the ticket. -/
def openActivity (c : Ctx) (s : State) (d : BitVec 8) (r : List Byte) (ctr : Option Obj) : Res :=
  let fresh := s.actNext < 4096
  let slot := if fresh then s.actNext else s.actFreed.headD 0
  let a : Activity :=
   { slot := slot, seq := s.actSeq, bezel := c.bez.num, key := recKey c.kern.record, kslot := c.kern.slot, kseq := c.kern.seq,
     record := r, ctr := ctr, task := some (c.g, c.grp.taskSeq) }
  let put := fun (s : State) (a : Activity) =>
    { s with acts := s.acts.filter (fun x => x.slot != slot) ++ [a], actSeq := s.actSeq + 1,
             actNext := if fresh then s.actNext + 1 else s.actNext, actFreed := if fresh then s.actFreed else s.actFreed.tail }
  let n := sdstNum d
  let go := fun (s : State) (a : Activity) => issueA c (put s a) [.scal n a.handle, .scal (n + 1) a.ticket] .ready false
  match ctr with
  | none => go s a
  | some o =>
    match s.draw o c.handle with
    | .ticket t s1 => go s1 { a with ticket := t }
    | .wait => issueA c (put s { a with drawn := false }) [.scal n a.handle, .scal (n + 1) 0] (.draw o (.act slot s.actSeq) (n + 1)) false

/-- `aopen` (R333). -/
def execAopen (d a : BitVec 8) (s : State) : Host.Outcome State Fault Refusal :=
  issue (.aopen d a) s fun c s => classA c s fun s =>
    if (c.s a).toNat % 64 ≠ 0 && !badVa (c.s a) then .error (.trap ALIGN (c.s a))
    else do
      gateA c s
      let (s1, r) ← readRecord c s (c.s a) 64
      let refuse := fun (s : State) (code : Nat) =>
        issueA c s [.scal (sdstNum d) (BitVec.ofNat 64 (2 ^ 63 + code)), .scal (sdstNum d + 1) 0] .ready false
      if actRecordBad r then refuse s1 1
      else do
        let (s2, stage) ← testAt .store c s1 (arStage r)
        let (s3, ctr) ← if arDone r = 0 then .ok (s2, none) else testAt .sync c s2 (arDone r)
        if stage.isNone || (arDone r != 0 && (Place.counter ctr).isNone) then refuse s3 1
        else if 4096 ≤ s3.actNext && s3.actFreed.isEmpty then refuse s3 2
        else openActivity c s3 d r (Place.counter ctr)

/-! ### Instructions on a handle (R320, R334 to R337) -/

/-- The activity that an instruction may name (R320). -/
def Ctx.activity (c : Ctx) (s : State) (h : W64) : Option Activity :=
  s.acts.find? fun a => a.handle == h && a.bezel == c.bez.num && (a.key == recKey c.kern.record || recSuper c.kern.record)

/-- NKEYS of a step record. -/
def srKeys (r : List Byte) : Nat := bits (dword r 136).toNat 3 0

/-- A step record breaks R322. -/
def stepRecordBad (r : List Byte) : Bool :=
  bits (dword r 136).toNat 63 4 ≠ 0 || (slice r 144 48).any (· != 0) || srKeys r = 0 || 8 < srKeys r || codeBad (dword r 128)

/-- The entry of a step record (R323). -/
def State.entryOf (s : State) (b : Bezel) (r : List Byte) : ClaspEntry :=
  { args := slice r 0 64, keys := (List.range (srKeys r)).map fun m => dword r (64 + 8 * m), code := dword r 128, stamp := s.stamp,
    die := s.entryDie b (dword r 64) }

/-- The ticket of an `astep`, drawn before its task commits; the command waits while the draw does (R189, R334). -/
def entryTicket (c : Ctx) (s : State) : Option Obj → Except Stop (State × Option (Obj × W64))
  | none => .ok (s, none)
  | some o =>
    match c.grp.ticket with
    | some p => .ok (s, some p)
    | none => match s.drawInTurn c.g o c.handle with
      | .ticket t s1 => .ok (c.mod s1 fun g => { g with ticket := some (o, t) }, some (o, t))
      | .wait => .error (.wait (.draw o) s)

/-- `astep` (R334): its ticket is drawn, the task commits, and the entry is in place with the next timestamp (R326). -/
def execAstep (d a b : BitVec 8) (s : State) : Host.Outcome State Fault Refusal :=
  issue (.astep d a b) s fun c s =>
    let ops := [c.s d, c.s a, c.s b]
    if c.g.sh then do
      let s1 ← boundary c s false
      .ok (sign c s1 ops)
    else if (c.s a).toNat % 64 ≠ 0 && !badVa (c.s a) then .error (.trap ALIGN (c.s a))
    else do
      gateB c s
      let (s1, r0) ← readRecord c s (c.s a) 64
      let (s2, r1) ← readRecord c s1 (c.s a + 64) 64
      let (s3, r2) ← readRecord c s2 (c.s a + 128) 64
      let r := r0 ++ r1 ++ r2
      if stepRecordBad r then throw (.trap ILLOP)
      match c.activity s3 (c.s d) with
      | none => throw (.trap PROT (c.s d))
      | some act => do
        if act.st != .opened || arMax act.record ≤ act.stack.length then throw (.trap PROT (c.s d))
        let (s4, o) ← if c.s b = 0 then .ok (s3, none) else do
          let (s4, o) ← counterAt c s3 .sync (c.s b)
          .ok (s4, some o)
        let (s5, tk) ← entryTicket c s4 o
        let s6 := (← boundary c s5 false).publish c.g c.core 3
        let s7 := { (s6.modAct act.slot fun x => { x with stack := s6.entryOf c.bez r :: x.stack }) with stamp := s6.stamp + 1 }.settleActs
        .ok (sign c ((c.mod s7 fun g => { g with ticket := none }).completeTicket tk) ops)

/-- `aclose` and `aabandon` (R335): the task commits and one event reaches the clasp unit. -/
def actEvent (i : Instr) (op : Nat) (a : BitVec 8) (f : State → Activity → State) (s : State) : Host.Outcome State Fault Refusal :=
  issue i s fun c s =>
    if c.g.sh then do
      let s1 ← boundary c s false
      .ok (sign c s1 [c.s a])
    else do
      gateB c s
      if (c.activity s (c.s a)).isNone then throw (.trap PROT (c.s a))
      let s1 := (← boundary c s false).publish c.g c.core 3
      let s2 := match c.activity s1 (c.s a) with
        | none => s1
        | some act => if act.st == .opened then (f s1 act).settleActs else s1.locket c.die 9 (0x0100 + op) c.handle (c.s a)
      .ok (sign c s2 [c.s a])

/-- `aclose` (R335, R324). -/
def execAclose (a : BitVec 8) (s : State) : Host.Outcome State Fault Refusal :=
  actEvent (.aclose a) 0xE2 a (fun s act => s.finishAct act.slot .closed) s

/-- `aabandon` (R335, R324). -/
def execAabandon (a : BitVec 8) (s : State) : Host.Outcome State Fault Refusal :=
  actEvent (.aabandon a) 0xE3 a (fun s act => s.modAct act.slot fun x => { x with st := .abandoning, task := none }) s

/-- Code of an activity's state (R336). -/
def AState.code : AState → Nat
  | .opened => 0 | .closed => 1 | .abandoning => 2 | .blocked => 3 | .abandoned => 4 | .broken => 5

/-- What `aquery` reads (R336). -/
def aqueryWord (x : Option Activity) (f : Nat) : W64 :=
  match x with
  | none => if f = 0 then 7 else 0
  | some a =>
    match f with
    | 0 => BitVec.ofNat 64 (a.st.code + a.stack.length * 2 ^ 16 + a.lastStatus.toNat * 2 ^ 32)
    | 1 => (match a.stack with | e :: _ => BitVec.ofNat 64 e.stamp | [] => 0)
    | 2 => if a.st == .blocked then a.waitsOn else 0
    | _ => a.lastComp

/-- `aquery` (R336). -/
def execAquery (d a f : BitVec 8) (s : State) : Host.Outcome State Fault Refusal :=
  issue (.aquery d a f) s fun c s => classA c s fun s => do
    gateA c s
    issueA c s [.scal (sdstNum d) (aqueryWord (c.activity s (c.s a)) f.toNat)] .ready false

/-- The action of an `aresolve` on a BROKEN activity (R324, R331, R337); none when it has no effect. -/
def State.resolveAct (s : State) (a : Activity) (action : Nat) : Option State :=
  if a.st != .broken then none
  else match action with
    | 0 => if (a.stack.head?).any fun e => e.damaged then none else some (s.modAct a.slot fun x => { x with st := .abandoning })
    | 1 => some (s.modAct a.slot fun x => { x with st := .abandoning, stack := x.stack.tail })
    | _ => some (s.finishAct a.slot .abandoned)

/-- `aresolve` (R337). -/
def execAresolve (a b : BitVec 8) (s : State) : Host.Outcome State Fault Refusal :=
  issue (.aresolve a b) s fun c s =>
    if 3 ≤ (c.s b).toNat then .error (.trap ILLOPERAND)
    else classB c s [c.s a, c.s b] fun s => do
      gateB c s
      match c.activity s (c.s a) with
      | none => throw (.trap PROT (c.s a))
      | some act => match s.resolveAct act (c.s b).toNat with
        | some s1 => .ok s1.settleActs
        | none => .ok (s.locket c.die 9 0x01E5 c.handle (c.s a))

/-- `acret` (R338): the status of a compensator, then `exit`. -/
def execAcret (a : BitVec 8) (s : State) : Host.Outcome State Fault Refusal :=
  issue (.acret a) s fun c s =>
    if c.kern.comp.isNone then .error (.trap ILLOP)
    else if c.em = 0 then .ok s
    else do
      let s1 ← boundary c s false
      let s2 := s1.modTeam c.team.sid fun t => { t with acret := t.acret.or (some ((c.s a).setWidth 32)) }
      .ok (c.mod s2 fun g => { g with exited := g.exited ||| c.em })

/-! ### Compensators (R327 to R330) -/

/-- A compensation failure (R330): the record, the event, and BROKEN. -/
def State.compFail (s : State) (a : Activity) (kernel : W64) (status : W32) : State :=
  let body := leBytes a.handle.toNat 8 ++ leBytes a.stack.length 4 ++ leBytes 0 2 ++ leBytes 4 1 ++ leBytes 0 1
    ++ leBytes kernel.toNat 8 ++ leBytes status.toNat 4
  let die := match a.stack with | e :: _ => e.die | [] => 0
  let arg := BitVec.ofNat 64 (status.toNat * 2 ^ 32 + (a.stack.length % 4096) * 2 ^ 16 + a.slot)
  ((s.modAct a.slot fun x => { x with st := .broken, lastStatus := status, running := none, ended := none }).record a.bezel
    (BitVec.ofNat 32 a.slot) body).locket die 10 11 kernel arg

/-- How an access of the clasp unit ends (R329). -/
inductive ClaspAcc where
  | ok (pa owner : Nat)
  | park (cause level : Nat)
  | later
  | migr
  | refuse
deriving DecidableEq, Repr

/-- An access of the clasp unit through the bezel's tables with the owner slot of the opening launch (R329). -/
def State.claspAccess (s : State) (b : Bezel) (key : Nat) (write : Bool) (va : W64) : ClaspAcc :=
  if badVa va || isWindow va then .refuse
  else match s.translate b (noTlb (b.seat / 64)) key (if write then .store else .load) va.toNat with
    | .ok pa sync ow =>
      let held := fun (x : Nat × Mapped) => (s.team? x.1).any fun t => t.undo.any fun u => u.blk == x.2.off / 256
      if write && sync then .refuse else if (s.mappedBlock (pa / 256)).any held then .later
      else if !write && s.poisoned (pa / 256) then .refuse else .ok pa ow
    | .park ca l => .park ca l
    | .migrating => .migr
    | .filling _ => .later
    | _ => .refuse

/-- The clasp unit's launch parks on a fault (R329). -/
def State.parkAct (s : State) (a : Activity) (b : Bezel) (va : W64) (cause level : Nat) (write : Bool) : State :=
  (s.fault a.bezel { va := va, cause := cause, level := level, write := write, engine := true,
                     handle := handleOf a.bezel a.kslot a.kseq, place := BitVec.ofNat 32 (b.seat * 2 ^ 10),
                     joiner := .act a.slot }).modAct a.slot fun x => { x with fault := some va }

/-- The clasp unit's launch waits on a MIGRATING page, with a fault record as well: it goes on after the `fltret`, or at the `tlbinv` that
ends the migration (R329). No cause of R164 names such a page: the record carries cause 0 and level 0 (log entry 22). -/
def State.migrAct (s : State) (a : Activity) (b : Bezel) (va : W64) (write : Bool) : State :=
  (s.parkAct a b va 0 0 write).modAct a.slot fun x => { x with migr := true }

/-- The sector that the clasp unit reads at an address, whose CHECK is verified (R362). -/
def State.checkClasp (s : State) (a : Activity) (b : Bezel) (va : W64) : State :=
  match s.translate b (noTlb (b.seat / 64)) (a.key % 4096) .load va.toNat with
  | .ok pa _ _ => s.checkSector (handleOf a.bezel a.kslot a.kseq) (pa / 256)
  | _ => s

/-- `n` bytes of one sector read by the clasp unit; a state when the launch ends or parks there. -/
def State.claspRead (s : State) (a : Activity) (b : Bezel) (va : W64) (n : Nat) : Except (Option State) (List Byte) :=
  match s.claspAccess b (a.key % 4096) false va with
  | .ok pa _ => .ok ((List.range n).map fun i => s.homeByte (pa + i))
  | .park ca l => .error (some (s.parkAct a b va ca l false))
  | .migr => .error (some (s.migrAct a b va false))
  | .later => .error none
  | .refuse => .error (some ((s.checkClasp a b va).compFail a 0 0x80000101))

/-- TEMPLATE with the fields that R329 replaces. -/
def compRecord (r : List Byte) (code stage : W64) : List Byte :=
  leBytes code.toNat 8 ++ slice r 8 8 ++ leBytes stage.toNat 8 ++ slice r 24 16 ++ leBytes 0 8 ++ slice r 48 8 ++ leBytes 0 8
    ++ slice r 64 40 ++ leBytes ((dword r 104) &&& ~~~ (1#64 <<< 35)).toNat 8 ++ slice r 112 144

/-- COMPENSATOR_LAUNCH (R327 to R330): the top entry's ARGS to STAGE, then `launch` of TEMPLATE with the replaced fields. -/
def State.compLaunch (s : State) (slot : Nat) : Option State :=
  match s.act? slot with
  | none => none
  | some a =>
    match s.bezel? a.bezel, a.stack with
    | some b, e :: _ =>
      let stop := s.teams.any fun t => t.bezel == b.num && t.ctx == .stopping && !t.ended
      if a.st != .abandoning || a.running.isSome || a.ended.isSome || a.fault.isSome || a.migr || stop || (s.waitsFor a e).isSome then none
      else if e.damaged then some (s.compFail a 0 0x80000013)
      else
        let stage := arStage a.record
        match s.claspAccess b (a.key % 4096) true stage with
        | .refuse => some (s.compFail a 0 0x80000101)
        | .later => none
        | .migr => some (s.migrAct a b stage true)
        | .park ca l => some (s.parkAct a b stage ca l true)
        | .ok pa ow =>
          let s1 := s.landHome pa e.args ow (some false)
          let r := do
            let r ← s1.claspRead a b (arTemplate a.record) 256
            let x := recRecipes r
            if x = 0 ∨ x.toNat % 8 ≠ 0 then .ok (r, [])
            else do
              let h ← s1.claspRead a b x 8
              let d0 ← s1.claspRead a b (x + 32) 8
              let d1 ← s1.claspRead a b (x + 40) 8
              let d2 ← s1.claspRead a b (x + 48) 8
              let d3 ← s1.claspRead a b (x + 56) 8
              .ok (r, h ++ d0 ++ d1 ++ d2 ++ d3)
          match r with
          | .error t => t
          | .ok (r, tab) =>
            let r' := compRecord r e.code stage
            let code := s1.refusal b r' tab false
            let code := if code ≠ 10 ∧ (recGridX r' ≠ 1 ∨ recGridY r' ≠ 1 ∨ recGridZ r' ≠ 1) then 1 else code
            if code ≠ 0 then some (s1.compFail a 0 (0x80000100 + BitVec.ofNat 32 code))
            else
              let (s2, kslot, seq) := s1.newKernel b r' tab (arTemplate a.record) (some slot)
              some ((s2.modAct slot fun x => { x with running := some kslot, lastComp := handleOf b.num kslot seq }).tryAdmit b.num kslot)
    | _, _ => none

/-- COMPENSATOR_LAUNCH. -/
def execCompensatorLaunch (s : State) : Host.Outcome State Fault Refusal :=
  eventStep s "COMPENSATOR_LAUNCH" fun e => match e with | .compensatorLaunch n => s.compLaunch n | _ => none

/-- COMPENSATOR_RETIRE (R324, R330): a status of 0 pops the entry, any other is a compensation failure. -/
def State.compRetire (s : State) (slot : Nat) : Option State :=
  match s.act? slot with
  | none => none
  | some a =>
    match a.ended with
    | none => none
    | some st =>
      if st = 0 then
        some (s.modAct slot fun x => { x with running := none, ended := none, lastStatus := 0, stack := x.stack.tail }).settleActs
      else some (s.compFail a a.lastComp st)

/-- COMPENSATOR_RETIRE. -/
def execCompensatorRetire (s : State) : Host.Outcome State Fault Refusal :=
  eventStep s "COMPENSATOR_RETIRE" fun e => match e with | .compensatorRetire n => s.compRetire n | _ => none

end Sys2Proof.Machine
end

