-- ==== Sys2Proof/Machine/Trust.lean ====
section
/-! DEFINITION. Keys and attestation (R351 to R358): opcodes 0xF1 to 0xF3, with KEY_DRAW_COMPLETE and GENERATOR_RETEST. -/

namespace Sys2Proof.Machine

open Sys2Proof

/-! ### Key slots and the generator (R354, R356) -/

/-- A key slot written; one that is EMPTY and unsealed is not listed. -/
def State.putKey (s : State) (k : KeySlot) : State :=
  let rest := s.keys.filter fun x => x.slot != k.slot
  { s with keys := if k.st == .empty && k.sealed.isNone then rest else k :: rest }

/-- The outcome of a draw reaches the generator (R356): a test that fails in HEALTHY starts the retests. -/
def State.genDraw (s : State) (pass : Bool) : State :=
  if pass || s.gen != .healthy then s
  else { s with gen := .retesting, fails := 1 }.locket 0 6 0x101 0 0

/-- The 96 bytes that a draw conditions its raw bits to (R356): the XTS data key, the XTS tweak key and the CTR key. -/
def keyMaterial (draw : Nat) : List Byte := Config.shake256 (Config.rawBits draw) 96

/-- A slot with the keys of a draw (R352, R356). -/
def KeySlot.withKeys (k : KeySlot) (draw : Nat) : KeySlot :=
  { k with st := .ready, epoch := draw, dataKey := slice (keyMaterial draw) 0 32, tweakKey := slice (keyMaterial draw) 32 32,
           ctrKey := slice (keyMaterial draw) 64 32 }

/-- New keys written to a slot under the next key epoch (R354; log entry 12). -/
def State.writeKeys (s : State) (n : Nat) : State :=
  { (s.putKey ((s.keySlot n).withKeys s.epochs)) with epochs := s.epochs + 1 }

/-- A kernel of any bezel in RECORDED to DRAINING names the slot (R354). -/
def State.keyInUse (s : State) (n : Nat) : Bool :=
  s.bezels.any fun b => b.kernels.any fun k => !k.st.final && recKey k.record % 4096 == n

/-- The RECORDED kernels that wait for the keys of a slot. -/
def State.keyWaiters (s : State) (n : Nat) : List (Nat × Nat) :=
  s.bezels.flatMap fun b => (b.kernels.filter fun k => k.st == .recorded && recKey k.record % 4096 == n).map fun k => (b.num, k.slot)

/-- KEY_DRAW_COMPLETE (R354 to R356): a GENERATING slot becomes READY and its kernels ADMITTED, or EMPTY and its kernels
REFUSED with error 8. -/
def State.keyDrawComplete (s : State) (n : Nat) (pass : Bool) : Option State :=
  if (s.keySlot n).st != .generating then none
  else if pass then
    let s1 := (s.writeKeys n).keyStatus n 0
    some ((s1.keyWaiters n).foldl (fun s p => s.tryAdmit p.1 p.2) s1)
  else
    let s1 := ((s.genDraw false).putKey { slot := n, sealed := (s.keySlot n).sealed }).keyStatus n 1
    some ((s1.keyWaiters n).foldl (fun s p => (s.modKernel p.1 p.2 fun k => { k with err := 8 }).endKernel p.1 p.2) s1)

/-- KEY_DRAW_COMPLETE. -/
def execKeyDrawComplete (s : State) : Host.Outcome State Fault Refusal :=
  eventStep s "KEY_DRAW_COMPLETE" fun e => match e with | .keyDrawComplete n p => s.keyDrawComplete n p | _ => none

/-- GENERATOR_RETEST (R356): with one event for the transition. -/
def State.retest (s : State) (pass : Bool) : Option State :=
  if s.gen != .retesting then none
  else
    let n := if pass then 0 else if s.fails < 2 then s.fails + 1 else 3
    let st : GenState := if pass then .healthy else if s.fails < 2 then .retesting else .fenced
    some ({ s with gen := st, fails := n }.locket 0 6 (0x100 + n) 0 0)

/-- GENERATOR_RETEST. -/
def execGeneratorRetest (s : State) : Host.Outcome State Fault Refusal :=
  eventStep s "GENERATOR_RETEST" fun e => match e with | .generatorRetest p => s.retest p | _ => none

/-! ### What the memory controllers store (R343, R351) -/

/-- Two byte strings, XORed byte by byte. -/
def xorBytes (x y : List Byte) : List Byte := (x.zip y).map fun p => p.1 ^^^ p.2

/-- The tweak of the next block of a data unit: times α, as IEEE 1619 has it. -/
def xtsNext (t : Nat) : Nat := if 2 ^ 128 ≤ 2 * t then (2 * t - 2 ^ 128) ^^^ 0x87 else 2 * t

/-- `n` blocks in XTS mode, from tweak `t`. -/
def xtsBlocks (key : List Byte) : Nat → Nat → List Byte → List Byte
  | 0, _, _ => []
  | n + 1, t, p => xorBytes (Config.aes256 key (xorBytes (p.take 16) (leBytes t 16))) (leBytes t 16) ++ xtsBlocks key n (xtsNext t) (p.drop 16)

/-- The tweak of a sector: its fabric physical address shifted right by 8, in 16 bytes (R351). -/
def tweakOf (sector : Nat) : List Byte := leBytes sector 16

/-- A sector of an ordinary page as it is stored (R351). -/
def xtsSector (k : KeySlot) (sector : Nat) (p : List Byte) : List Byte :=
  xtsBlocks k.dataKey 16 (leNat (Config.aes256 k.tweakKey (tweakOf sector))) p

/-- The counter block of bytes 16j of a sector of a PAVE page (R343). -/
def ctrBlock (sector : Nat) (gen : W32) (j : Nat) : List Byte := leBytes (sector % 2 ^ 48 * 2 ^ 80 + gen.toNat * 2 ^ 48 + j % 16) 16

/-- A sector of a PAVE page as it is stored at a generation (R343). -/
def ctrSector (k : KeySlot) (sector : Nat) (gen : W32) (p : List Byte) : List Byte :=
  xorBytes p ((List.range 16).flatMap fun j => Config.aes256 k.ctrKey (ctrBlock sector gen j))

/-- The keys under which a sector is stored: the open keys, or those of the draw of its owner's slot that wrote it (R351, R354). -/
def State.keysOf (s : State) (sector : Nat) : KeySlot :=
  let c := s.sidecar sector
  if c.owner = 0 then s.openKey else ({ slot := c.owner } : KeySlot).withKeys c.epoch

/-- The bytes of a sector in DRAM or host memory (R351); `gen`: GEN of the frame of a PAVE page. -/
def State.dramSector (s : State) (sector : Nat) (gen : W32) : List Byte :=
  let p := memBytes s.mem (256 * sector) 256
  if (s.sidecar sector).pave then ctrSector (s.keysOf sector) sector gen p else xtsSector (s.keysOf sector) sector p

/-- The sidecar of a sector in HBM metadata: CHECK is XORed with AES-256 of the tweak under the XTS data key (R9, R351). -/
def State.dramSidecar (s : State) (sector : Nat) : W64 :=
  s.sidecarWord sector ^^^ BitVec.ofNat 64 (leNat ((Config.aes256 (s.keysOf sector).dataKey (tweakOf sector)).take 4) * 2 ^ 32)

/-! ### keygen and keyseal (R355) -/

/-- The slot that S[a] names; a reserved bit or slot 0 traps. -/
def slotArg (x : W64) : Option Nat := if x.toNat = 0 ∨ 4096 ≤ x.toNat then none else some x.toNat

/-- The slot is sealed to another bezel, and the issuer's bezel lacks OPERATOR. -/
def keyDenied (b : Bezel) (k : KeySlot) : Bool :=
  !b.operator && (match k.sealed with | some x => x != b.num | none => false)

/-- A key instruction: the task commits, and the slot changes whatever EM holds. -/
def keyOp (c : Ctx) (s : State) (ok : Bool) (f : State → Res) : Res :=
  if !ok then .error (.trap ILLOPERAND)
  else if c.g.sh then do
    let s1 ← boundary c s false
    takeLvq c s1
  else do
    gateA c s
    let s1 ← boundary c s false
    f s1

/-- What `keygen` fn 0 does at its issue: a status at once, or a draw begun. -/
def State.keyBegin (s : State) (b : Bezel) (n : Nat) (handle : W64) : State × Option W64 :=
  if keyDenied b (s.keySlot n) then (s, some 4)
  else if (s.keySlot n).st != .empty then (s, some 2)
  else match s.gen with
    | .fenced => (s.locket 0 6 3 handle (BitVec.ofNat 64 n), some 3)
    | .retesting => (s.locket 0 6 1 handle (BitVec.ofNat 64 n), some 1)
    | .healthy => (s.putKey { s.keySlot n with st := .generating }, none)

/-- `keygen` fn 0 (R355). -/
def execKeygenGenerate (d a : BitVec 8) (s : State) : Host.Outcome State Fault Refusal :=
  issue (.keygenGenerate d a) s fun c s => keyOp c s (slotArg (c.s a)).isSome fun s =>
    let n := (c.s a).toNat
    let (s1, st) := s.keyBegin c.bez n c.handle
    match st with
    | some x => issueA c s1 [.scal (sdstNum d) x] .ready true
    | none => issueA c s1 [.scal (sdstNum d) 0] (.keyDraw n) true

/-- `keygen` fn 1 (R354, R355). -/
def State.keyDestroy (s : State) (b : Bezel) (n : Nat) : State × W64 :=
  let k := s.keySlot n
  if keyDenied b k then (s, 4)
  else if k.st == .generating then (s, 2)
  else if k.st == .ready && s.keyInUse n then (s, 2)
  else (s.clearSlot n, 0)

/-- `keygen` fn 1. -/
def execKeygenDestroy (d a : BitVec 8) (s : State) : Host.Outcome State Fault Refusal :=
  issue (.keygenDestroy d a) s fun c s => keyOp c s (slotArg (c.s a)).isSome fun s =>
    let (s1, x) := s.keyDestroy c.bez (c.s a).toNat
    issueA c s1 [.scal (sdstNum d) x] .ready true

/-- `keyseal` (R354, R355): the handle, or bit 63 with the code. -/
def State.keySealTo (s : State) (iss : Bezel) (n b : Nat) : State × W64 :=
  let k := s.keySlot n
  if b ≠ iss.num ∧ !iss.operator then (s, BitVec.ofNat 64 (2 ^ 63 + 4))
  else if k.sealed.any fun x => x != b then (s, BitVec.ofNat 64 (2 ^ 63 + 2))
  else (s.putKey { k with sealed := some b }, BitVec.ofNat 64 (b * 4096 + n))

/-- `keyseal`. -/
def execKeyseal (d a b : BitVec 8) (s : State) : Host.Outcome State Fault Refusal :=
  issue (.keyseal d a b) s fun c s => keyOp c s ((slotArg (c.s a)).isSome && (c.s b).toNat < 16) fun s =>
    let (s1, x) := s.keySealTo c.bez (c.s a).toNat (c.s b).toNat
    issueA c s1 [.scal (sdstNum d) x] .ready true

/-! ### attest (R357, R358) -/

/-- A byte string cut or filled with zeros to `n` bytes. -/
def fitBytes (n : Nat) (l : List Byte) : List Byte := (l ++ List.replicate n 0).take n

/-- The bitmap of the units of a bezel of one kind, as in `bzreq` (R312). -/
def State.unitMap (s : State) (b n : Nat) (kind : Nat → UnitId) : List Byte :=
  (List.range n).map fun j => BitVec.ofNat 8 ((List.range 8).foldl (fun x i =>
    if s.memberOf (kind (8 * j + i)) b then x + 2 ^ i else x) 0)

/-- The body of a report, bytes 0 to 383. -/
def State.reportBody (s : State) (b : Bezel) (nonce : List Byte) (h : W64) : List Byte :=
  let k := b.byHandle h
  let cfg := b.cfg ++ s.unitMap b.num 32 .core ++ s.unitMap b.num 24 .slice ++ s.unitMap b.num 96 .chan
  leBytes 1 4 ++ leBytes 384 4 ++ leBytes (s.devId % 2 ^ 13) 8 ++ fitBytes 64 nonce ++ fitBytes 64 s.measurement
    ++ fitBytes 64 (Config.shake256 Config.allowList 64) ++ fitBytes 64 (Config.shake256 cfg 64)
    ++ (match k with | some k => if h = 0 then List.replicate 64 0 else fitBytes 64 (Config.shake256 k.record 64) | none => List.replicate 64 0)
    ++ leBytes h.toNat 8 ++ leBytes (match k with | some k => recKey k.record | none => 0) 8
    ++ leBytes (if k.isSome then 0 else 1) 4 ++ List.replicate 28 0

/-- The 4,096 bytes of a report. -/
def State.report (s : State) (b : Bezel) (nonce : List Byte) (h : W64) : List Byte :=
  let body := s.reportBody b nonce h
  body ++ fitBytes 3309 (Config.mlDsaSign body) ++ List.replicate 403 0

/-- `attest` (R358): the task commits, Signet reads the nonce and writes the report as engine writes. The nonce of a
poisoned sector is free. -/
def execAttest (d a b : BitVec 8) (s : State) : Host.Outcome State Fault Refusal :=
  issue (.attest d a b) s fun c s =>
    let ops := [c.s d, c.s a, c.s b]
    if c.em = 0 then classB c s ops fun s => instantB c s .ok
    else if c.g.sh then do
      let s1 ← boundary c s false
      .ok (sign c s1 ops)
    else if (c.s d).toNat % 4096 ≠ 0 && !badVa (c.s d) then .error (.trap ALIGN (c.s d))
    else if (c.s a).toNat % 64 ≠ 0 && !badVa (c.s a) then .error (.trap ALIGN (c.s a))
    else do
      gateB c s
      let (s1, out, _) ← checkLanes c s .store (List.range 16) (fun i => c.s d + BitVec.ofNat 64 (256 * i)) 256
      let (s2, nonce, _) ← checkLanes c s1 .engine [0] (fun _ => c.s a) 64
      let s3 := ((← boundary c s2 false).publish c.g c.core 3).checkPlaces c.handle (nonce.map (·.2))
      let bytes := match nonce with
        | (_, p) :: _ => if s3.placePoisoned p then (List.range 64).map fun i => s3.freeAt (2 ^ 77 + i)
                         else s3.engineBytes s3.stepNo p 64
        | [] => []
      let rep := s3.report c.bez bytes (c.s b)
      let s4 := out.foldl (fun s (x : Nat × Place) => s.engineWrite (c.issuer none none) c.team x.2 (slice rep (256 * x.1) 256) false) s3
      issueB c s4 .ready fun _ s => .ok (sign c s ops)

end Sys2Proof.Machine
end

