-- ==== Sys2Proof/Machine/Bezel.lean ====
section
/-! DEFINITION. Bezels (R306 to R319): opcode 0xF0, with REHASH_SWEEP_COMPLETE and UNIT_SCRUB_COMPLETE, and the dispatcher's
launch (R311). -/

namespace Sys2Proof.Machine

open Sys2Proof

/-! ### The request record (R312) -/

/-- OP. -/
def bzOp (r : List Byte) : Nat := bits (dword r 0).toNat 3 0
/-- BEZEL. -/
def bzBezel (r : List Byte) : Nat := bits (dword r 0).toNat 11 8
/-- CONFIG. -/
def bzConfig (r : List Byte) : W64 := dword r 8
/-- DONECTR. -/
def bzDone (r : List Byte) : W64 := dword r 16
/-- CORES. -/
def bzCores (r : List Byte) : List Nat := (List.range 256).filter fun i => (leNat (slice r 32 32)).testBit i
/-- SLICES. -/
def bzSlices (r : List Byte) : List Nat := (List.range 192).filter fun i => (leNat (slice r 64 24)).testBit i
/-- CHANS. -/
def bzChans (r : List Byte) : List Nat := (List.range 768).filter fun i => (leNat (slice r 96 96)).testBit i
/-- Every unit that the request names. -/
def bzUnits (r : List Byte) : List UnitId := (bzCores r).map .core ++ (bzSlices r).map .slice ++ (bzChans r).map .chan

/-- A must-be-zero bit or a reserved OP. -/
def bzMbz (r : List Byte) : Bool :=
  bits (dword r 0).toNat 63 12 ≠ 0 || bits (dword r 0).toNat 7 4 ≠ 0 || (slice r 24 8).any (· != 0) || (slice r 88 8).any (· != 0) ||
  (slice r 192 64).any (· != 0) || bzOp r = 0 || 5 < bzOp r

/-! ### The configuration (R309) -/

/-- Entries of a table at a level (R156). The regions 0x1FE and 0x1FF of level 5 are windows, and no walk reads them
(R155). -/
def tableEntries (level : Nat) : Nat := if level = 5 then 0x1FE else if level ≤ 2 then 128 else 512

/-- The tables that a table reaches, itself among them: address and bytes (R156, R157). -/
def State.tablesFrom (s : State) : Nat → Nat → List (Nat × Nat)
  | 0, _ => []
  | n + 1, table =>
    let level := n + 1
    let base := s.localPa table
    let size := if level ≤ 2 then 1024 else 4096
    let m := s.mem.filter fun x => base ≤ x.1 && x.1 < base + size
    (table, size) :: (List.range (tableEntries level)).flatMap fun i =>
      let at_ := base + 8 * i
      let raw : W64 := BitVec.ofNat 64 (leNat (if (s.mappedBlock (at_ / 256)).isSome then s.homeBytes at_ 8 else memBytes m at_ 8))
      if leafKind raw = 1 && level ≠ 1 && raw.toNat / 2 ^ 43 = 0 && bits raw.toNat 9 3 = 0 then
        s.tablesFrom n (bits raw.toNat 42 10 * 2 ^ 10)
      else []

/-- The channels of a range of local addresses. -/
def rangeChans (a n : Nat) : List Nat :=
  if n = 0 then [] else (List.range ((a + n - 1) / 2 ^ 30 - a / 2 ^ 30 + 1)).map (a / 2 ^ 30 + ·)

/-- The pinned channels of a bezel: those of ROOT, of ITABLE, of every table that they reach, and of context memory. -/
def State.pinned (s : State) (b : Bezel) : List Nat :=
  rangeChans b.ctxBase b.ctxSize ++ rangeChans b.itable 512 ++ (s.tablesFrom 5 b.root).flatMap fun t => rangeChans t.1 t.2

/-- A field of a configuration breaks R309. -/
def configBad (cfg : List Byte) : Bool :=
  let b : Bezel := { num := 0, cfg := cfg }
  bits (dword cfg 0).toNat 63 11 ≠ 0 || bits (dword cfg 0).toNat 9 6 ≠ 0 || dword cfg 8 ≠ 0 || b.ctxBase % 65536 ≠ 0 ||
  b.ctxSize % 65536 ≠ 0 || b.mbox.toNat % 2048 ≠ 0 || badVa b.mbox || isWindow b.mbox || b.itable % 512 ≠ 0 || b.root % 4096 ≠ 0 ||
  2 ^ 40 ≤ b.ctxBase + b.ctxSize || 2 ^ 40 ≤ b.itable || 2 ^ 40 ≤ b.root

/-- MBOX lies in a SYNC page that open code can reach. -/
def State.mboxOk (s : State) (b : Bezel) : Bool :=
  match s.walk b b.mbox.toNat with
  | .leaf l => leafSync l.raw && (leafKind l.raw == 2 || leafKind l.raw == 3)
  | _ => false

/-- The configuration of a form breaks R309, or pins a channel that the request does not name. -/
def State.formBad (s : State) (r cfg : List Byte) : Bool :=
  let b : Bezel := { num := bzBezel r, cfg := cfg }
  let s1 := (bzUnits r).foldl (fun s u => s.setUnit u (.member b.num)) s
  configBad cfg || ((s.pinned b).any fun c => !(bzChans r).contains c) || !s1.mboxOk b

/-! ### The checks (R313) -/

/-- The state of a bezel by number. -/
def State.bezelState (s : State) (n : Nat) : BState := match s.bezel? n with | some b => b.st | none => .vacant

/-- The state that R310 requires for an OP. -/
def bzNeeds (op : Nat) : BState := if op = 1 then .vacant else if op = 5 then .shrinking else .active

/-- The members of a bezel of one kind that a shrink by the request would leave. -/
def State.remaining (s : State) (n count : Nat) (kind : Nat → UnitId) (named : List Nat) : Bool :=
  (List.range count).any fun i => s.unit (kind i) == .member n && !named.contains i

/-- The status of a request, by the first failing check. `iss`: the bezel of the issuer, none for the management
controller. `ctrBad`: DONECTR is misaligned or outside a SYNC page. -/
def State.bzStatus (s : State) (iss : Option Bezel) (r cfg : List Byte) (ctrBad : Bool) : Nat :=
  let op := bzOp r
  let n := bzBezel r
  let us := bzUnits r
  if bzMbz r || (us.any fun u => s.unit u == .gone) || (op ≠ 1 && bzConfig r ≠ 0) ||
      (op = 1 && ((bzConfig r).toNat % 64 ≠ 0 || s.formBad r cfg)) ||
      (op = 5 && !((bzCores r).isEmpty && (bzSlices r).isEmpty)) || ctrBad then 1
  else if iss.any fun b => !b.operator && !((op = 3 || op = 5) && n = b.num) then 7
  else if s.bezelState n != bzNeeds op then 2
  else if (op = 1 || op = 2) && us.any fun u => s.unit u != .free then 3
  else if op = 3 && us.any fun u => s.unit u != .member n then 3
  else if op = 5 && (bzChans r).any fun c => s.unit (.chan c) != .leaving n then 3
  else if op = 3 && (s.bezel? n).any fun b => (bzCores r).contains b.seat then 4
  else if (op = 1 && ((bzCores r).isEmpty || (bzSlices r).isEmpty || (bzChans r).isEmpty)) || (op = 4 && !us.isEmpty) ||
      (op = 5 && (bzChans r).isEmpty) ||
      (op = 3 && !(s.remaining n 256 .core (bzCores r) && s.remaining n 192 .slice (bzSlices r) && s.remaining n 768 .chan (bzChans r))) then 5
  else if op = 3 && (match s.bezel? n with | some b => (s.pinned b).any fun c => (bzChans r).contains c | none => false) then 6
  else 0

/-! ### Forming (R310, R311) -/

/-- Units claimed for a bezel. -/
def State.claimUnits (s : State) (n : Nat) (us : List UnitId) : State := us.foldl (fun s u => s.setUnit u (.member n)) s

/-- A form accepted: the units are claimed and the configuration is copied. -/
def State.formBezel (s : State) (r cfg : List Byte) (operator : Bool) (tk : Option (Obj × W64)) : State :=
  let n := bzBezel r
  let b : Bezel :=
   { num := n, st := .forming, cfg := cfg, operator := operator || (dword cfg 0).getLsbD 10, seat := (bzCores r).headD 0, ticket := tk,
     drawAt := s.stepNo }
  let s1 := s.claimUnits n (bzUnits r)
  { s1 with bezels := s1.bezels.filter (fun x => x.num != n) ++ [b] }

/-- The dispatcher's launch is refused (R310, R376): units to QUARANTINE, the code in the Locket, the ticket completed. -/
def State.formRefused (s : State) (b : Bezel) (slot : Option Nat) (code : Nat) : State :=
  let s1 := match slot with | some n => s.clearSlot n | none => s
  let s2 := (s1.unitsOf b.num).foldl (fun s u => s.quarantine u) s1
  let s3 := s2.modBezel b.num fun x => { num := x.num }
  (s3.locket 0 9 (0x0400 + code) 0 (BitVec.ofNat 64 b.num)).completeTicket b.ticket

/-- Bytes of the record at DISPATCH, or of its recipe table, through the new bezel's tables; none when they are
unreadable. -/
def State.formRead (s : State) (b : Bezel) (key : Nat) (va : W64) (n : Nat) : Option (List Byte) :=
  if badVa va || isWindow va then none
  else match s.translate b (noTlb (b.seat / 64)) key .scalarLoad va.toNat with
    | .ok pa _ _ => if s.poisoned (pa / 256) then none else some ((List.range n).map fun i => s.homeByte (pa + i))
    | _ => none

/-- The launch record of a dispatcher: KEY is the new slot's handle, and SUPER is set. -/
def dispatchRecord (r : List Byte) (key : Nat) : List Byte :=
  slice r 0 104 ++ leBytes (((dword r 104) &&& 0xFFFFFFF7FFFF0000).toNat + 2 ^ 35 + key) 8 ++ slice r 112 144

/-- The record at DISPATCH with its recipe table's first doubleword and entry 0. -/
def State.formRecord (s : State) (b : Bezel) (slot : Nat) : Option (List Byte × List Byte) :=
  if b.dispatch.toNat % 256 ≠ 0 then none
  else (s.formRead b slot b.dispatch 256).bind fun r =>
    let x := recRecipes r
    if x = 0 ∨ x.toNat % 8 ≠ 0 then some (r, [])
    else (s.formRead b slot x 8).bind fun h =>
      ([0, 8, 16, 24].mapM fun o => s.formRead b slot (x + 32 + o) 8).map fun l => (r, h ++ l.flatten)

/-- A counter of the dispatcher's record is on a page that is not there. -/
def State.formCtrAway (s : State) (b : Bezel) (slot : Nat) (ad : W64) (done : Bool) : Bool :=
  ad != 0 && (match s.ctrUse b slot ad done with | .wait _ _ => true | .migrating => true | _ => false)

/-- Steps 1 to 3 of R311. `pass`: the draw passes its health test. -/
def State.dispatcherLaunch (s : State) (n : Nat) (pass : Bool) : State :=
  match s.bezel? n with
  | none => s
  | some b =>
    match ((List.range 4095).map (· + 1)).find? fun i => (s.keySlot i).st == .empty && (s.keySlot i).sealed.isNone with
    | none => s.formRefused b none 7
    | some slot =>
      if s.gen != .healthy then s.formRefused b none 7
      else if !pass then (s.genDraw false).formRefused b none 7
      else
        let s1 := (s.putKey { slot := slot, sealed := some n }).writeKeys slot
        match s1.formRecord b slot with
        | none => s1.formRefused b (some slot) 1
        | some (r0, tab) =>
          let r := dispatchRecord r0 (n * 4096 + slot)
          let away := s1.formCtrAway b slot (recDepCtr r) false || s1.formCtrAway b slot (recDoneCtr r) true
          let code := s1.refusal b r tab true
          let code := if code ≠ 10 && away then 1 else code
          if code ≠ 0 then s1.formRefused b (some slot) code
          else
            let (s2, k, seq) := s1.newKernel b r tab b.dispatch none
            let s3 := if recDoneCtr r = 0 then s2
              else match s2.ctrUse b slot (recDoneCtr r) true with
                | .ok o => (match s2.draw o (handleOf n k seq) with
                  | .ticket t s' => s'.modKernel n k fun x => { x with ticket := t }
                  | .wait => s2.modKernel n k fun x => { x with drawn := false })
                | _ => s2
            s3.tryAdmit n k

/-! ### Grow, shrink, dissolve, release (R310, R314 to R317) -/

/-- A grow accepted: the units are members, and the new slices begin to join. -/
def State.growBezel (s : State) (r : List Byte) (tk : Option (Obj × W64)) : State :=
  let n := bzBezel r
  (((s.claimUnits n (bzUnits r)).modBezel n fun b => { b with st := .growing, ticket := tk, drawAt := s.stepNo }).beginSweep n
    (s.hashSlices n)).judgeSaved n

/-- A unit named by an accepted shrink. -/
def State.markLeaving (s : State) (n : Nat) (u : UnitId) : State := s.setUnit u (.leaving n)

/-- The teams that a shrink moves: those on leaving cores, and the teams of their clusters (R314). -/
def State.movedTeams (s : State) (n : Nat) (cores : List Nat) : List Team :=
  let here := s.teams.filter fun t => t.bezel == n && t.placed && cores.contains t.core
  s.teams.filter fun t => t.bezel == n && t.placed && (cores.contains t.core || here.any fun x =>
    x.kslot == t.kslot && x.kseq == t.kseq && (match s.kernel? n t.kslot with
      | some k => 1 < recCluster k.record && clusterBase k.record x.tid == clusterBase k.record t.tid
      | none => false))

/-- The record of a leaving channel (R316). -/
def chanBody (c : Nat) : List Byte := leBytes c 8 ++ List.replicate 6 0 ++ leBytes 3 1 ++ List.replicate 41 0

/-- A shrink accepted: units leaving, teams stopped to move, one record for each channel, clasp entries moved. -/
def State.shrinkBezel (s : State) (r : List Byte) (tk : Option (Obj × W64)) : State :=
  let n := bzBezel r
  let s1 := ((bzUnits r).foldl (fun s u => s.markLeaving n u) s).modBezel n fun b =>
    { b with st := .shrinking, ticket := tk, drawAt := s.stepNo }
  let s1 := if (bzSlices r).isEmpty then s1 else s1.beginSweep n (s.hashSlices n)
  let s2 := (s1.movedTeams n (bzCores r)).foldl (fun s t => (s.stopTeam t.sid).modTeam t.sid fun x => { x with moving := true }) s1
  let s3 := (bzChans r).foldl (fun s c => s.record n (BitVec.ofNat 32 c) (chanBody c)) s2
  let s4 := match s3.bezel? n with | some b => s3.moveEntries b | none => s3
  (s4.settleBezel n).judgeSaved n

/-- A dissolve accepted: activities freed, every kernel cancelled (R310, R331). -/
def State.dissolveBezel (s : State) (n : Nat) (tk : Option (Obj × W64)) : State :=
  let slots : List Nat := match s.bezel? n with | some b => b.kernels.map (·.slot) | none => []
  let s1 : State := (s.modBezel n fun b => { b with st := .dissolving, ticket := tk, drawAt := s.stepNo }).freeActs n
  (slots.foldl (fun (s : State) k => s.cancelKernel n k) s1).settleBezel n

/-- A release accepted: the channels enter QUARANTINE, and its own ticket completes (R312, R316). -/
def State.releaseChans (s : State) (r : List Byte) (tk : Option (Obj × W64)) : State :=
  (((bzChans r).foldl (fun s c => s.quarantine (.chan c)) s).completeTicket tk).settleBezel (bzBezel r)

/-- An accepted request applied. -/
def State.bzApply (s : State) (r cfg : List Byte) (tk : Option (Obj × W64)) : State :=
  match bzOp r with
  | 1 => (s.formBezel r cfg false tk).dispatcherLaunch (bzBezel r) (!(s.freeAt (2 ^ 79)).getLsbD 0)
  | 2 => s.growBezel r tk
  | 3 => s.shrinkBezel r tk
  | 4 => s.dissolveBezel (bzBezel r) tk
  | _ => s.releaseChans r tk

/-! ### bzreq (R312) -/

/-- DONECTR of a request: none when it is 0 or unusable. A page that is not there parks the group (R163). -/
def bzCounter (c : Ctx) (s : State) (ad : W64) : Except Stop (State × Option Obj) :=
  if ad = 0 ∨ ad.toNat % 32 ≠ 0 then .ok (s, none)
  else do
    let (s1, p) ← testAt .sync c s ad
    .ok (s1, Place.counter p)

/-- `bzreq` (R312): the records are read, the task commits, and the request is applied as one operation. -/
def execBzreq (d a : BitVec 8) (s : State) : Host.Outcome State Fault Refusal :=
  issue (.bzreq d a) s fun c s =>
    if c.g.sh then do
      let s1 ← boundary c s false
      takeLvq c s1
    else if badVa (c.s a) then .error (.trap PROT (c.s a))
    else if (c.s a).toNat % 256 ≠ 0 then .error (.trap ALIGN (c.s a))
    else do
      gateA c s
      let (s1, r) ← readRecord c s (c.s a) 256
      let (s2, cfg) ← if bzOp r = 1 ∧ (bzConfig r).toNat % 64 = 0 then readRecord c s1 (bzConfig r) 64 else .ok (s1, [])
      let (s3, ctr) ← bzCounter c s2 (bzDone r)
      let s4 ← boundary c s3 false
      let st := s4.bzStatus (some c.bez) r cfg (bzDone r != 0 && ctr.isNone)
      if st ≠ 0 then issueA c s4 [.scal (sdstNum d) (BitVec.ofNat 64 st)] .ready true
      else match ctr with
        | none => (issueA c s4 [.scal (sdstNum d) 0] .ready true).map fun s => s.bzApply r cfg none
        | some o =>
          match s4.draw o c.handle with
          | .ticket t s5 => (issueA c s5 [.scal (sdstNum d) (t <<< 8)] .ready true).map fun s => s.bzApply r cfg (some (o, t))
          | .wait =>
            (issueA c s4 [.scal (sdstNum d) 0] (.draw o (.bezel (bzBezel r) s4.stepNo) (sdstNum d)) true).map fun s =>
              s.bzApply r cfg (some (o, 0))

/-! ### The events (R307, R315) -/

/-- REHASH_SWEEP_COMPLETE (R310, R315): the old hash is dropped; leaving slices enter QUARANTINE, or a grow ends. -/
def State.rehashDone (s : State) (n : Nat) : Option State :=
  match s.bezel? n with
  | none => none
  | some b =>
    if !b.sweep then none
    else
      let s1 := (s.sweepLines b).modBezel n fun x => { x with sweep := false, oldSlices := [] }
      match b.st with
      | .growing => some ((s1.modBezel n fun x => { x with st := .active, ticket := none }).completeTicket b.ticket)
      | .shrinking =>
        let out := (s1.unitsOf n).filter fun u => match u with | .slice _ => s1.unit u == .leaving n | _ => false
        some ((out.foldl (fun s u => s.quarantine u) s1).settleBezel n)
      | _ => some s1

/-- REHASH_SWEEP_COMPLETE. -/
def execRehashSweepComplete (s : State) : Host.Outcome State Fault Refusal :=
  eventStep s "REHASH_SWEEP_COMPLETE" fun e => match e with | .rehashSweepComplete b => s.rehashDone b | _ => none

/-- A fabric address lies in pseudo-channel `c` of this module. -/
def State.inChan (s : State) (c pa : Nat) : Bool := s.localPa (c * 2 ^ 30) ≤ pa && pa < s.localPa ((c + 1) * 2 ^ 30)

/-- What a scrub removes (R307): a core's copies and translations, a slice's share of its die's TLB, or a channel's bytes, sidecars
and descriptors. -/
def State.scrub (s : State) (u : UnitId) : State :=
  match u with
  | .core c => { s with leases := s.leases.filter fun l => l.core != c, tlb := s.tlb.filter fun e => e.core != c }
  | .slice n => { s with lines := s.lines.filter fun x => x.2 != n, dieTlb := s.dieTlb.filter fun e => !(e.core == n / 48 && Config.tlbShare e.page % 48 == n % 48) }
  | .chan c =>
    { s with
      mem := s.mem.filter fun x => !s.inChan c x.1
      side := s.side.filter fun x => !s.inChan c (256 * x.1)
      leases := s.leases.filter fun l => !s.inChan c (256 * l.sector)
      lines := s.lines.filter fun x => !s.inChan c (1024 * x.1)
      pvDescs := s.pvDescs.filter fun d => !s.inChan c d.frame
      heldCompletions := s.heldCompletions.filter fun h => match h.1 with | .glob pa _ _ => !s.inChan c pa | .stash _ _ _ => true }

/-- UNIT_SCRUB_COMPLETE (R306, R307): the unit is FREE. -/
def State.scrubDone (s : State) (u : UnitId) : Option State :=
  if s.unit u == .quarantine then some ((s.scrub u).setUnit u .free) else none

/-- UNIT_SCRUB_COMPLETE. -/
def execUnitScrubComplete (s : State) : Host.Outcome State Fault Refusal :=
  eventStep s "UNIT_SCRUB_COMPLETE" fun e => match e with | .unitScrubComplete u => s.scrubDone u | _ => none

end Sys2Proof.Machine
end

