-- ==== Sys2Proof/Machine/Func.lean ====
section
/-! DEFINITION. The approximated functions `exp2`, `log2`, `sinpi`, `cospi` and `tanh` (R151 to R153; log entry 7): the
mathematical value to far more bits than any format holds, and the representable values within the bound of R152, of
which `Config.funcPick` names the one delivered. -/

namespace Sys2Proof.Machine

open Sys2Proof

/-- Fraction bits of the fixed-point values here. -/
abbrev fxBits : Nat := 320
/-- One. -/
abbrev fxOne : Nat := 2 ^ fxBits
/-- ln 2. -/
def fxLn2 : Nat := 1480553391661173448385607439722553250922680800745876974795605978609098082859138712941075737848984
/-- π. -/
def fxPi : Nat := 6710401180212168915155840974220003240804194089427148950727106424351713218671805380099500388914039

/-- Product of two fixed-point values. -/
def fxMul (a b : Nat) : Nat := a * b / fxOne

/-- A dyadic magnitude in fixed point, low bits dropped. -/
def fxOf (m : Nat) (e : Int) : Nat :=
  let k := e + fxBits
  if 0 ≤ k then m * 2 ^ k.toNat else m / 2 ^ (min (-k).toNat (Nat.log2 m + 2))

/-- e^z for z below 1, by its series; `n` terms remain, `t` is the last term and `k` its number. -/
def expSeries (z : Nat) : Nat → Nat → Nat → Nat
  | 0, _, t => t
  | n + 1, k, t => t + expSeries z n (k + 1) (fxMul t z / (k + 1))

/-- e^z for a fixed-point z below 1. -/
def fxExp (z : Nat) : Nat := expSeries z 60 0 fxOne

/-- sin θ = θ − θ³/3! + …, as the difference of two series; `t` the last term, `k` its number. -/
def sinSeries (zz : Nat) : Nat → Nat → Nat → Bool → Int
  | 0, _, _, _ => 0
  | n + 1, k, t, neg =>
    (if neg then -(t : Int) else t) + sinSeries zz n (k + 2) (fxMul t zz / ((k + 1) * (k + 2))) (!neg)

/-- sin(π r) for r in [0, 1/2]. -/
def fxSinpi (r : Nat) : Nat :=
  let z := fxMul r fxPi
  (sinSeries (fxMul z z) 40 1 z false).toNat

/-- log₂ of a fixed-point z in [1, 2), bit by bit: `n` bits remain. -/
def logBits : Nat → Nat → Nat → Nat
  | 0, _, acc => acc
  | n + 1, z, acc =>
    let q := fxMul z z
    if 2 * fxOne ≤ q then logBits n (q / 2) (2 * acc + 1) else logBits n q (2 * acc)

/-- Value of a nonnegative pattern. -/
def magVal (f : Fmt) (p : Nat) : Nat × Int :=
  if f.infMag ≤ p then (1, f.qmin + (2 ^ f.eb - 2 : Nat) + f.mb)
  else match f.dec false p with
    | .num _ m e => (m, e)
    | _ => (0, 0)

/-- Whether the signed pattern `p` lies within `k` ulp of the magnitude `m × 2^e`, whose lower neighbour is pattern `lo`. -/
def withinUlp (f : Fmt) (k lo : Nat) (p : Int) (m : Nat) (e : Int) : Bool :=
  let (v, g) := magVal f p.natAbs
  let (a, ga) := magVal f lo
  let (b, gb) := magVal f (lo + 1)
  let q := min (min g e) (min ga gb)
  let fx := fun (x : Nat) (h : Int) => (x : Int) * 2 ^ (h - q).toNat
  let d := (if p < 0 then -fx v g else fx v g) - fx m e
  decide (d.natAbs ≤ k * (fx b gb - fx a ga))

/-- The result of an approximated function: the value ±m × 2^e is the mathematical one, and the delivered value lies
within `k` ulp of it (R152); which one is left open (log entry 7). Below a power of two the values lie half as far apart
as above it, so up to four patterns below the value are within 2 ulp; a negative pattern is a value of the other sign. -/
def approxE (fn k : Nat) (md : BitVec 16) (x : Nat) (neg : Bool) (m : Nat) (e : Int) : Nat :=
  let f := fmtOf (etype md)
  let lo := min (f.round 1 false false (.num false m e)) (f.infMag - 1)
  let cand : List Int := ((List.range 6).map fun j => ((lo + j : Nat) : Int) - 3).filter fun p : Int => decide (p ≤ (f.infMag : Int)) && withinUlp f k lo p m e
  let ovf := decide (f.infMag ≤ f.round 2 false false (.num false m e)) && lo + 1 == f.infMag
  let p := (cand[Config.funcPick fn (elemBits (etype md)) x md.toNat % max 1 cand.length]?).getD (lo : Int)
  let s := if neg != decide (p < 0) then f.sgn else 0
  if ovf && cand.isEmpty || p = f.infMag then s + (if satBit md || overflowsToMax (rnd md) neg then f.infMag - 1 else f.infMag)
  else if ftzBit md && p.natAbs < 2 ^ f.mb then s
  else s + p.natAbs

/-- An exact point of a function. -/
def exactE (md : BitVec 16) (neg : Bool) (m : Nat) (e : Int) : Nat :=
  (fmtOf (etype md)).round (rnd md) (satBit md) (ftzBit md) (.num neg m e)

/-- `exp2` (R151, R152). -/
def exp2E (md : BitVec 16) (x : Nat) : Nat :=
  let f := fmtOf (etype md)
  match f.dec (ftzBit md) x with
  | .nan => f.nan
  | .inf neg => if neg then 0 else f.infMag
  | .num neg m e =>
    let v := roundInt 3 neg m e
    if m = 0 then exactE md false 1 0
    else if 300 < v then exactE md false 1 300
    else if v < -300 then approxE 0 2 md x false 1 (-300)
    else
      let whole := roundInt 1 neg m e
      let isInt := decide (0 ≤ e) || m % 2 ^ (min (-e).toNat (Nat.log2 m + 2)) == 0
      if isInt && f.qmin ≤ whole then exactE md false 1 whole
      else
        let p : Int := (if neg then -(fxOf m e : Int) else fxOf m e) - v * fxOne
        approxE 0 2 md x false (fxExp (fxMul p.toNat fxLn2)) (v - fxBits)

/-- `log2` (R151, R152). -/
def log2E (md : BitVec 16) (x : Nat) : Nat :=
  let f := fmtOf (etype md)
  match f.dec (ftzBit md) x with
  | .nan => f.nan
  | .inf neg => if neg then f.nan else f.infMag
  | .num neg m e =>
    if m = 0 then f.sgn + f.infMag
    else if neg then f.nan
    else
      let n : Int := (Nat.log2 m : Int) + e
      if m = 2 ^ Nat.log2 m then exactE md (decide (n < 0)) n.natAbs 0
      else
        let fr := logBits 200 (m * 2 ^ (fxBits - Nat.log2 m)) 0
        let v : Int := n * 2 ^ 200 + fr
        approxE 1 2 md x (decide (v < 0)) v.natAbs (-200)

/-- The encodings nearest to 1/6 and 1/3 (R153). -/
def sixthE (md : BitVec 16) (third : Bool) : Nat :=
  match etype md, third with
  | 2, false => 0x3E2AAAAB | 2, true => 0x3EAAAAAB
  | 3, false => 0x3E2B | 3, true => 0x3EAB
  | _, false => 0x3155 | _, true => 0x3555

/-- `sinpi` (R152, R153). -/
def sinpiE (md : BitVec 16) (x : Nat) : Nat :=
  let f := fmtOf (etype md)
  match f.dec (ftzBit md) x with
  | .num neg m e =>
    let a := fxOf m e
    if m = 0 || a = fxOne then (if neg then f.sgn else 0)
    else if fxOne < a then f.nan
    else if 2 * a = fxOne then exactE md neg 1 0
    else if x % f.sgn = sixthE md false then exactE md neg 1 (-1)
    else approxE 2 1 md x neg (fxSinpi (if 2 * a ≤ fxOne then a else fxOne - a)) (-fxBits)
  | _ => f.nan

/-- `cospi` (R152, R153). -/
def cospiE (md : BitVec 16) (x : Nat) : Nat :=
  let f := fmtOf (etype md)
  match f.dec (ftzBit md) x with
  | .num _ m e =>
    let a := fxOf m e
    if m = 0 then exactE md false 1 0
    else if fxOne < a then f.nan
    else if a = fxOne then exactE md true 1 0
    else if 2 * a = fxOne then 0
    else if x % f.sgn = sixthE md true then exactE md false 1 (-1)
    else if 2 * a < fxOne then approxE 3 1 md x false (fxSinpi (fxOne / 2 - a)) (-fxBits)
    else approxE 3 1 md x true (fxSinpi (a - fxOne / 2)) (-fxBits)
  | _ => f.nan

/-- `tanh` (R151, R152). -/
def tanhE (md : BitVec 16) (x : Nat) : Nat :=
  let f := fmtOf (etype md)
  match f.dec (ftzBit md) x with
  | .nan => f.nan
  | .inf neg => (if neg then f.sgn else 0) + f.round 0 false false (.num false 1 0)
  | .num neg m e =>
    if m = 0 then (if neg then f.sgn else 0)
    else if 50 < (roundInt 1 false m e) then approxE 4 2 md x neg (2 ^ 100 - 1) (-100)
    else
      let z := 2 * fxOf m e
      let n := z / fxLn2
      let ez := fxExp (z - n * fxLn2) * 2 ^ n
      approxE 4 2 md x neg ((ez - fxOne) * fxOne / (ez + fxOne)) (-fxBits)

end Sys2Proof.Machine
end

