-- ==== Sys2Proof/Machine/Convert.lean ====
section
/-! DEFINITION. The conversion and function instructions 0x70 to 0x7E (R147 to R154). -/

namespace Sys2Proof.Machine

open Sys2Proof

/-- `cvt` of a lane (R147). -/
def cvtLane (m : BitVec 16) (ef et : Nat) (x : W32) : W32 :=
  ofElems et fun j => if j < elemCount ef then convertE m ef et (elem ef x j) else 0

/-- `cvt` (R147). -/
def execCvt (d a : BitVec 8) (f g : BitVec 4) (s : State) : Host.Outcome State Fault Refusal :=
  issue (.cvt d a f g) s fun c s =>
    let x := c.v a
    vecRes c s d (uniTag [x]) fun i => cvtLane c.grp.gmode f.toNat g.toNat (x.l.lane i)

/-- `cvtf` of a lane (R148): `enc` replaces element `j` of `z`. -/
def cvtfLane (m : BitVec 16) (fs : W64) (enc : Bool) (j : Nat) (x z : W32) : W32 :=
  let n := fsBits fs
  if enc then
    let v := f32ToFs fs (rnd m) (ftzBit m) x.toNat
    let old := z.toNat / 2 ^ (n * j) % 2 ^ n
    let w := z.toNat - old * 2 ^ (n * j) + v * 2 ^ (n * j)
    BitVec.ofNat 32 (if fsFormat fs = 3 then w % 2 ^ 30 else w)
  else BitVec.ofNat 32 (fsToF32 fs (ftzBit m) (x.toNat / 2 ^ (n * j) % 2 ^ n))

/-- `cvtf` (R148): `e` 0 decodes and 1 encodes. -/
def execCvtf (d a : BitVec 8) (e : BitVec 1) (j : BitVec 4) (sl : BitVec 3) (s : State) :
    Host.Outcome State Fault Refusal :=
  issue (.cvtf d a e j sl) s fun c s =>
    let fs := recFslot c.kern.record sl.toNat
    if fsElems fs ≤ j.toNat then .error (.trap ILLOP)
    else
      let x := c.v a
      let z := c.v d
      vecRes c s d (uniTag (if e = 1 then [x, z] else [x])) fun i =>
        cvtfLane c.grp.gmode fs (e == 1) j.toNat (x.l.lane i) (z.l.lane i)

/-- The wide type of a packed type (R149). -/
def wideOf (et : Nat) : Nat := if et ≤ 4 then 2 else if et = 5 then 0 else if et = 6 then 1 else et - 2

/-- A packed type (R149). -/
def isPacked (et : Nat) : Bool := 3 ≤ et

/-- `pack` of a lane (R149): half of the elements from each source. -/
def packLane (m : BitVec 16) (x y : W32) : W32 :=
  let et := etype m
  let w := wideOf et
  let h := elemCount et / 2
  ofElems et fun j => convertE m w et (if j < h then elem w x j else elem w y (j - h))

/-- `unpkl` and `unpkh` of a lane (R149): exact, but for FTZ on float sources (R41). -/
def unpackLane (m : BitVec 16) (high : Bool) (x : W32) : W32 :=
  let et := etype m
  let w := wideOf et
  let h := elemCount et / 2
  ofElems w fun j => convertE m et w (elem et x (if high then h + j else j))

/-- `pack` (R149). -/
def execPack (d a b : BitVec 8) (s : State) : Host.Outcome State Fault Refusal :=
  vecBits (.pack d a b) d a b isPacked packLane s

/-- `unpkl` (R149). -/
def execUnpkl (d a : BitVec 8) (s : State) : Host.Outcome State Fault Refusal :=
  issue (.unpkl d a) s fun c s => typed c isPacked <|
    let x := c.v a
    vecRes c s d (uniTag [x]) fun i => unpackLane c.grp.gmode false (x.l.lane i)

/-- `unpkh` (R149). -/
def execUnpkh (d a : BitVec 8) (s : State) : Host.Outcome State Fault Refusal :=
  issue (.unpkh d a) s fun c s => typed c isPacked <|
    let x := c.v a
    vecRes c s d (uniTag [x]) fun i => unpackLane c.grp.gmode true (x.l.lane i)

/-- A correctly rounded function of one operand, which accepts only RNE (R150, R151). -/
def rounded1 (i : Instr) (d a : BitVec 8) (f : Flo → Flo) (s : State) : Host.Outcome State Fault Refusal :=
  issue i s fun c s => typed c isFlt <|
    let m := c.grp.gmode
    let x := c.v a
    if rnd m ≠ 0 then .error (.trap ILLOP)
    else
      let ft := fmtOf (etype m)
      vecRes c s d (uniTag [x]) fun i =>
        lane1 (etype m) (fun v => ft.round 0 (satBit m) (ftzBit m) (f (ft.dec (ftzBit m) v))) (x.l.lane i)

/-- `rcp` (R151). -/
def execRcp (d a : BitVec 8) (s : State) : Host.Outcome State Fault Refusal :=
  rounded1 (.rcp d a) d a (fun x => (Flo.num false 1 0).div x) s

/-- `rsq` (R151). -/
def execRsq (d a : BitVec 8) (s : State) : Host.Outcome State Fault Refusal := rounded1 (.rsq d a) d a Flo.rsqrt s

/-- `sqrt` (R151). -/
def execSqrt (d a : BitVec 8) (s : State) : Host.Outcome State Fault Refusal := rounded1 (.sqrt d a) d a Flo.sqrt s

/-- `exp2` (R152). -/
def execExp2 (d a : BitVec 8) (s : State) : Host.Outcome State Fault Refusal :=
  vec1 (.exp2 d a) d a isFlt exp2E s

/-- `log2` (R152). -/
def execLog2 (d a : BitVec 8) (s : State) : Host.Outcome State Fault Refusal :=
  vec1 (.log2 d a) d a isFlt log2E s

/-- `sinpi` (R153). -/
def execSinpi (d a : BitVec 8) (s : State) : Host.Outcome State Fault Refusal :=
  vec1 (.sinpi d a) d a isFlt sinpiE s

/-- `cospi` (R153). -/
def execCospi (d a : BitVec 8) (s : State) : Host.Outcome State Fault Refusal :=
  vec1 (.cospi d a) d a isFlt cospiE s

/-- `rred` (R154). -/
def execRred (d a : BitVec 8) (s : State) : Host.Outcome State Fault Refusal :=
  vec1 (.rred d a) d a isFlt rredE s

/-- `tanh` (R152). -/
def execTanh (d a : BitVec 8) (s : State) : Host.Outcome State Fault Refusal :=
  vec1 (.tanh d a) d a isFlt tanhE s

/-- `div` (R151). -/
def execDiv (d a b : BitVec 8) (s : State) : Host.Outcome State Fault Refusal :=
  issue (.div d a b) s fun c s => typed c isFlt <|
    let m := c.grp.gmode
    let x := c.v a
    let y := c.v b
    if rnd m ≠ 0 then .error (.trap ILLOP)
    else
      let ft := fmtOf (etype m)
      vecRes c s d (uniTag [x, y]) fun i =>
        lane2 (etype m) (fun v w => ft.round 0 (satBit m) (ftzBit m) ((ft.dec (ftzBit m) v).div (ft.dec (ftzBit m) w)))
          (x.l.lane i) (y.l.lane i)

end Sys2Proof.Machine
end

