-- ==== Sys2Proof/Machine/Pave.lean ====
section
/-! DEFINITION. Pavé engines (R341 to R350): opcodes 0xE8 to 0xEA, the pavé words, and PAVE_COMMAND_START,
PAVE_COMMAND_COMPLETE and PAVE_FILL_COMPLETE. -/

namespace Sys2Proof.Machine

open Sys2Proof

/-! ### Engines and commands -/

/-- The engine of a channel; one that is not listed is in its reset state (R341). -/
def State.engine (s : State) (ch : Nat) : PvEngine := (s.engines.find? fun e => e.chan == ch).getD { chan := ch }

/-- The state with a channel's engine changed. -/
def State.modEngine (s : State) (ch : Nat) (f : PvEngine → PvEngine) : State :=
  { s with engines := f (s.engine ch) :: s.engines.filter fun e => e.chan != ch }

/-- The commands that wait for the engine of a channel, in the order of their arrival; the first 64 stand in its queue
(R341). -/
def State.pvWaiting (s : State) (ch : Nat) : List PvCmd :=
  s.pvCmds.filter fun c => c.waitAt.contains ch && c.by_.drawn && !c.stopped

/-- A pavé command by number. -/
def State.pvCmd? (s : State) (id : Nat) : Option PvCmd := s.pvCmds.find? fun c => c.id == id

/-- The state with a pavé command changed. -/
def State.modPv (s : State) (id : Nat) (f : PvCmd → PvCmd) : State :=
  { s with pvCmds := s.pvCmds.map fun (c : PvCmd) => if c.id == id then f c else c }

/-- PROG. -/
def prProg (r : List Byte) : W64 := dword r 0
/-- VEC. -/
def prVec (r : List Byte) : W64 := dword r 8
/-- PAGE. -/
def prPage (r : List Byte) : W64 := dword r 16
/-- OUT. -/
def prOut (r : List Byte) : W64 := dword r 24
/-- STAT. -/
def prStat (r : List Byte) : W64 := dword r 32
/-- VLEN. -/
def prVlen (r : List Byte) : Nat := bits (dword r 40).toNat 13 0 + 1
/-- VFMT: F32 elements. -/
def prF32 (r : List Byte) : Bool := (dword r 40).getLsbD 14
/-- KROW. -/
def prKrow (r : List Byte) : Nat := bits (dword r 40).toNat 31 16
/-- SLOT. -/
def prSlot (r : List Byte) : Nat := bits (dword r 40).toNat 34 32
/-- Program words. -/
def prWords (r : List Byte) : Nat := bits (dword r 40).toNat 45 36 + 1

/-- A must-be-zero bit of a program record is set (R347). -/
def progMbz (r : List Byte) : Bool :=
  (dword r 40).getLsbD 15 || (dword r 40).getLsbD 35 || bits (dword r 40).toNat 63 46 ≠ 0 || (slice r 48 16).any (· != 0)

/-- A row of `n` elements fits a row of `2 ^ rb` sectors (R347, R38). -/
def krowFits (fs : W64) (n rb : Nat) : Bool := n * fsBits fs ≤ 8 * 256 * 2 ^ rb

/-! ### Issue (R344, R347) -/

/-- The PAVE leaf of a page address on this module (R342, R344, R347); a page that is not there parks the group. -/
def paveLeaf (c : Ctx) (s : State) (page : W64) (write : Bool) : Except Stop Leaf :=
  if badVa page || isWindow page then .error (.trap PROT page)
  else match s.lookup c.bez c.core page.toNat with
    | .notPresent l => .error (.done (s.parkGroup c page 1 l write false))
    | .bad l => .error (.done (s.parkGroup c page 2 l write false))
    | .leaf l => if leafKind l.raw = 4 ∧ l.level = 2 then .ok l else .error (.trap PROT page)

/-- The leaf may be used by the launch: OWNER open or its slot, on this module (R344, R347). -/
def paveOwned (c : Ctx) (s : State) (l : Leaf) : Bool :=
  (leafOwner l.raw == 0 || leafOwner l.raw == c.key) && leafDevice l.raw == s.devId

/-- The pavé descriptor of a leaf's frame. -/
def State.leafDesc (s : State) (b : Bezel) (l : Leaf) : Option PvDesc := s.pvDesc? (s.leafPa b l 0) (leafOwner l.raw)

/-- A new pavé descriptor finds its channel full (R342, R344). -/
def State.descsFull (s : State) (frame : Nat) : Bool :=
  2048 ≤ (s.pvDescs.filter fun d => d.frame / 2 ^ 30 == frame / 2 ^ 30 && d.epoch == s.epochOf d.owner).length

/-- `pvfill` (R344). -/
def execPvfill (d a : BitVec 8) (s : State) : Host.Outcome State Fault Refusal :=
  issue (.pvfill d a) s fun c s =>
    let ops := [c.s d, c.s a]
    if c.em = 0 then classB c s ops fun s => instantB c s .ok
    else if c.g.sh then do
      let s1 ← boundary c s false
      .ok (sign c s1 ops)
    else if (c.s a).toNat % 64 ≠ 0 && !badVa (c.s a) then .error (.trap ALIGN (c.s a))
    else do
      gateB c s
      let (s1, r) ← readRecord c s (c.s a) 64
      let page := dword r 0
      let src := dword r 8
      if page.toNat % 2 ^ 23 ≠ 0 then throw (.trap ALIGN page)
      if src.toNat % 256 ≠ 0 then throw (.trap ALIGN src)
      if bits (dword r 16).toNat 63 3 ≠ 0 || (slice r 24 40).any (· != 0) then throw (.trap ILLOP)
      let rb := (dword r 16).toNat % 8
      let l ← paveLeaf c s1 page true
      if descStripe (s1.idesc c.bez (leafIdesc l.raw)) < rb then throw (.trap ILLOP)
      if !leafW l.raw || !paveOwned c s1 l then throw (.trap PROT page)
      let frame := s1.leafPa c.bez l 0
      match s1.leafDesc c.bez l with
      | some x => if x.gen = 0xFFFFFFFF then throw (.trap PROT page)
      | none => if s1.descsFull frame then throw (.trap PROT page)
      let (s2, o) ← if c.s d = 0 then .ok (s1, none) else do
        let (s2, o) ← counterAt c s1 .sync (c.s d)
        .ok (s2, some o)
      let s3 := (← boundary c s2 false).publish c.g c.core 3
      let s4 ← issueB c s3 (.engine s3.nextCmd) fun op s =>
        .ok (drawFor c s op o fun by_ wait s =>
          let cmd : Cmd := { id := s.nextCmd, by_ := by_, what := .fill frame page l src rb }
          let s1 := { s with cmds := s.cmds ++ [cmd], nextCmd := s.nextCmd + 1 }
          match wait with
          | none => s1
          | some o => c.mod s1 fun g => g.resolve op id (.draw o (.cmd cmd.id) 33))
      .ok (sign c s4 ops)

/-- The first addresses of the sectors that an element range touches, with the elements of each. -/
def vecAds (va : W64) (n size : Nat) : List W64 :=
  let first := va.toNat / 256
  (List.range ((va.toNat + n * size - 1) / 256 - first + 1)).map fun i =>
    if i = 0 then va else BitVec.ofNat 64 (256 * (first + i))

/-- An input element as BF16 (R347). -/
def vecElem (f32In : Bool) (x : Nat) : BitVec 16 :=
  BitVec.ofNat 16 (if f32In then bf16.round 0 false false (f32.dec false x) else x)

/-- The input vector as it stands at issue (R347): its elements, and whether a sector of it is poisoned. -/
def readVec (c : Ctx) (s : State) (r : List Byte) (ps : List (Nat × Place)) : List (BitVec 16) × Bool :=
  let size := if prF32 r then 4 else 2
  let va := prVec r
  let g := (s.group? c.g).getD c.grp
  let byte := fun (a : Nat) => match ps[a / 256 - va.toNat / 256]? with
    | some (_, .glob pa sync ow v) => s.loadByte c.g g c.core (.glob pa sync ow v) (a - (if a / 256 = va.toNat / 256 then va.toNat else a / 256 * 256))
    | some (_, .stash t off v) => s.loadByte c.g g c.core (.stash t off v) (a - (if a / 256 = va.toNat / 256 then va.toNat else a / 256 * 256))
    | none => 0
  ((List.range (prVlen r)).map fun i => vecElem (prF32 r) (leNat ((List.range size).map fun j => byte (va.toNat + size * i + j))),
   ps.any fun p => s.placePoisoned p.2)

/-- `pvsub` (R347). -/
def execPvsub (d a b : BitVec 8) (s : State) : Host.Outcome State Fault Refusal :=
  issue (.pvsub d a b) s fun c s =>
    let ops := [c.s d, c.s a, c.s b]
    let set := (c.s b).toNat
    if c.em = 0 then classB c s ops fun s => instantB c s .ok
    else if 2 ^ 20 ≤ set then .error (.trap ILLOPERAND)
    else if c.g.sh then do
      let s1 ← boundary c s false
      .ok (sign c s1 ops)
    else if (c.s a).toNat % 64 ≠ 0 && !badVa (c.s a) then .error (.trap ALIGN (c.s a))
    else do
      gateB c s
      let (s1, r) ← readRecord c s (c.s a) 64
      let first := bits set 9 0
      let count := bits set 19 10 + 1
      let fs := recFslot c.kern.record (prSlot r)
      let esize := if prF32 r then 4 else 2
      let aligns : List (W64 × Nat) := [(prPage r, 2 ^ 23), (prVec r, esize), (prProg r, 4), (prOut r, 4), (prStat r, 8)]
      match aligns.find? fun p => p.1.toNat % p.2 ≠ 0 with
      | some p => throw (.trap ALIGN p.1)
      | none => pure ()
      if progMbz r || !(fsFormat fs = 0 || fsFormat fs = 2 || fsFormat fs = 3) || prKrow r = 0 || 768 < first + count then
        throw (.trap ILLOP)
      let l ← paveLeaf c s1 (prPage r) false
      match s1.leafDesc c.bez l with
      | some x => if !krowFits fs (prKrow r) x.rb then throw (.trap ILLOP)
      | none => pure ()
      let dsc := s1.idesc c.bez (leafIdesc l.raw)
      if !paveOwned c s1 l || !((List.range count).all fun i => s1.memberOf (.chan (first + i)) c.bez.num &&
          descFirst dsc ≤ first + i && first + i < descFirst dsc + descCount dsc) then throw (.trap PROT (prPage r))
      let ads := vecAds (prVec r) (prVlen r) esize
      let (s2, ps, _) ← checkLanes c s1 .engine (List.range ads.length) (fun i => ads[i]?.getD 0) 1
      let (s3, o) ← if c.s d = 0 then .ok (s2, none) else do
        let (s3, o) ← counterAt c s2 .sync (c.s d)
        .ok (s3, some o)
      let s4 := (← boundary c s3 false).publish c.g c.core 3
      let s5 := (s4.fillPlaces (ps.map (·.2))).checkPlaces c.handle (ps.map (·.2))
      let (vec, bad) := readVec c s5 r ps
      let s6 ← issueB c s5 (.engine s5.nextCmd) fun op s =>
        .ok (drawFor c s op o fun by_ wait s =>
          let cmd : PvCmd :=
           { id := s.nextCmd, by_ := by_, record := r, fslot := fs, vec := vec, first := first, count := count,
             pagePa := s.leafPa c.bez l 0, leaf := l, vecPoison := bad, waitAt := (List.range count).map (first + ·) }
          let s1 := { s with pvCmds := s.pvCmds ++ [cmd], nextCmd := s.nextCmd + 1 }
          match wait with
          | none => s1
          | some o => c.mod s1 fun g => g.resolve op id (.draw o (.pv cmd.id) 33))
      .ok (sign c s6 ops)

/-- State code of R350. -/
def PvState.code : PvState → Nat
  | .idle => 0 | .running => 1 | .waiting => 2 | .fenced => 3

/-- The command whose completion the engine of a channel makes: the engine ended last of its set, and takes no other command
before the status word is written (R341, R347; log entry 23). -/
def State.completing (s : State) (ch : Nat) : Option PvCmd :=
  s.pvCmds.find? fun c => c.count ≤ c.ended.length && c.ended.getLast?.any (fun x => x.1 == ch) && !c.stopped

/-- The state of an engine as R350 gives it: WAITING also while a fault on STAT holds the completion that it makes (R341). -/
def State.pvState (s : State) (ch : Nat) : PvState :=
  if (s.engine ch).st == .idle && (s.completing ch).any fun c => c.fault.isSome || c.migr then .waiting else (s.engine ch).st

/-- `pvstat` (R350). -/
def execPvstat (d a f : BitVec 8) (s : State) : Host.Outcome State Fault Refusal :=
  issue (.pvstat d a f) s fun c s => classA c s fun s => do
    gateA c s
    let x := c.s a
    if f = 0 then
      let w := if 767 < x.toNat || !s.memberOf (.chan x.toNat) c.bez.num then 0
        else
          let e := s.engine x.toNat
          BitVec.ofNat 64 ((s.pvState x.toNat).code + e.lastErr * 2 ^ 8 + min 64 (s.pvWaiting x.toNat).length * 2 ^ 16 + e.completed.toNat * 2 ^ 32)
      issueA c s [.scal (sdstNum d) w] .ready false
    else if badVa x then throw (.trap PROT x)
    else if x.toNat % 2 ^ 23 ≠ 0 then throw (.trap ALIGN x)
    else if isWindow x then issueA c s [.scal (sdstNum d) 0] .ready false
    else match s.lookup c.bez c.core x.toNat with
      | .notPresent l => .error (.done (s.parkGroup c x 1 l false false))
      | .bad l => .error (.done (s.parkGroup c x 2 l false false))
      | .leaf l =>
        let w := if leafKind l.raw = 4 then (match s.leafDesc c.bez l with
            | some p => BitVec.ofNat 64 (p.gen.toNat + p.rb * 2 ^ 32)
            | none => 0) else 0
        issueA c (s.touch c.bez c.core [x]) [.scal (sdstNum d) w] .ready false

/-! ### The fill (R344) -/

/-- A sector of a fill: its source bytes and poison, or what stops the fill there; a sector of the page that carries another
tenant's tag is PROT (R353). -/
def State.fillSector (s : State) (t : Team) (k : Kernel) (b : Bezel) (since : Nat) (page src : W64) (l : Leaf) (i : Nat) :
    Except EngineStop (List Byte × Bool) :=
  let tag := (s.sidecar (s.leafPa b l (256 * i) / 256)).owner
  if tag ≠ 0 && tag ≠ leafOwner l.raw then .error (.prot PROT (page + BitVec.ofNat 64 (256 * i)))
  else s.engineRead t k b since (src + BitVec.ofNat 64 (256 * i)) 256

/-- Sector `i` of a page written by a fill: owner, PAVE and POISON of the sidecar with it (R9, R344). -/
def State.putFill (s : State) (b : Bezel) (l : Leaf) (i : Nat) (x : List Byte × Bool) : State :=
  let pa := s.leafPa b l (256 * i)
  let data := if x.2 then (List.range 256).map fun j => s.freeAt (pa + j) else x.1
  let s1 := s.sectorWrite (pa / 256) data (leafOwner l.raw) 0 x.2 (some (leafSync l.raw))
  let s2 := s1.setSidecar (pa / 256) { s1.sidecar (pa / 256) with pave := true }
  { s2 with leases := s2.leases.filter fun y => y.sector != pa / 256 }

/-- The pavé descriptor of a frame after a fill has raised GEN (R342, R344). -/
def State.raiseGen (s : State) (frame owner rb : Nat) : State :=
  let gen : W32 := match s.pvDesc? frame owner with | some d => d.gen + 1 | none => 1
  let d : PvDesc := { frame := frame, owner := owner, epoch := s.epochOf owner, gen := gen, rb := rb }
  { s with pvDescs := d :: s.pvDescs.filter fun x => x.frame != frame }

/-- A fill that begins (R344): GEN rises, and from now on reads of the page wait until the fill ends. -/
def State.beginFill (s : State) (c : Cmd) : State :=
  match c.what with
  | .fill frame _ l _ rb => if c.begun then s else (s.raiseGen frame (leafOwner l.raw) rb).modCmd c.id fun c => { c with begun := true }
  | _ => s

/-- GEN cannot rise, or a new descriptor finds its channel full, when the fill begins (R342 to R344). -/
def State.genBlocked (s : State) (frame owner : Nat) : Bool :=
  match s.pvDesc? frame owner with
  | some d => d.gen == 0xFFFFFFFF
  | none => s.descsFull frame

/-- PAVE_FILL_COMPLETE (R344): in the order of arrival at the memory controller for one page, and when no pavé command reads it; a
fill that parks has begun. One whose GEN cannot rise after the fills before it ends with PROT and writes nothing (log entry 23). -/
def State.fillComplete (s : State) (id : Nat) : Option State :=
  match s.cmd? id with
  | none => none
  | some cmd =>
    match cmd.what, s.owner? cmd.by_ with
    | .fill frame page l src _, some (t, k, b) =>
      let before := (s.cmds.takeWhile fun c => c.id != id).any fun c => c.by_.drawn && match c.what with | .fill f _ _ _ _ => f == frame | _ => false
      let read := s.pvCmds.any fun c => c.pagePa == frame && c.gen.isSome
      if cmd.parked || cmd.stopped || !cmd.by_.drawn || before || (read && !cmd.begun) then none
      else if !cmd.begun && s.genBlocked frame (leafOwner l.raw) then some (s.trapCmd cmd PROT page)
      else
        let secs : List (Except EngineStop (List Byte × Bool)) := (List.range 32768).map fun i => s.fillSector t k b cmd.by_.since page src l i
        let good := (secs.takeWhile fun x => match x with | .ok _ => true | .error _ => false).filterMap fun x => match x with
          | .ok y => some y
          | .error _ => none
        let stop : Option EngineStop := secs.findSome? fun x => match x with | .error e => some e | .ok _ => none
        let bad := (good.zipIdx.filter fun x => x.1.2).map fun x => src + BitVec.ofNat 64 (256 * x.2)
        let s1 := s.beginFill cmd
        let put := good.zipIdx.foldl (fun (s : State) x => s.putFill b l x.2 x.1) (s1.checkSources t k b cmd.by_.handle bad)
        match stop with
        | none => some (put.endCmd cmd)
        | some (.prot code va) => some (put.trapCmd cmd code va)
        | some (.park va ca lv w) => some (s1.parkCmd cmd va ca lv w (placeWord t cmd.by_.g.grp))
        | some .migr => some (s1.migrCmd cmd)
        | some .later => none
    | _, _ => none

/-- PAVE_FILL_COMPLETE. -/
def execPaveFillComplete (s : State) : Host.Outcome State Fault Refusal :=
  eventStep s "PAVE_FILL_COMPLETE" fun e => match e with | .paveFillComplete f => s.fillComplete f | _ => none

/-! ### Running a program (R341, R345 to R348) -/

/-- Error codes of R348: ILLWORD 1, RANGE 2, RUNOFF 3, POISON 4, PROT 5, EMPTY 6, FENCED 7. An engine reports to its command and
turns to its queue. -/
def State.pvEnd (s : State) (ch id err : Nat) : State :=
  let idx := (s.engine ch).idx
  (s.modPv id fun c => { c with ended := c.ended ++ [(ch, err, idx)] }).modEngine ch fun e =>
    { chan := ch, st := if e.st == .fenced then .fenced else .idle, lastErr := err, completed := e.completed + 1 }

/-- The page fault of an engine (R163): WAITING, with the fault record. -/
def State.pvPark (s : State) (ch : Nat) (c : PvCmd) (t : Team) (va : W64) (cause level : Nat) (write : Bool) : State :=
  (s.fault c.by_.bezel { va := va, cause := cause, level := level, write := write, engine := true, handle := c.by_.handle,
                         place := placeWord t c.by_.g.grp, joiner := .cmd c.id }).modEngine ch fun e =>
    { e with st := .waiting, fault := some va, migr := false }

/-- What stops an engine at an access (R163, R347, R348). -/
def State.pvStop (s : State) (ch : Nat) (c : PvCmd) (t : Team) : EngineStop → State
  | .prot code va => (s.deferTrap c.by_ code va).pvEnd ch c.id 5
  | .park va ca l w => s.pvPark ch c t va ca l w
  | .migr => s.modEngine ch fun e => { e with st := .waiting, fault := none, migr := true }
  | .later => s.modEngine ch fun e => { e with st := .waiting, fault := none, migr := false }

/-- The word at the engine's index fetched (R341); past the program's end the engine ends with RUNOFF, on a poisoned word
with POISON. -/
def State.pvFetch (s : State) (ch : Nat) : State :=
  let e := s.engine ch
  match e.cur.bind fun i => s.pvCmd? i with
  | none => s
  | some c =>
    if prWords c.record ≤ e.idx then s.pvEnd ch c.id 3
    else match s.owner? c.by_ with
      | none => s
      | some (t, k, b) =>
        match s.engineRead t k b c.by_.since (prProg c.record + BitVec.ofNat 64 (4 * e.idx)) 4 with
        | .error x => s.pvStop ch c t x
        | .ok (_, true) => (s.checkSources t k b c.by_.handle [prProg c.record + BitVec.ofNat 64 (4 * e.idx)]).pvEnd ch c.id 4
        | .ok (l, false) => s.modEngine ch fun e => { e with st := .running, fault := none, migr := false, outs := [], word := BitVec.ofNat 32 (leNat l) }

/-- A WAITING engine retries its word (R341): the fill of its page has completed, or the open task that held its access. -/
def State.pvResume (s : State) (ch : Nat) : Option State :=
  let e := s.engine ch
  if e.st == .waiting && e.fault.isNone && !e.migr && !((e.cur.bind fun i => s.pvCmd? i).any fun c => s.filling c.pagePa) then some (s.pvFetch ch)
  else none

/-- The command taken from the queue of a channel's engine (R341). -/
def State.pvTake (s : State) (ch id : Nat) : State := s.modPv id fun c => { c with waitAt := c.waitAt.filter (· != ch) }

/-- PAVE_COMMAND_START (R341): an idle engine takes the command that arrived first, in its reset state or in the state that a
context held (R302); a fenced one answers FENCED; a WAITING one retries. -/
def State.commandStart (s : State) (ch : Nat) : Option State :=
  let e := s.engine ch
  if e.cur.isSome then s.pvResume ch
  else if (s.completing ch).any fun c => prStat c.record ≠ 0 then none
  else match s.pvWaiting ch with
    | [] => none
    | c :: _ =>
      let s1 := s.pvTake ch c.id
      if e.st == .fenced then some (s1.pvEnd ch c.id 7)
      else match c.saved.find? fun x => x.chan == ch with
        | some x =>
          let s2 := (s1.modEngine ch fun e => { x with completed := e.completed, lastErr := e.lastErr, cur := some c.id }).modPv c.id
            fun c => { c with saved := c.saved.filter fun y => y.chan != ch }
          some (s2.pvFetch ch)
        | none =>
          let s2 := s1.modEngine ch fun e => { chan := ch, st := .running, cur := some c.id, lastErr := e.lastErr, completed := e.completed }
          some (s2.pvFetch ch)

/-- PAVE_COMMAND_START. -/
def execPaveCommandStart (s : State) : Host.Outcome State Fault Refusal :=
  eventStep s "PAVE_COMMAND_START" fun e => match e with | .paveCommandStart ch => s.commandStart ch | _ => none

/-- How a pavé word ends: the engine goes on, errs, ends, or must wait. -/
inductive PvRes where
  | next (s : State)
  | err (code : Nat) (s : State)
  | done (s : State)
  | stop (x : EngineStop)

/-- A pavé word executed by the engine that a step runs (R346). -/
def pvWord (s : State) (f : PvEngine → PvCmd → State → PvRes) : Host.Outcome State Fault Refusal :=
  match s.curEng with
  | none => .refused .noIssuer
  | some ch =>
    let e := s.engine ch
    match e.cur.bind fun i => s.pvCmd? i with
    | none => .refused .noIssuer
    | some c =>
      if e.st != .running then .refused (.notEnabled "pave word")
      else .next (match f e c s with
        | .next s1 => (s1.modEngine ch fun e => { e with idx := e.idx + 1, outs := [] }).pvFetch ch
        | .err code s1 => s1.pvEnd ch c.id code
        | .done s1 => s1.pvEnd ch c.id 0
        | .stop x => match s.owner? c.by_ with
          | some (t, _, _) => s.pvStop ch c t x
          | none => s)

/-- The generation that a command reads, fixed at its first use of the page (R238); none for a page without a
descriptor. -/
def State.pvGen (s : State) (c : PvCmd) : Option (W32 × Nat) :=
  match c.gen with
  | some g => some g
  | none => (s.pvDesc? c.pagePa (leafOwner c.leaf.raw)).map fun d => (d.gen, d.rb)

/-- Words that use the page: they wait for a fill in progress (R344); EMPTY without a descriptor, RANGE when KROW does not fit the generation's rows (R347). -/
def withPage (s : State) (c : PvCmd) (k : Nat → State → PvRes) : PvRes :=
  if s.filling c.pagePa then .stop .later
  else match s.pvGen c with
  | none => .err 6 s
  | some (g, rb) =>
    let s1 := s.modPv c.id fun c => { c with gen := some (g, rb) }
    if !krowFits c.fslot (prKrow c.record) rb then .err 2 s1 else k rb s1

/-- The channel that row `n` belongs to (R342). -/
def rowChan (d : W64) (rb n : Nat) : Nat := descFirst d + (n * 2 ^ rb / 2 ^ descStripe d) % descCount d

/-- The accumulators of an engine's own rows: row indexes below NR whose rows are its own (R346). -/
def ownRows (e : PvEngine) (d : W64) (rb : Nat) : List Nat :=
  (List.range e.nr).filter fun j => rowChan d rb (e.rbase + j) = e.chan

/-- `pv.nop`. -/
def execPvNop (s : State) : Host.Outcome State Fault Refusal := pvWord s fun _ _ s => .next s

/-- `pv.vec` (R346). -/
def execPvVec (o n : BitVec 14) (s : State) : Host.Outcome State Fault Refusal :=
  pvWord s fun e c s =>
    let len := n.toNat + 1
    if prVlen c.record < o.toNat + len then .err 2 s
    else if c.vecPoison then .err 4 s
    else .next (s.modEngine e.chan fun e => { e with buf := (c.vec.drop o.toNat).take len, vcnt := len })

/-- `pv.rows` (R346). -/
def execPvRows (f : BitVec 15) (n : BitVec 10) (s : State) : Host.Outcome State Fault Refusal :=
  pvWord s fun e c s => withPage s c fun rb s =>
    let len := n.toNat + 1
    if 2 ^ 15 / 2 ^ rb < f.toNat + len then .err 2 s
    else .next (s.modEngine e.chan fun e => { e with rbase := f.toNat, nr := len, acc := [] })

/-- The weights `col` to `col + len - 1` of row `n`, or none when a sector of them is poisoned (R346, R348). -/
def State.weights (s : State) (b : Bezel) (c : PvCmd) (rb n col len : Nat) : Option (List Nat) :=
  let w := fsBits c.fslot
  let lo := n * 256 * 2 ^ rb + col * w / 8
  let hi := n * 256 * 2 ^ rb + ((col + len) * w + 7) / 8
  let byte := fun (o : Nat) => memByte s.mem (s.leafPa b c.leaf o)
  if (List.range (hi / 256 + 1 - lo / 256)).any fun i => 256 * (lo / 256 + i) < hi && s.poisoned (s.leafPa b c.leaf (256 * (lo / 256 + i)) / 256) then none
  else
    let l := (List.range (hi - lo)).map fun i => byte (lo + i)
    let shift := col * w % 8
    some ((List.range len).map fun j => (leNat ((l.drop ((shift + w * j) / 8)).take 3) >>> ((shift + w * j) % 8)) % 2 ^ w)

/-- The sectors of the weights of some rows, whose CHECK is verified as they are read (R362). -/
def State.checkWeights (s : State) (b : Bezel) (c : PvCmd) (rb : Nat) (rows : List Nat) (col len : Nat) : State :=
  let w := fsBits c.fslot
  (rows.flatMap fun n =>
    let lo := n * 256 * 2 ^ rb + col * w / 8
    let hi := n * 256 * 2 ^ rb + ((col + len) * w + 7) / 8
    (List.range ((hi + 255) / 256 - lo / 256)).map fun i => s.leafPa b c.leaf (256 * (lo / 256 + i)) / 256).foldl
    (fun s x => s.checkSector c.by_.handle x) s

/-- Blocks of 16 of a row added to an accumulator (R346, R43). -/
def macRow (fs : W64) (ws : List Nat) (vs : List (BitVec 16)) : Nat → Nat → W32 → W32
  | 0, _, acc => acc
  | n + 1, i, acc =>
    macRow fs ws vs n (i + 16) (macFloat fs 0 acc ((ws.drop i).take 16) (((vs.drop i).take 16).map (·.toNat)))

/-- `pv.mac` (R346). -/
def execPvMac (cc l : BitVec 14) (s : State) : Host.Outcome State Fault Refusal :=
  pvWord s fun e c s =>
    let col := 16 * cc.toNat
    let len := l.toNat + 1
    if prKrow c.record < col + len || e.vcnt < len then .err 2 s
    else withPage s c fun rb s =>
      match s.bezel? c.by_.bezel with
      | none => .err 6 s
      | some b =>
        let d := s.idesc b (leafIdesc c.leaf.raw)
        let rows := (ownRows e d rb).map fun j => (j, s.weights b c rb (e.rbase + j) col len)
        if rows.any fun p => p.2.isNone then .err 4 (s.checkWeights b c rb ((ownRows e d rb).map (e.rbase + ·)) col len)
        else .next (s.modEngine e.chan fun e =>
          { e with acc := rows.foldl (fun a p =>
              mapPut 0 a p.1 (macRow c.fslot (p.2.getD []) e.buf ((len + 15) / 16) 0 (mapGet 0 a p.1))) e.acc })

/-- The engine's own rows, where the command has a page. -/
def State.pvOwn (s : State) (e : PvEngine) (c : PvCmd) : List Nat :=
  match s.pvGen c, s.bezel? c.by_.bezel with
  | some (_, rb), some b => ownRows e (s.idesc b (leafIdesc c.leaf.raw)) rb
  | _, _ => []

/-- `pv.scale` (R346). -/
def execPvScale (x : BitVec 16) (s : State) : Host.Outcome State Fault Refusal :=
  pvWord s fun e c s => .next (s.modEngine e.chan fun e =>
    { e with acc := (s.pvOwn e c).foldl (fun a j =>
        mapPut 0 a j (BitVec.ofNat 32 (f32.round 0 false false (Flo.mul (f32.dec false (mapGet 0 a j).toNat) (bf16.dec false x.toNat))))) e.acc })

/-- The sector of an engine's output word, by its address. -/
def outSector (out : W64) (e : PvEngine) (j : Nat) : Nat := (out + BitVec.ofNat 64 (4 * (e.rbase + j))).toNat / 256

/-- The places of output words, or what stops the engine at one. -/
def State.outPlaces (s : State) (t : Team) (k : Kernel) (b : Bezel) (out : W64) (e : PvEngine) :
    List Nat → Except EngineStop (List (Place × W32))
  | [] => .ok []
  | j :: js => do
    let p ← s.enginePlace t k b .store (out + BitVec.ofNat 64 (4 * (e.rbase + j)))
    let l ← s.outPlaces t k b out e js
    .ok ((p, mapGet 0 e.acc j) :: l)

/-- The rows whose words a `pv.out` has yet to write (R235). -/
def State.openRows (s : State) (e : PvEngine) (c : PvCmd) : List Nat :=
  (s.pvOwn e c).filter fun j => !e.outs.contains (outSector (prOut c.record) e j)

/-- Output words written, those of each sector in one instant (R346). -/
def State.writeOut (s : State) (c : PvCmd) (l : List (Place × W32)) : State :=
  s.copyWrite c.by_ (l.map fun p => (p.1, some (leBytes p.2.toNat 4)))

/-- The engine of a channel, about to run a `pv.out`, writes the words of one sector of its outputs (R235, R346). -/
def State.paveSector (s : State) (ch n : Nat) : Option State :=
  let e := s.engine ch
  match e.cur.bind fun i => s.pvCmd? i with
  | none => none
  | some c =>
    let js := (s.openRows e c).filter fun j => outSector (prOut c.record) e j == n
    if e.st != .running || bits e.word.toNat 31 0 ≠ 0x50000000 || js.isEmpty then none
    else match s.owner? c.by_ with
      | none => none
      | some (t, k, b) =>
        match s.outPlaces t k b (prOut c.record) e js with
        | .error _ => none
        | .ok l => some ((s.writeOut c l).modEngine ch fun e => { e with outs := n :: e.outs })

/-- `pv.out` (R346): the engine's own words that are left, those of each sector in one instant; none of them is written while one
cannot be. -/
def execPvOut (s : State) : Host.Outcome State Fault Refusal :=
  pvWord s fun e c s =>
    match s.owner? c.by_ with
    | none => .next s
    | some (t, k, b) =>
      match s.outPlaces t k b (prOut c.record) e (s.openRows e c) with
      | .error x => .stop x
      | .ok l => .next (s.writeOut c l)

/-- `pv.sync` (R346): the engine's outputs take effect at once. -/
def execPvSync (s : State) : Host.Outcome State Fault Refusal := pvWord s fun _ _ s => .next s

/-- `pv.end` (R346). -/
def execPvEnd (s : State) : Host.Outcome State Fault Refusal := pvWord s fun _ _ s => .done s

/-- A word outside the table of R345: error ILLWORD. -/
def paveIllword (s : State) : Host.Outcome State Fault Refusal := pvWord s fun _ _ s => .err 1 s

/-! ### Completion (R347, R348) -/

/-- An engine report with the lower channel. -/
def lowerEnd (best : Option (Nat × Nat × Nat)) (x : Nat × Nat × Nat) : Option (Nat × Nat × Nat) :=
  match best with
  | none => some x
  | some y => if x.1 < y.1 then some x else some y

/-- The status word (R348). -/
def PvCmd.status (c : PvCmd) : W64 :=
  let bad := c.ended.filter fun x => x.2.1 != 0
  match bad.foldl lowerEnd none with
  | none => 0
  | some (ch, err, idx) => BitVec.ofNat 64 (err + ch * 2 ^ 8 + bad.length * 2 ^ 32 + idx * 2 ^ 48)

/-- The command leaves: ticket and flag (R347). -/
def State.endPave (s : State) (c : PvCmd) : State :=
  let s1 := { s with pvCmds := s.pvCmds.filter fun x => x.id != c.id }
  let s2 := match c.by_.op with
    | some op => s1.modGroup c.by_.g fun g => g.dropOp op
    | none => s1
  s2.completeTicket c.by_.ctr

/-- PAVE_COMMAND_COMPLETE (R347): every engine of the set has ended; the status word is written. -/
def State.commandComplete (s : State) (id : Nat) : Option State :=
  match s.pvCmd? id with
  | none => none
  | some c =>
    if c.ended.length < c.count || c.stopped || c.fault.isSome || c.migr then none
    else if prStat c.record = 0 then some (s.endPave c)
    else match s.owner? c.by_ with
      | none => none
      | some (t, k, b) =>
        match s.enginePlace t k b .store (prStat c.record) with
        | .ok p => some ((s.engineWrite c.by_ t p (leBytes c.status.toNat 8) false).endPave c)
        | .error (.prot code va) => some ((s.deferTrap c.by_ code va).endPave c)
        | .error (.park va ca l w) =>
          some ((s.fault c.by_.bezel { va := va, cause := ca, level := l, write := w, engine := true, handle := c.by_.handle,
                                       place := placeWord t c.by_.g.grp, joiner := .cmd c.id }).modPv id fun c => { c with fault := some va })
        | .error .migr => some (s.modPv id fun c => { c with migr := true })
        | .error .later => none

/-- PAVE_COMMAND_COMPLETE. -/
def execPaveCommandComplete (s : State) : Host.Outcome State Fault Refusal :=
  eventStep s "PAVE_COMMAND_COMPLETE" fun e => match e with | .paveCommandComplete c => s.commandComplete c | _ => none

end Sys2Proof.Machine
end

