-- ==== Sys2Proof/Machine/Reliab.lean ====
section
/-! DEFINITION. The Locket and the capability list as programs reach them, and the ends of translations and faults (R163,
R164, R365, R366, R370, R371, R374): opcodes 0xF4 to 0xF7. -/

namespace Sys2Proof.Machine

open Sys2Proof

/-! ### locketw and caprd (R365, R370, R371) -/

/-- `locketw` (R365): the event is held with the version. -/
def execLocketw (d a c : BitVec 8) (s : State) : Host.Outcome State Fault Refusal :=
  issue (.locketw d a c) s fun x s => classB x s [x.s d, x.s a] fun s => do
    gateB x s
    defer x s (.locketw c (x.s a) (x.s d))

/-- Data of the capability of an ID (R370): the counts are those of the last reset (R6), but engines and lanes count as they are
fenced. -/
def State.capData (s : State) (id : Nat) : W64 :=
  match id with
  | 1 => 1
  | 2 => BitVec.ofNat 64 (((List.range 768).filter fun c => s.unit (.chan c) != .gone).length - (s.engines.filter fun e => e.st == .fenced).length)
  | 3 => 4096
  | 4 => BitVec.ofNat 64 (32 + s.lanesOut.length * 2 ^ 8)
  | 5 => BitVec.ofNat 64 (7 + s.host.lanes / 4 * 2 ^ 4 + s.host.rate * 2 ^ 8)
  | 6 => BitVec.ofNat 64 ((List.range 4).foldl (fun x d =>
      x + ((List.range 64).filter fun i => s.unit (.core (64 * d + i)) != .gone).length * 2 ^ (8 * d)) 0)
  | 7 => Config.signetWindow.setWidth 64
  | 8 => Config.locketWindow.setWidth 64
  | _ => 0

/-- A doubleword of the capability list at a BAR0 offset (R370): the eight headers stand one after another from 0x100
(log entry 9). -/
def State.capWord (s : State) (off second : Nat) : W64 :=
  let id := (off - 0x100) / 16 + 1
  if off < 0x100 || 8 < id then 0
  else if second = 1 then s.capData id
  else BitVec.ofNat 64 (id + 2 ^ 16 + (if id = 8 then 0 else (off + 16) * 2 ^ 32))

/-- `caprd` (R371). -/
def execCaprd (d a f : BitVec 8) (s : State) : Host.Outcome State Fault Refusal :=
  issue (.caprd d a f) s fun c s => classA c s fun s =>
    let off := (c.s a).toNat
    if off % 16 ≠ 0 then .error (.trap ALIGN (c.s a))
    else do
      gateA c s
      issueA c s [.scal (sdstNum d) (if 0x100 ≤ off && off ≤ 0xFF0 then s.capWord off f.toNat else 0)] .ready false

/-! ### Retries (R163, R164) -/

/-- A waiter is in a pending entry for the granule of its address. -/
def Bezel.pending (b : Bezel) (j : Joiner) (va : W64) : Bool :=
  b.faults.any fun e => e.granule == va.toNat / 2 ^ 16 && e.joined.contains j

/-- A group whose parked access is in no pending entry of its bezel goes on (R163): the instruction issues again; a matrix
queue goes on at its head (R205). -/
def Group.retry (b : Bezel) (r : GRef) (now : Nat) (g : Group) : Group :=
  let g1 := match g.wait with
    | .page va => if b.pending (.grp r) va then g else g.wake now
    | _ => g
  { g1 with mq := g1.mq.map fun (m : MOp) => match m.fault with
      | some va => if b.pending (.matrix r) va then m else { m with fault := none }
      | none => m }

/-- Every waiter of a bezel that is in no pending entry retries (R163, R164): groups, matrix queues, engine commands, pavé
engines, activities, and the dependences of kernels. -/
def State.retryAll (s : State) (bn : Nat) : State :=
  match s.bezel? bn with
  | none => s
  | some b =>
    let s1 : State :=
     { s with
       teams := s.teams.map fun (t : Team) =>
        if t.bezel == bn then
          { t with groups := t.groups.zipIdx.map fun (p : Group × Nat) => p.1.retry b { team := t.sid, grp := p.2 } s.stepNo
                   shadows := t.shadows.zipIdx.map fun (p : Group × Nat) =>
                     p.1.retry b { team := t.sid, grp := p.2, sh := true } s.stepNo }
        else t
       cmds := s.cmds.map fun (c : Cmd) =>
        if c.by_.bezel == bn && c.fault.any (fun va => !b.pending (.cmd c.id) va) then { c with fault := none } else c
       pvCmds := s.pvCmds.map fun (c : PvCmd) =>
        if c.by_.bezel == bn && c.fault.any (fun va => !b.pending (.cmd c.id) va) then { c with fault := none } else c
       acts := s.acts.map fun (a : Activity) =>
        if a.bezel == bn && a.fault.any (fun va => !b.pending (.act a.slot) va) then { a with fault := none, migr := false } else a }
    let chans := (s1.engines.filter fun e => e.st == .waiting && (match e.cur, e.fault with
      | some id, some va => (s1.pvCmd? id).any (fun c => c.by_.bezel == bn) && !b.pending (.cmd id) va
      | _, _ => false)).map (·.chan)
    let s2 := chans.foldl (fun (s : State) ch => s.pvFetch ch) s1
    let free := b.kernels.filter fun k => k.depWait && !b.kernelJoined k.slot (recDepCtr k.record)
    free.foldl (fun (s : State) k => (s.modKernel bn k.slot fun k => { k with depWait := false }).testDep bn k.slot) s2

/-- A group, its matrix queue with it, that a MIGRATING page has parked goes on. -/
def Group.afterMove (now : Nat) (g : Group) : Group :=
  let g1 := match g.wait with | .migrating => g.wake now | _ => g
  { g1 with mq := g1.mq.map fun (m : MOp) => { m with migr := false } }

/-- A ring whose object or buffer system software has moved from a leaving channel, found where it is now (R316). -/
def State.movedRing (s : State) (r : Ring) : Ring :=
  { r with ctrl := s.homeOf r.ctrl
           bufPa := r.bufPa.zipIdx.map fun (x : Nat × Nat) =>
            match s.homeOf (.glob x.1 (r.buf + BitVec.ofNat 64 (256 * x.2)) 0) with | .glob pa _ _ => pa | .stash _ _ _ => x.1 }

/-- The issuer of a command with its counter found by `f`. -/
def Issuer.rehome (f : Obj → Obj) (i : Issuer) : Issuer := { i with ctr := i.ctr.map fun p => (f p.1, p.2) }

/-- A command of a send end with its counter found by `f`. -/
def FlowCmd.rehome (f : Obj → Obj) : FlowCmd → FlowCmd
  | .send r c m by_ => .send r c m (by_.rehome f)
  | .reseed o g => .reseed o g

/-- An outstanding operation with its objects found by `f`. -/
def Op.rehome (f : Obj → Obj) (o : Op) : Op :=
  { o with
    again := o.again.map fun a => (a.1, a.2.map fun x => (x.1, x.2.1, f x.2.2))
    what := match o.what with
      | .draw c why d => .draw (f c) why d
      | .tlcomplete c t => .tlcomplete (f c) t
      | w => w }

/-- A held instruction with its object found by `f`. -/
def Deferred.rehome (f : Obj → Obj) : Deferred → Deferred
  | .binit o e sc op => .binit (f o) e sc op
  | .mbsend o b t i op => .mbsend (f o) b t i op
  | .cring k r a rc o pas op => .cring k r a rc (f o) (pas.map fun pa => (f (.glob pa 0 0)).pa) op
  | d => d

/-- What a group keeps of objects, found by `f`. -/
def Group.rehome (f : Obj → Obj) (g : Group) : Group :=
  { g with wait := (match g.wait with | .phase o t => .phase (f o) t | .draw o => .draw (f o) | w => w),
           ops := g.ops.map (Op.rehome f), ticket := g.ticket.map fun p => (f p.1, p.2),
           ver := { g.ver with deferred := g.ver.deferred.map (Deferred.rehome f) } }

/-- A held operation on an object found by `f`. -/
def HeldOp.rehome (f : Obj → Obj) : HeldOp → HeldOp
  | .arrive o n x h a => .arrive (f o) n x h a
  | .complete o t => .complete (f o) t
  | .deliver r b c d => .deliver r b c (d.rehome f)

/-- The objects that the module keeps by their places, found where system software has moved them (R316). -/
def State.rehome (s : State) : State :=
  let moves := s.teams.flatMap fun (t : Team) => t.rings.map fun (r : Ring) => (r.home, (s.movedRing r).home)
  let at_ := fun (pa : Nat) => ((moves.find? fun (x : Nat × Nat) => x.1 == pa).map (·.2)).getD pa
  { s with
    teams := s.teams.map fun (t : Team) =>
     { t with
       groups := t.groups.map (Group.rehome s.homeOf)
       rings := t.rings.map fun (r : Ring) =>
        let r1 := s.movedRing r
        { r1 with coll := { r1.coll with pas := r1.coll.pas.map at_, done := r1.coll.done.map s.homeOf } } }
    net := s.net.map fun (m : NetMsg) => match m with | .desc pa q d => .desc (at_ pa) q d | _ => m
    rel := s.rel.map fun (x : ObjRel) => { x with obj := s.homeOf x.obj }
    heldCompletions := s.heldCompletions.map fun (x : Obj × Nat) => (s.homeOf x.1, x.2)
    heldOps := s.heldOps.map (HeldOp.rehome s.homeOf)
    posted := s.posted.map fun (p : Posted) =>
      { p with arrive := p.arrive.map fun x => (s.homeOf x.1, x.2), sig := p.sig.map fun x => (s.homeOf x.1, x.2) }
    cmds := s.cmds.map fun (c : Cmd) =>
      { c with by_ := c.by_.rehome s.homeOf, what := match c.what with | .copy r x o => .copy r x (o.map s.homeOf) | w => w }
    pvCmds := s.pvCmds.map fun (c : PvCmd) => { c with by_ := c.by_.rehome s.homeOf }
    flows := s.flows.map fun (f : FlowEnd) =>
      { f with queue := f.queue.map (FlowCmd.rehome s.homeOf), cur := f.cur.map fun t => { t with cmd := t.cmd.rehome s.homeOf } }
    acts := s.acts.map fun (a : Activity) => { a with ctr := a.ctr.map s.homeOf }
    bezels := s.bezels.map fun (b : Bezel) => { b with ticket := b.ticket.map fun p => (s.homeOf p.1, p.2) }
    host := { s.host with outbound := s.host.outbound.map fun x => (s.homeOf x.1, x.2) } }

/-- An operation that waited for the end of a migration is applied, or waits on (R316). -/
def State.applyHeld (s : State) : HeldOp → State
  | .arrive o n x h a => s.arrive o n x h a
  | .complete o t => s.completeTicket (some (o, t))
  | .deliver r bn core d => match s.bezel? bn with
    | some b => s.deliver r b core d
    | none => s

/-- Operations on objects of MIGRATING pages are tried again, each object where it is now (R316). -/
def State.endMoves (s : State) : State := s.rehome.heldOps.foldl (fun s h => s.applyHeld h) { s.rehome with heldOps := [] }

/-- What a MIGRATING page of a bezel has parked tries again (R163, R366): groups, matrix queues, sequencers, engine commands, pavé
engines, flow ends, activities, the counters of kernels, and operations on objects. -/
def State.retryMigrating (s : State) (bn : Nat) : State :=
  let s1 : State :=
   { s with
     teams := s.teams.map fun (t : Team) =>
      if t.bezel == bn then
        { t with groups := t.groups.map (Group.afterMove s.stepNo), shadows := t.shadows.map (Group.afterMove s.stepNo)
                 rings := t.rings.map fun (r : Ring) => { r with coll := { r.coll with migr := false } } }
      else t
     bezels := s.bezels.map fun (b : Bezel) =>
      if b.num == bn then { b with kernels := b.kernels.map fun (k : Kernel) => { k with depMigr := false, doneMigr := false } } else b
     cmds := s.cmds.map fun (c : Cmd) => if c.by_.bezel == bn then { c with migr := false } else c
     pvCmds := s.pvCmds.map fun (c : PvCmd) => if c.by_.bezel == bn then { c with migr := false } else c
     flows := s.flows.map fun (f : FlowEnd) => if f.bezel == bn then { f with migr := [] } else f
     mirrorQ := s.mirrorQ.map fun (w : MirrorWrite) => if w.f.bezel == bn then { w with migr := false } else w
     acts := s.acts.map fun (a : Activity) => if a.bezel == bn && a.migr then { a with migr := false, fault := none } else a }
  let chans := (s1.engines.filter fun e => e.st == .waiting && e.migr && (match e.cur with
    | some id => (s1.pvCmd? id).any (fun c => c.by_.bezel == bn)
    | none => false)).map (·.chan)
  let waited := ((s.bezel? bn).elim [] (·.kernels)).filter (·.depMigr)
  waited.foldl (fun (s : State) k => s.testDep bn k.slot) (chans.foldl (fun (s : State) ch => s.pvFetch ch) s1).endMoves

/-! ### tlbinv and fltret (R366, R374) -/

/-- Bytes of the range that a `tlbinv` names (R366). -/
def invSize (fn : Nat) : Nat := if fn = 0 then 2 ^ 16 else if fn = 1 then 2 ^ 23 else if fn = 2 then 2 ^ 30 else 2 ^ 57

/-- The translations of a range removed from every TLB of a bezel (R366 step 2); the stores in flight to this module's memory reach
their homes, and the loads of the bezel that have not returned are performed as they stand. What else is under way holds back the
flag (step 3, `State.underWay`). -/
def State.invalidate (s : State) (bn : Nat) (va size : Nat) : State :=
  let lo := va / size * size
  let keep := fun (e : TlbEntry) => !(e.bezel == bn && e.page < lo + size && lo < e.page + pageSize e.leaf.level)
  let done := fun (g : Group) => { g with ops := g.ops.map fun (o : Op) => { o with again := none } }
  let s1 := s.drain fun _ => true
  { s1 with tlb := s1.tlb.filter keep, dieTlb := s1.dieTlb.filter keep,
            teams := s1.teams.map fun (t : Team) =>
              if t.bezel == bn then { t with groups := t.groups.map done, shadows := t.shadows.map done } else t }

/-- An instruction that commits and waits for the group's earlier stores before its effect (R366, R374). -/
def afterStores (c : Ctx) (s : State) (what : OpWhat) (f : State → State) : Res := do
  let s1 := (← boundary c s false).publish c.g c.core 3
  if s1.hasPosted c.g 4 then .error (.wait (.posted 4) s1)
  else issueB c (f s1) what fun _ s => .ok s

/-- `tlbinv` (R366). -/
def execTlbinv (a f : BitVec 8) (s : State) : Host.Outcome State Fault Refusal :=
  issue (.tlbinv a f) s fun c s =>
    if c.g.sh then do
      let s1 ← boundary c s false
      .ok (sign c s1 [c.s a])
    else if f.toNat ≤ 2 && (badVa (c.s a) || isWindow (c.s a)) then .error (.trap PROT (c.s a))
    else do
      gateB c s
      let lo := if f.toNat ≤ 2 then (c.s a).toNat / invSize f.toNat * invSize f.toNat else 0
      let s1 ← afterStores c s (.inval c.bez.num lo (invSize f.toNat) c.now) fun s =>
        (s.invalidate c.bez.num (if f.toNat ≤ 2 then (c.s a).toNat else 0) (invSize f.toNat)).retryMigrating c.bez.num
      .ok (sign c s1 [c.s a])

/-- The entry of a FID freed, and its accesses retried; a FID that names no entry is recorded (R374, R376). -/
def State.faultReturn (s : State) (bn : Nat) (fid : W32) (die : Nat) (handle : W64) : State :=
  if (s.bezel? bn).any fun b => b.faults.any fun e => e.fid == fid then
    (s.modBezel bn fun b => { b with faults := b.faults.filter fun e => e.fid != fid }).retryAll bn
  else s.locket die 9 0x01F7 handle (fid.setWidth 64)

/-- `fltret` (R374). -/
def execFltret (a : BitVec 8) (s : State) : Host.Outcome State Fault Refusal :=
  issue (.fltret a) s fun c s =>
    if bits (c.s a).toNat 63 32 ≠ 0 then .error (.trap ILLOPERAND)
    else if c.g.sh then do
      let s1 ← boundary c s false
      .ok (sign c s1 [c.s a])
    else do
      gateB c s
      let s1 ← afterStores c s .ready fun s => s.faultReturn c.bez.num ((c.s a).setWidth 32) c.die c.handle
      .ok (sign c s1 [c.s a])

end Sys2Proof.Machine
end

