-- ==== Sys2Proof/Machine/Host.lean ====
section
/-! DEFINITION. The host: CXL.mem (R359, R367), audit records (R359), BAR0 and the management states (R368 to R372), throttling
(R373), and resets (R352, R364, R372). -/

namespace Sys2Proof.Machine

open Sys2Proof

/-! ### Audit (R359, R376) -/

/-- The body of an audit record. -/
def Audit.body (a : Audit) : List Byte :=
  leBytes a.addr.toNat 8 ++ leBytes (min a.count (2 ^ 32 - 1)) 4 ++ leBytes 0 2 ++ leBytes (5 + 16 * a.kind) 1 ++ List.replicate 41 0

/-- AUDIT_RECORD_DELIVERY (R359): sealed into the fault mailbox when a slot is free. -/
def State.auditDeliver (s : State) (bezel kind : Nat) : Option State :=
  match s.bezel? bezel, s.audits.find? fun a => a.bezel == bezel && a.kind == kind with
  | some b, some a =>
    (s.mbPost b b.faultMb (BitVec.ofNat 32 kind) a.body).map fun (t : State) => { t with audits := t.audits.erase a }
  | _, _ => none

/-- AUDIT_RECORD_DELIVERY. -/
def execAuditRecordDelivery (s : State) : Host.Outcome State Fault Refusal :=
  eventStep s "AUDIT_RECORD_DELIVERY" fun e => match e with | .auditRecordDelivery b k => s.auditDeliver b k | _ => none

/-! ### CXL.mem (R359, R367) -/

/-- Bytes of device memory behind the HDM decoder: 768 pseudo-channels of 1 GiB (R367, R5). -/
def hdmBytes : Nat := 768 * 2 ^ 30

/-- The slot of an enabled inbound mailbox of any bezel that stands at a fabric address (R64, R67). -/
def State.slotAt (s : State) (line : Nat) : Option (Bezel × Obj × Nat) :=
  s.bezels.findSome? fun b =>
    if b.st == .vacant then none
    else (List.range 64).findSome? fun m => (s.mailbox b m).bind fun o =>
      if s.mbDir o || !s.mbEnable o then none
      else ((List.range 256).find? fun i => s.mbSlot b o i == some line).map fun i => (b, o, i)

/-- No memory stands behind a local address: it lies outside the decoder, or in a pseudo-channel that is presented no more (R6,
R367). -/
def State.noMemory (s : State) (addr : Nat) : Bool := decide (hdmBytes ≤ addr) || s.unit (.chan (addr / 2 ^ 30)) == .gone

/-- A host write within one 64-byte line (R65, R67, R359, R372): discarded while there is no open key and at a tenant's
sector; a mailbox object and the seal word of a slot take it as their rules say. -/
def State.hostWrite (s : State) (addr : Nat) (data : List Byte) : State :=
  let pa := s.localPa addr
  s.hostOpen pa fun s =>
    if (s.mailboxAt pa).isSome then
      (cut32 9 pa data).foldl (fun s x => match s.mailboxAt x.1 with | some (_, o, off) => s.hostMailbox o off x.2 | none => s) s
    else match if 56 < pa % 64 + data.length then s.slotAt (pa / 64 * 64) else none with
      | some (b, o, i) => s.sealSlot b o i data (pa % 64)
      | none => s.landSector [(pa, data)] 0 none 0

/-- A host write waits for a page that is MIGRATING: that of the mailbox object it reaches, or of the mailbox whose slot it seals
(R316); and, as a host read does, for a mapped block that an open task holds (R224). -/
def State.hostWaits (s : State) (pa n : Nat) : Bool :=
  !s.host.entropy && (s.sidecar (pa / 256)).owner == 0 &&
    (s.recallWaits (pa / 256) || match s.mailboxAt pa with
     | some (_, o, _) => s.objMoving o
     | none => decide (56 < pa % 64 + n) && ((s.slotAt (pa / 64 * 64)).any fun x => s.objMoving x.2.1))

/-- HOST_MEM_WRITE. -/
def execHostMemWrite (s : State) : Host.Outcome State Fault Refusal :=
  match s.input with
  | some (.hostMemWrite addr data) =>
    if data.isEmpty || 64 < addr % 64 + data.length then .refused (.notEnabled "HOST_MEM_WRITE")
    else if s.noMemory addr then .fault .noSuchAddress
    else if s.hostWaits (s.localPa addr) data.length then .refused (.notEnabled "HOST_MEM_WRITE")
    else .next (s.hostWrite addr data)
  | _ => .refused (.notEnabled "HOST_MEM_WRITE")

/-- The host receives something from its port. -/
def State.toHost (s : State) (x : HostOut) : State := { s with host := { s.host with out := x :: s.host.out } }

/-- A host read within one 64-byte line (R359, R361): zeros from a tenant's sector, with the event; free bytes from a poisoned
one; the bytes at their home otherwise. -/
def State.hostRead (s : State) (addr n : Nat) : State :=
  let pa := s.localPa addr
  let ow := (s.sidecar (pa / 256)).owner
  if ow ≠ 0 then (s.blocked ow 1 addr).toHost (.readData addr (List.replicate n 0))
  else if s.poisoned (pa / 256) then s.toHost (.readData addr ((List.range n).map fun i => s.freeAt (2 ^ 76 + i)))
  else s.toHost (.readData addr ((List.range n).map fun i => s.homeByte (pa + i)))

/-- HOST_MEM_READ. -/
def execHostMemRead (s : State) : Host.Outcome State Fault Refusal :=
  match s.input with
  | some (.hostMemRead addr n) =>
    if n = 0 || 64 < addr % 64 + n then .refused (.notEnabled "HOST_MEM_READ")
    else if s.noMemory addr then .fault .noSuchAddress
    else if (s.sidecar (s.localPa addr / 256)).owner == 0 && s.recallWaits (s.localPa addr / 256) then .refused (.notEnabled "HOST_MEM_READ")
    else .next (s.hostRead addr n)
  | _ => .refused (.notEnabled "HOST_MEM_READ")

/-! ### BAR0 (R359, R368, R372) -/

/-- Code of a management state (R368). -/
def MState.code : MState → Nat
  | .reset => 0 | .configOpen => 1 | .configLocked => 2 | .run => 3

/-- An offset in the Locket window, which does not cover the registers of R368 or the capability list (log entry 9). -/
def inLocketWindow (off : Nat) : Bool :=
  0x1000 ≤ off && Config.locketWindow.toNat ≤ off && off < Config.locketWindow.toNat + Config.locketSpan

/-- A register of BAR0 as it reads (R368, R370); the identity window holds the public key (R357), and what the Locket
window's doublewords hold is free (log entry 9). -/
def State.bar0 (s : State) (off : Nat) : W64 :=
  if off = 0 then BitVec.ofNat 64 (s.host.mstate.code + if s.host.entropy then 4 else 0)
  else if off = 0x10 then s.host.bootbz
  else if off = 0x18 then s.host.power
  else if off = 0x20 then s.host.temp.setWidth 64
  else if off = 0x28 then BitVec.ofNat 64 (s.host.thrStep.toNat + s.host.thrCount.toNat * 2 ^ 32)
  else if off = 0x30 then s.host.thrLimit
  else if 0x100 ≤ off && off < 0x1000 then s.capWord (off / 16 * 16) (off % 16 / 8)
  else if inLocketWindow off then Config.freeWord (s.fresh + 2 ^ 40)
  else if Config.signetWindow.toNat ≤ off && off < Config.signetWindow.toNat + 1952 then
    dword Config.publicKey (off - Config.signetWindow.toNat)
  else 0

/-- The allow-list of R368. -/
def allowListed (off : Nat) : Bool :=
  off = 0 || off = 0x18 || off = 0x20 || off = 0x28 || off = 0x30 || (0x100 ≤ off && off < 0x1000) || inLocketWindow off

/-- A host read of BAR0 (R359, R368). -/
def State.bar0Read (s : State) (off : BitVec 16) (size : Nat) : State :=
  let o := off.toNat
  if size ≠ 8 || o % 8 ≠ 0 then s.toHost (.abort off)
  else if s.host.mstate != .run || allowListed o then s.toHost (.barData off (s.bar0 o))
  else
    let s1 := s.locket 0 5 0 0 (off.setWidth 64)
    ((s1.bezels.filter fun b => b.st == .active).foldl (fun s b => s.audit b.num 0 (off.setWidth 64)) s1).toHost (.barData off 0)

/-- BAR0_READ. -/
def execBar0Read (s : State) : Host.Outcome State Fault Refusal :=
  eventStep s "BAR0_READ" fun e => match e with | .bar0Read off size => some (s.bar0Read off size) | _ => none

/-- A write rejected with a completer abort and an event (R372). -/
def State.barReject (s : State) (off : BitVec 16) : State := (s.locket 0 5 3 0 (off.setWidth 64)).toHost (.abort off)

/-- MCMD takes a value in the current state (R368). -/
def State.mcmdTakes (s : State) (v : W64) : Bool :=
  (v == 1 && s.host.mstate == .configOpen) || (v == 2 && s.host.mstate == .configLocked && !s.host.entropy) ||
  (v == 3 && s.host.entropy && (s.host.mstate == .configOpen || s.host.mstate == .configLocked))

/-- A host write to BAR0 that has no row of its own: applied whole or rejected whole (R372). An accepted MCMD is the event of
its row. -/
def State.bar0Write (s : State) (off : BitVec 16) (v : W64) (size : Nat) : Option State :=
  if size ≠ 8 || off.toNat % 8 ≠ 0 then some (s.barReject off)
  else if off = 8 then (if s.mcmdTakes v then none else some (s.barReject off))
  else if off = 0x10 && s.host.mstate == .configOpen then some { s with host := { s.host with bootbz := v } }
  else if off = 0x30 && s.host.mstate == .run then some { s with host := { s.host with thrLimit := v } }
  else some (s.barReject off)

/-- BAR0_WRITE. -/
def execBar0Write (s : State) : Host.Outcome State Fault Refusal :=
  eventStep s "BAR0_WRITE" fun e => match e with | .bar0Write off v size => s.bar0Write off v size | _ => none

/-! ### Management states (R369, R372) -/

/-- MCMD_LOCK. -/
def execMcmdLock (s : State) : Host.Outcome State Fault Refusal :=
  eventStep s "MCMD_LOCK" fun e => match e with
    | .mcmdLock => if s.mcmdTakes 1 then some { s with host := { s.host with mstate := .configLocked } } else none
    | _ => none

/-- Bytes of open memory at a local address, as the management controller reads them (R369). -/
def State.localRead (s : State) (a n : Nat) : Option (List Byte) :=
  let pa := s.localPa a
  if hdmBytes < a + n || (s.sidecar (pa / 256)).owner ≠ 0 || s.poisoned (pa / 256) then none
  else some ((List.range n).map fun i => s.homeByte (pa + i))

/-- BOOTBZ applied as a form with OPERATOR set (R369, R372); a refused form leaves no bezel, and its status in the
Locket. -/
def State.bootForm (s : State) (pass : Bool) : State :=
  let at_ := s.host.bootbz.toNat
  let refuse := fun (n status : Nat) => s.locket 0 9 (0x0400 + status) 0 (BitVec.ofNat 64 n)
  match if at_ % 256 = 0 then s.localRead at_ 256 else none with
  | none => refuse 0 1
  | some r =>
    let n := bzBezel r
    if bzOp r ≠ 1 || bzDone r ≠ 0 || (bzConfig r).toNat % 64 ≠ 0 then refuse n 1
    else match s.localRead (bzConfig r).toNat 64 with
      | none => refuse n 1
      | some cfg =>
        let st := s.bzStatus none r cfg false
        if st ≠ 0 then refuse n st else (s.formBezel r cfg true none).dispatcherLaunch n pass

/-- MCMD_RUN (R372). -/
def execMcmdRun (s : State) : Host.Outcome State Fault Refusal :=
  eventStep s "MCMD_RUN" fun e => match e with
    | .mcmdRun pass => if s.mcmdTakes 2 then some (({ s with host := { s.host with mstate := .run } } : State).bootForm pass) else none
    | _ => none

/-- The open key drawn (R352, R356): ENTROPY stands until a draw passes; a generator that is not HEALTHY gives no key. -/
def State.drawOpen (s : State) (pass : Bool) : State :=
  let ok := pass && s.gen == .healthy
  let s1 := s.genDraw pass
  let s2 := { s1 with host := { s1.host with entropy := !ok } }
  if ok then { s2 with openKey := ({ slot := 0 } : KeySlot).withKeys s2.epochs, epochs := s2.epochs + 1 } else s2

/-- MCMD_DRAW_OPEN_KEY (R352, R372). -/
def execMcmdDrawOpenKey (s : State) : Host.Outcome State Fault Refusal :=
  eventStep s "MCMD_DRAW_OPEN_KEY" fun e => match e with
    | .mcmdDrawOpenKey pass => if s.mcmdTakes 3 then some (s.drawOpen pass) else none
    | _ => none

/-- The module power limit in effect, in W (R368, R373). -/
def HostPort.powerLimit (h : HostPort) : Nat := if h.thrLimit = 0 || 2800 < h.thrLimit.toNat then 2800 else h.thrLimit.toNat

/-- Module power `p` in mW exceeds the limit in effect, or byte `d` of `t`, the temperature of die `d`, its limit (R373). -/
def HostPort.overLimit (h : HostPort) (p : W64) (t : BitVec 32) : Bool :=
  decide (1000 * h.powerLimit < p.toNat) || (List.range 4).any fun d => Config.dieLimit d < bits t.toNat (8 * d + 7) (8 * d)

/-- THROTTLE_STEP (R373): the step taken with the measurements that stand then, to slower clocks only while a limit is exceeded and
to faster ones only while none is (log entry 25); the counter counts changes (R368). -/
def execThrottleStep (s : State) : Host.Outcome State Fault Refusal :=
  eventStep s "THROTTLE_STEP" fun e => match e with
    | .throttleStep n p t => if n ≠ s.host.thrStep && (decide (s.host.thrStep < n) != s.host.overLimit p t) then none else some
      { s with host := { s.host with power := p, temp := t, thrStep := n,
                                     thrCount := if n = s.host.thrStep then s.host.thrCount else s.host.thrCount + 1 } }
    | _ => none

/-! ### Resets (R352, R357, R364, R372) -/

/-- The firmware measurement M (R357). -/
def measure (images : List (List Byte)) : List Byte :=
  images.foldl (fun m x => Config.shake256 (m ++ Config.shake256 x 64) 64) (List.replicate 64 0)

/-- The open sectors of the module that have been written read as undefined bytes under the new open key (R352). -/
def State.loseOpen (s : State) : List (Nat × Byte) :=
  ((s.mem.map (fun (x : Nat × Byte) => x.1 / 256) ++ s.written).eraseDups.filter fun n => n / 2 ^ 35 == s.devId && (s.sidecar n).owner == 0).foldl (fun m n =>
    memWrite m (256 * n) ((List.range 256).map fun i => s.freeAt (256 * n + i))) s.mem

/-- The numbers of one kind of unit that are fenced. -/
def State.deadUnits (s : State) (f : UnitId → Option Nat) : List Nat := s.fencedUnits.filterMap f

/-- Number of a core. -/
def UnitId.core? : UnitId → Option Nat
  | .core c => some c
  | _ => none

/-- Number of an L2 slice. -/
def UnitId.slice? : UnitId → Option Nat
  | .slice n => some n
  | _ => none

/-- Number of a pseudo-channel. -/
def UnitId.chan? : UnitId → Option Nat
  | .chan c => some c
  | _ => none

/-- Number after a reset of a unit whose parent holds `size` of its kind, none for a fenced one: the ones that are left keep their
order, numbered densely from 0 in their parent (R2, R5, R6; log entry 56). -/
def renumber (dead : List Nat) (size c : Nat) : Option Nat :=
  if dead.contains c then none else some (c - (dead.filter fun x => x / size == c / size && x < c).length)

/-- The top `n` numbers of parent `p`, whose units number `size`. -/
def topNumbers (size p n : Nat) : List Nat := (List.range n).map fun i => size * p + (size - 1 - i)

/-- Cores that a die presents when `lost` of its physical cores are fenced: 64 while it has as many (R6; log entry 56). -/
def coresOf (die lost : Nat) : Nat := min 64 (64 + min 8 (Config.spareCores die) - lost)

/-- Physical cores of a die that are fenced, those fenced since the last reset among them. -/
def State.lostCores (s : State) (d : Nat) : Nat :=
  (if h : d < 4 then s.lost[d] else 0) + ((s.deadUnits UnitId.core?).filter fun c => c / 64 == d).length

/-- Units of a parent that the remap table presents no more at the next reset, where no spare takes their place (R363). -/
def State.goneCount (s : State) (f : UnitId → Option Nat) (size p : Nat) : Nat :=
  (((s.units.filter fun x => x.2 == .gone).filterMap fun x => f x.1).filter fun n => n / size == p).length +
    ((s.deadUnits f).filter fun n => n / size == p).length

/-- The numbers that the remap table does not present after a reset (R6, R363). -/
def State.withdrawn (s : State) : List (UnitId × UState) :=
  (((List.range 4).flatMap fun d => (topNumbers 64 d (64 - coresOf d (s.lostCores d))).map UnitId.core) ++
   ((List.range 4).flatMap fun d => (topNumbers 48 d (s.goneCount UnitId.slice? 48 d)).map UnitId.slice) ++
   ((List.range 12).flatMap fun k => (topNumbers 64 k (s.goneCount UnitId.chan? 64 k)).map UnitId.chan)).map fun u => (u, .gone)

/-- A fabric address after a reset: the module's memory behind a pseudo-channel goes with its number, and is lost with a fenced one. -/
def State.movedPa (s : State) (pa : Nat) : Option Nat :=
  if pa / 2 ^ 43 ≠ s.devId then some pa else
  (renumber (s.deadUnits UnitId.chan?) 64 (pa % 2 ^ 43 / 2 ^ 30)).map fun c => pa / 2 ^ 43 * 2 ^ 43 + c * 2 ^ 30 + pa % 2 ^ 30

/-- Memory and sidecars under the channel numbers of after a reset. -/
def State.renumberMemory (s : State) : State :=
  if (s.deadUnits UnitId.chan?).isEmpty then s
  else
    { s with
      mem := memCells [] (s.mem.filterMap fun x => (s.movedPa x.1).map fun a => (a, x.2))
      side := s.side.foldl (fun m x => match s.movedPa (256 * x.1) with | some a => mapPut {} m (a / 256) x.2 | none => m) []
      written := s.written.filterMap fun x => (s.movedPa (256 * x)).map fun a => a / 256
      retired := s.retired.filterMap fun x => (s.movedPa (256 * x.1)).map fun a => (a / 256, x.2) }

/-- The module after a reset, in CONFIG_OPEN (R306, R352, R354, R357, R363, R372): every bezel is gone and every key zeroed;
memory keeps its ciphertext, fenced units are withdrawn and the others numbered anew (R6), and the open key is drawn. -/
def State.restart (s : State) (pass : Bool) : State :=
  let m := { s with mem := s.loseOpen }.renumberMemory
  let cores := s.deadUnits UnitId.core?
  let caps := s.nextCaps.filterMap fun x => (renumber cores 64 x.core).map fun c => { x with core := c }
  let t : State :=
   { State.reset with
     devId := s.devId, stepNo := s.stepNo, fresh := s.fresh, cycles := s.cycles, arith := s.arith, input := s.input, agenda := s.agenda
     mem := m.mem, side := m.side, written := m.written, retired := m.retired, epochs := s.epochs, nextSid := s.nextSid, nextCmd := s.nextCmd
     fencedSub := s.fencedSub.filterMap fun x => (renumber cores 64 x.core).map fun c => { x with core := c }
     units := s.withdrawn, lost := Vector.ofFn fun d => s.lostCores d.val, caps := caps, nextCaps := caps, lanesOut := s.lanesOut
     lockets := s.lockets, measurement := measure Config.firmware
     host := { mstate := .configOpen, out := s.host.out } }
  t.drawOpen pass

/-- WARM_RESET (R364): the Locket survives, and every die appends a RESET event. -/
def execWarmReset (s : State) : Host.Outcome State Fault Refusal :=
  eventStep s "WARM_RESET" fun e => match e with
    | .warmReset pass => some (([0, 1, 2, 3].foldl (fun (s : State) d => s.locket d 12 (Config.lockCode 4).toNat 0 0) s).restart pass)
    | _ => none

/-- COLD_RESET (R363, R364, R372): the Locket is zeroed, the fabric clock starts again, and the units that fail are fenced. -/
def execColdReset (s : State) : Host.Outcome State Fault Refusal :=
  eventStep s "COLD_RESET" fun e => match e with
    | .coldReset pass failed =>
      let s1 := { s with lockets := State.reset.lockets, cycles := 0, arith := 0, teams := [], bezels := [] }
      some ((failed.foldl (fun s u => s.fenceUnit u) s1).restart pass)
    | _ => none

end Sys2Proof.Machine
end

