-- ==== Sys2Proof/Machine/Dispatch.lean ====
section
/-! DEFINITION. One arm for each constructor of `Instr`: a direct call of its meaning. -/

namespace Sys2Proof.Machine

open Sys2Proof

def exec (i : Instr) (s : State) : Host.Outcome State Fault Refusal :=
  match i with
  | .bra o => Sys2Proof.Machine.execBra o s
  | .brz d imm => Sys2Proof.Machine.execBrz d imm s
  | .brnz d imm => Sys2Proof.Machine.execBrnz d imm s
  | .call d imm => Sys2Proof.Machine.execCall d imm s
  | .ret a => Sys2Proof.Machine.execRet a s
  | .brx d a n => Sys2Proof.Machine.execBrx d a n s
  | .split imm => Sys2Proof.Machine.execSplit imm s
  | .join => Sys2Proof.Machine.execJoin s
  | .dpush => Sys2Proof.Machine.execDpush s
  | .dpop => Sys2Proof.Machine.execDpop s
  | .exit => Sys2Proof.Machine.execExit s
  | .yield => Sys2Proof.Machine.execYield s
  | .mode imm => Sys2Proof.Machine.execMode imm s
  | .nop => Sys2Proof.Machine.execNop s
  | .ballot d a f => Sys2Proof.Machine.execBallot d a f s
  | .vall d a => Sys2Proof.Machine.execVall d a s
  | .vany d a => Sys2Proof.Machine.execVany d a s
  | .shfl d a b => Sys2Proof.Machine.execShfl d a b s
  | .shflx d a n => Sys2Proof.Machine.execShflx d a n s
  | .shflu d a n => Sys2Proof.Machine.execShflu d a n s
  | .shfld d a n => Sys2Proof.Machine.execShfld d a n s
  | .rdlane d a n => Sys2Proof.Machine.execRdlane d a n s
  | .wrlane d a n => Sys2Proof.Machine.execWrlane d a n s
  | .lsum d a => Sys2Proof.Machine.execLsum d a s
  | .lmax d a => Sys2Proof.Machine.execLmax d a s
  | .lmin d a => Sys2Proof.Machine.execLmin d a s
  | .scan d a f => Sys2Proof.Machine.execScan d a f s
  | .mcount d a f => Sys2Proof.Machine.execMcount d a f s
  | .sadd d a b => Sys2Proof.Machine.execSadd d a b s
  | .ssub d a b => Sys2Proof.Machine.execSsub d a b s
  | .smul d a b => Sys2Proof.Machine.execSmul d a b s
  | .smulh d a b => Sys2Proof.Machine.execSmulh d a b s
  | .smulhu d a b => Sys2Proof.Machine.execSmulhu d a b s
  | .sdivu d a b => Sys2Proof.Machine.execSdivu d a b s
  | .sremu d a b => Sys2Proof.Machine.execSremu d a b s
  | .sand d a b => Sys2Proof.Machine.execSand d a b s
  | .sor d a b => Sys2Proof.Machine.execSor d a b s
  | .sxor d a b => Sys2Proof.Machine.execSxor d a b s
  | .sandn d a b => Sys2Proof.Machine.execSandn d a b s
  | .sshl d a b => Sys2Proof.Machine.execSshl d a b s
  | .sshr d a b => Sys2Proof.Machine.execSshr d a b s
  | .ssar d a b => Sys2Proof.Machine.execSsar d a b s
  | .smin d a b => Sys2Proof.Machine.execSmin d a b s
  | .smax d a b => Sys2Proof.Machine.execSmax d a b s
  | .sminu d a b => Sys2Proof.Machine.execSminu d a b s
  | .smaxu d a b => Sys2Proof.Machine.execSmaxu d a b s
  | .seq d a b => Sys2Proof.Machine.execSeq d a b s
  | .slt d a b => Sys2Proof.Machine.execSlt d a b s
  | .sltu d a b => Sys2Proof.Machine.execSltu d a b s
  | .ssel d a b => Sys2Proof.Machine.execSsel d a b s
  | .sbfe d a b => Sys2Proof.Machine.execSbfe d a b s
  | .sbfi d a b => Sys2Proof.Machine.execSbfi d a b s
  | .spopc d a => Sys2Proof.Machine.execSpopc d a s
  | .sclz d a => Sys2Proof.Machine.execSclz d a s
  | .sctz d a => Sys2Proof.Machine.execSctz d a s
  | .smov d a => Sys2Proof.Machine.execSmov d a s
  | .smovi d imm => Sys2Proof.Machine.execSmovi d imm s
  | .smovh d imm => Sys2Proof.Machine.execSmovh d imm s
  | .add d a b => Sys2Proof.Machine.execAdd d a b s
  | .sub d a b => Sys2Proof.Machine.execSub d a b s
  | .mul d a b => Sys2Proof.Machine.execMul d a b s
  | .fma d a b => Sys2Proof.Machine.execFma d a b s
  | .fms d a b => Sys2Proof.Machine.execFms d a b s
  | .fnma d a b => Sys2Proof.Machine.execFnma d a b s
  | .min d a b => Sys2Proof.Machine.execMin d a b s
  | .max d a b => Sys2Proof.Machine.execMax d a b s
  | .abs d a => Sys2Proof.Machine.execAbs d a s
  | .neg d a => Sys2Proof.Machine.execNeg d a s
  | .mov d a => Sys2Proof.Machine.execMov d a s
  | .and d a b => Sys2Proof.Machine.execAnd d a b s
  | .or d a b => Sys2Proof.Machine.execOr d a b s
  | .xor d a b => Sys2Proof.Machine.execXor d a b s
  | .not d a => Sys2Proof.Machine.execNot d a s
  | .shl d a b => Sys2Proof.Machine.execShl d a b s
  | .shr d a b => Sys2Proof.Machine.execShr d a b s
  | .sar d a b => Sys2Proof.Machine.execSar d a b s
  | .mulhi d a b => Sys2Proof.Machine.execMulhi d a b s
  | .clamp d a b => Sys2Proof.Machine.execClamp d a b s
  | .sel d a b => Sys2Proof.Machine.execSel d a b s
  | .cmpeq d a b => Sys2Proof.Machine.execCmpeq d a b s
  | .cmpne d a b => Sys2Proof.Machine.execCmpne d a b s
  | .cmplt d a b => Sys2Proof.Machine.execCmplt d a b s
  | .cmple d a b => Sys2Proof.Machine.execCmple d a b s
  | .cmpun d a b => Sys2Proof.Machine.execCmpun d a b s
  | .floor d a => Sys2Proof.Machine.execFloor d a s
  | .ceil d a => Sys2Proof.Machine.execCeil d a s
  | .rnde d a => Sys2Proof.Machine.execRnde d a s
  | .trunc d a => Sys2Proof.Machine.execTrunc d a s
  | .fract d a => Sys2Proof.Machine.execFract d a s
  | .copysign d a b => Sys2Proof.Machine.execCopysign d a b s
  | .popc d a => Sys2Proof.Machine.execPopc d a s
  | .clz d a => Sys2Proof.Machine.execClz d a s
  | .bfe d a b => Sys2Proof.Machine.execBfe d a b s
  | .bfi d a b => Sys2Proof.Machine.execBfi d a b s
  | .dot2 d a b => Sys2Proof.Machine.execDot2 d a b s
  | .swaph d a f => Sys2Proof.Machine.execSwaph d a f s
  | .perm d a b => Sys2Proof.Machine.execPerm d a b s
  | .lanes d a b => Sys2Proof.Machine.execLanes d a b s
  | .ldexp d a b => Sys2Proof.Machine.execLdexp d a b s
  | .cvt d a f g => Sys2Proof.Machine.execCvt d a f g s
  | .cvtf d a e j sc => Sys2Proof.Machine.execCvtf d a e j sc s
  | .pack d a b => Sys2Proof.Machine.execPack d a b s
  | .unpkl d a => Sys2Proof.Machine.execUnpkl d a s
  | .unpkh d a => Sys2Proof.Machine.execUnpkh d a s
  | .rcp d a => Sys2Proof.Machine.execRcp d a s
  | .rsq d a => Sys2Proof.Machine.execRsq d a s
  | .sqrt d a => Sys2Proof.Machine.execSqrt d a s
  | .exp2 d a => Sys2Proof.Machine.execExp2 d a s
  | .log2 d a => Sys2Proof.Machine.execLog2 d a s
  | .sinpi d a => Sys2Proof.Machine.execSinpi d a s
  | .cospi d a => Sys2Proof.Machine.execCospi d a s
  | .rred d a => Sys2Proof.Machine.execRred d a s
  | .tanh d a => Sys2Proof.Machine.execTanh d a s
  | .div d a b => Sys2Proof.Machine.execDiv d a b s
  | .rgrow d imm => Sys2Proof.Machine.execRgrow d imm s
  | .rshrink imm => Sys2Proof.Machine.execRshrink imm s
  | .trgrow d imm => Sys2Proof.Machine.execTrgrow d imm s
  | .trshrink imm => Sys2Proof.Machine.execTrshrink imm s
  | .vshape d a f => Sys2Proof.Machine.execVshape d a f s
  | .sread d n => Sys2Proof.Machine.execSread d n s
  | .swrite a n => Sys2Proof.Machine.execSwrite a n s
  | .slit d n => Sys2Proof.Machine.execSlit d n s
  | .ld d a b => Sys2Proof.Machine.execLd d a b s
  | .ld16 d a b => Sys2Proof.Machine.execLd16 d a b s
  | .ld8 d a b => Sys2Proof.Machine.execLd8 d a b s
  | .st d a b => Sys2Proof.Machine.execSt d a b s
  | .st16 d a b => Sys2Proof.Machine.execSt16 d a b s
  | .st8 d a b => Sys2Proof.Machine.execSt8 d a b s
  | .lds d a b => Sys2Proof.Machine.execLds d a b s
  | .sts d a b => Sys2Proof.Machine.execSts d a b s
  | .ldb d a b => Sys2Proof.Machine.execLdb d a b s
  | .stb d a b => Sys2Proof.Machine.execStb d a b s
  | .smap d a b => Sys2Proof.Machine.execSmap d a b s
  | .sunmap a => Sys2Proof.Machine.execSunmap a s
  | .sflush a => Sys2Proof.Machine.execSflush a s
  | .fence l k sc => Sys2Proof.Machine.execFence l k sc s
  | .cpy d a b => Sys2Proof.Machine.execCpy d a b s
  | .pref a b => Sys2Proof.Machine.execPref a b s
  | .binit d a b => Sys2Proof.Machine.execBinit d a b s
  | .barr a f => Sys2Proof.Machine.execBarr a f s
  | .barx a b => Sys2Proof.Machine.execBarx a b s
  | .bwait a b => Sys2Proof.Machine.execBwait a b s
  | .atadd d a b => Sys2Proof.Machine.execAtadd d a b s
  | .atmin d a b => Sys2Proof.Machine.execAtmin d a b s
  | .atmax d a b => Sys2Proof.Machine.execAtmax d a b s
  | .atand d a b => Sys2Proof.Machine.execAtand d a b s
  | .ator d a b => Sys2Proof.Machine.execAtor d a b s
  | .atxor d a b => Sys2Proof.Machine.execAtxor d a b s
  | .atxch d a b => Sys2Proof.Machine.execAtxch d a b s
  | .atcas d a b => Sys2Proof.Machine.execAtcas d a b s
  | .tlincSignal d a => Sys2Proof.Machine.execTlincSignal d a s
  | .tlincReserve d a => Sys2Proof.Machine.execTlincReserve d a s
  | .tlincComplete d a => Sys2Proof.Machine.execTlincComplete d a s
  | .tlrd d a f => Sys2Proof.Machine.execTlrd d a f s
  | .tzero t => Sys2Proof.Machine.execTzero t s
  | .mma t a b => Sys2Proof.Machine.execMma t a b s
  | .tld t a => Sys2Proof.Machine.execTld t a s
  | .tst t a => Sys2Proof.Machine.execTst t a s
  | .tcvt t u f g => Sys2Proof.Machine.execTcvt t u f g s
  | .tcolr d u c => Sys2Proof.Machine.execTcolr d u c s
  | .tcolw t a c => Sys2Proof.Machine.execTcolw t a c s
  | .mfence => Sys2Proof.Machine.execMfence s
  | .rprd d f => Sys2Proof.Machine.execRprd d f s
  | .stest t => Sys2Proof.Machine.execStest t s
  | .tscale t a f => Sys2Proof.Machine.execTscale t a f s
  | .fopen d a => Sys2Proof.Machine.execFopen d a s
  | .fsend d a b => Sys2Proof.Machine.execFsend d a b s
  | .fmcast d a b => Sys2Proof.Machine.execFmcast d a b s
  | .freseed a => Sys2Proof.Machine.execFreseed a s
  | .fclose a => Sys2Proof.Machine.execFclose a s
  | .fstat d a f => Sys2Proof.Machine.execFstat d a f s
  | .coll d a b => Sys2Proof.Machine.execColl d a b s
  | .cringCfg a n => Sys2Proof.Machine.execCringCfg a n s
  | .cringRel a n => Sys2Proof.Machine.execCringRel a n s
  | .cringClose a n => Sys2Proof.Machine.execCringClose a n s
  | .tcopy d a b => Sys2Proof.Machine.execTcopy d a b s
  | .xroute d a b => Sys2Proof.Machine.execXroute d a b s
  | .xtable a => Sys2Proof.Machine.execXtable a s
  | .task n r => Sys2Proof.Machine.execTask n r s
  | .trap d imm => Sys2Proof.Machine.execTrap d imm s
  | .tret => Sys2Proof.Machine.execTret s
  | .tmask => Sys2Proof.Machine.execTmask s
  | .tunmask => Sys2Proof.Machine.execTunmask s
  | .lkill => Sys2Proof.Machine.execLkill s
  | .mbrecv d a => Sys2Proof.Machine.execMbrecv d a s
  | .mbsend d a b => Sys2Proof.Machine.execMbsend d a b s
  | .mbpeek d a f => Sys2Proof.Machine.execMbpeek d a f s
  | .launch d a => Sys2Proof.Machine.execLaunch d a s
  | .kquery d a f => Sys2Proof.Machine.execKquery d a f s
  | .kcancel a => Sys2Proof.Machine.execKcancel a s
  | .kpreemptSave a => Sys2Proof.Machine.execKpreemptSave a s
  | .kpreemptDiscard a => Sys2Proof.Machine.execKpreemptDiscard a s
  | .aopen d a => Sys2Proof.Machine.execAopen d a s
  | .astep d a b => Sys2Proof.Machine.execAstep d a b s
  | .aclose a => Sys2Proof.Machine.execAclose a s
  | .aabandon a => Sys2Proof.Machine.execAabandon a s
  | .aquery d a f => Sys2Proof.Machine.execAquery d a f s
  | .aresolve a b => Sys2Proof.Machine.execAresolve a b s
  | .acret a => Sys2Proof.Machine.execAcret a s
  | .pvsub d a b => Sys2Proof.Machine.execPvsub d a b s
  | .pvfill d a => Sys2Proof.Machine.execPvfill d a s
  | .pvstat d a f => Sys2Proof.Machine.execPvstat d a f s
  | .pvNop => Sys2Proof.Machine.execPvNop s
  | .pvVec o n => Sys2Proof.Machine.execPvVec o n s
  | .pvRows f n => Sys2Proof.Machine.execPvRows f n s
  | .pvMac c l => Sys2Proof.Machine.execPvMac c l s
  | .pvScale sc => Sys2Proof.Machine.execPvScale sc s
  | .pvOut => Sys2Proof.Machine.execPvOut s
  | .pvSync => Sys2Proof.Machine.execPvSync s
  | .pvEnd => Sys2Proof.Machine.execPvEnd s
  | .bzreq d a => Sys2Proof.Machine.execBzreq d a s
  | .keygenGenerate d a => Sys2Proof.Machine.execKeygenGenerate d a s
  | .keygenDestroy d a => Sys2Proof.Machine.execKeygenDestroy d a s
  | .keyseal d a b => Sys2Proof.Machine.execKeyseal d a b s
  | .attest d a b => Sys2Proof.Machine.execAttest d a b s
  | .locketw d a c => Sys2Proof.Machine.execLocketw d a c s
  | .caprd d a f => Sys2Proof.Machine.execCaprd d a f s
  | .tlbinv a f => Sys2Proof.Machine.execTlbinv a f s
  | .fltret a => Sys2Proof.Machine.execFltret a s
  | .clauseFetch => Sys2Proof.Machine.execClauseFetch s
  | .clauseStart => Sys2Proof.Machine.execClauseStart s
  | .operationCompletion => Sys2Proof.Machine.execOperationCompletion s
  | .groupSwap => Sys2Proof.Machine.execGroupSwap s
  | .groupExitDrain => Sys2Proof.Machine.execGroupExitDrain s
  | .shareGrant => Sys2Proof.Machine.execShareGrant s
  | .pageWalkComplete => Sys2Proof.Machine.execPageWalkComplete s
  | .faultRecordDelivery => Sys2Proof.Machine.execFaultRecordDelivery s
  | .stashRecall => Sys2Proof.Machine.execStashRecall s
  | .blockedAccessResume => Sys2Proof.Machine.execBlockedAccessResume s
  | .copyEngineComplete => Sys2Proof.Machine.execCopyEngineComplete s
  | .leaseExpiry => Sys2Proof.Machine.execLeaseExpiry s
  | .postedStoreArrival => Sys2Proof.Machine.execPostedStoreArrival s
  | .bwaitSatisfied => Sys2Proof.Machine.execBwaitSatisfied s
  | .ticketDrawResume => Sys2Proof.Machine.execTicketDrawResume s
  | .matrixOpComplete => Sys2Proof.Machine.execMatrixOpComplete s
  | .transferStart => Sys2Proof.Machine.execTransferStart s
  | .chunkArrival => Sys2Proof.Machine.execChunkArrival s
  | .trailerArrival => Sys2Proof.Machine.execTrailerArrival s
  | .nackArrival => Sys2Proof.Machine.execNackArrival s
  | .ackArrival => Sys2Proof.Machine.execAckArrival s
  | .absentRetryTimer => Sys2Proof.Machine.execAbsentRetryTimer s
  | .reseedArrival => Sys2Proof.Machine.execReseedArrival s
  | .flowCloseComplete => Sys2Proof.Machine.execFlowCloseComplete s
  | .tcopyCreditGrant => Sys2Proof.Machine.execTcopyCreditGrant s
  | .ringLineReport => Sys2Proof.Machine.execRingLineReport s
  | .descriptorReceive => Sys2Proof.Machine.execDescriptorReceive s
  | .contribEntryHead => Sys2Proof.Machine.execContribEntryHead s
  | .collectiveComplete => Sys2Proof.Machine.execCollectiveComplete s
  | .capacityClaim => Sys2Proof.Machine.execCapacityClaim s
  | .claimReply => Sys2Proof.Machine.execClaimReply s
  | .taskCommit => Sys2Proof.Machine.execTaskCommit s
  | .trapDelivery => Sys2Proof.Machine.execTrapDelivery s
  | .deferredTrapTake => Sys2Proof.Machine.execDeferredTrapTake s
  | .stopComplete => Sys2Proof.Machine.execStopComplete s
  | .maskedHoldTimeout => Sys2Proof.Machine.execMaskedHoldTimeout s
  | .contextRestore => Sys2Proof.Machine.execContextRestore s
  | .sealArrival => Sys2Proof.Machine.execSealArrival s
  | .mailboxFieldStore => Sys2Proof.Machine.execMailboxFieldStore s
  | .hostMailboxWrite => Sys2Proof.Machine.execHostMailboxWrite s
  | .outboundPhaseAdvance => Sys2Proof.Machine.execOutboundPhaseAdvance s
  | .teamDispatch => Sys2Proof.Machine.execTeamDispatch s
  | .retirementComplete => Sys2Proof.Machine.execRetirementComplete s
  | .compensatorLaunch => Sys2Proof.Machine.execCompensatorLaunch s
  | .compensatorRetire => Sys2Proof.Machine.execCompensatorRetire s
  | .paveCommandStart => Sys2Proof.Machine.execPaveCommandStart s
  | .paveCommandComplete => Sys2Proof.Machine.execPaveCommandComplete s
  | .paveFillComplete => Sys2Proof.Machine.execPaveFillComplete s
  | .rehashSweepComplete => Sys2Proof.Machine.execRehashSweepComplete s
  | .unitScrubComplete => Sys2Proof.Machine.execUnitScrubComplete s
  | .keyDrawComplete => Sys2Proof.Machine.execKeyDrawComplete s
  | .generatorRetest => Sys2Proof.Machine.execGeneratorRetest s
  | .hostMemWrite => Sys2Proof.Machine.execHostMemWrite s
  | .hostMemRead => Sys2Proof.Machine.execHostMemRead s
  | .auditRecordDelivery => Sys2Proof.Machine.execAuditRecordDelivery s
  | .mcmdLock => Sys2Proof.Machine.execMcmdLock s
  | .mcmdRun => Sys2Proof.Machine.execMcmdRun s
  | .mcmdDrawOpenKey => Sys2Proof.Machine.execMcmdDrawOpenKey s
  | .bar0Write => Sys2Proof.Machine.execBar0Write s
  | .throttleStep => Sys2Proof.Machine.execThrottleStep s
  | .coldReset => Sys2Proof.Machine.execColdReset s
  | .warmReset => Sys2Proof.Machine.execWarmReset s
  | .bar0Read => Sys2Proof.Machine.execBar0Read s

end Sys2Proof.Machine
end

