-- ==== Sys2Proof/Machine/Hw.lean ====
section
/-! DEFINITION. What the units of the module do at times of their own choosing, without an event of the table: prefetches and
evictions (R161, R172, R226), loads performed late (R227), acknowledgements (R173, R256), the single sectors and chunks of engines
(R235, R253), and the errors of storage with what follows from them (R303, R360, R363). -/

namespace Sys2Proof.Machine

open Sys2Proof

/-! ### Caches, loads and links -/

/-- A core's L1 takes a sector outside SYNC pages (R172, R226). -/
def State.hwFill (s : State) (core sector : Nat) : Option State :=
  if 256 ≤ core || s.unit (.core core) == .gone || (s.sidecar sector).sync then none
  else some { s with leases := putLease s.leases (s.freshLease core sector) }

/-- An access of a bezel finds its line in L2 (R315). -/
def State.hwLine (s : State) (b line : Nat) : Option State :=
  if s.closedTo b (1024 * line) || line / 2 ^ 33 ≠ s.devId || (s.hashSlices b).isEmpty then none else some (s.lookLine b line)

/-- L2 drops a line. -/
def State.hwDropLine (s : State) (line : Nat) : Option State :=
  if s.lines.any fun x => x.1 == line then some { s with lines := s.lines.filter fun x => x.1 != line } else none

/-- A TLB drops a leaf (R161). -/
def State.hwEvict (s : State) (die : Bool) (bezel at_ page : Nat) : Option State :=
  let is := fun (e : TlbEntry) => e.bezel == bezel && e.core == at_ && e.page == page
  if die then if s.dieTlb.any is then some { s with dieTlb := s.dieTlb.filter fun e => !is e } else none
  else if s.tlb.any is then some { s with tlb := s.tlb.filter fun e => !is e } else none

/-- A load's results with the data of its open lanes taken now. -/
def Deliver.reload (f : Nat → Option Nat) : Deliver → Deliver
  | .vec code mask l .u => .vec code mask (match f ((lanesOf mask).headD 0) with | some x => Lanes.splat (BitVec.ofNat 32 x) | none => l) .u
  | .vec code mask l tag => .vec code mask (Lanes.of fun i => match f i with | some x => BitVec.ofNat 32 x | none => l.lane i) tag
  | .scal n v => .scal n (match f 0 with | some x => BitVec.ofNat 64 x | none => v)

/-- An outstanding load is performed now (R227): its open lanes take what their addresses hold at this step, but not while another
group's open task holds one of their blocks (R224), or where one is poisoned. -/
def State.hwLoad (s : State) (r : GRef) (id : Nat) : Option State :=
  match s.team? r.team, s.group? r with
  | some t, some g =>
    match (g.op? id).bind fun o => o.again.map fun a => (o, a) with
    | none => none
    | some (o, n, l) =>
      let ps := l.map fun x => (x.1, x.2.2.at_ x.2.1)
      let s1 := s.fillPlaces (ps.map (·.2))
      if ps.any fun p => s1.placePoisoned p.2 || (s1.heldBlock r p.2).isSome then none
      else
        let f := fun i => (ps.find? fun p => p.1 == i).map fun p => leNat (s1.loadBytes r g t.core p.2 n)
        some (s1.modGroup r fun g => g.resolve id (fun ds => ds.map (Deliver.reload f)) o.what)
  | _, _ => none

/-- A posted entry for another device takes effect there, and is visible to the agents of that module (R173, R232, R233); its
acknowledgement for every module is still to come. -/
def State.hwAck (s : State) (i : Nat) : Option State :=
  match s.posted[i]? with
  | none => none
  | some p =>
    if p.acked || p.sig.isSome || p.inside s.devId || !s.mayLand i p || p.sectors.any s.recallWaits then none
    else some ((({ s with posted := modAt s.posted i fun p => { p with acked := true } } : State).postedEffect p).signalsDue)

/-- A send end begins its next command, or sends what comes next of the one in progress (R253, R258). -/
def State.hwFlow (s : State) (n : Nat) : Option State :=
  match (s.flow? n).bind (·.cur) with
  | none => s.transferBegin n
  | some _ => s.sendNext n

/-! ### Errors (R303, R360, R363) -/

/-- An error that an array has corrected (R360). -/
def State.hwCorrected (s : State) (die : Nat) (unit : W64) : Option State :=
  if 4 ≤ die then none else some (s.locket die 11 (Config.lockCode 5).toNat 0 unit)

/-- Sectors of a frame as the memory controller retires it: 64 KiB (log entry 27). -/
def frameSectors : Nat := 256

/-- A sector reads as poisoned from now on (R9, R360). -/
def State.poison (s : State) (sector : Nat) : State := s.setSidecar sector { s.sidecar sector with poison := true }

/-- A word of an array whose error cannot be corrected (R360): an L1 fetches its line again; in the other arrays the data is
poisoned, and a frame of a channel is RETIRED (R159). A sector that moves with a CHECK that does not hold is one too (R362). -/
def State.errorEffect (s : State) (e : ErrorAt) : Option State :=
  match e with
  | .l1 core sector =>
    if s.leases.any fun l => l.core == core && l.sector == sector then
      some ((s.dropLeases core [sector]).locket (core / 64) 11 (Config.lockCode 5).toNat 0 (BitVec.ofNat 64 core))
    else none
  | .stash sid blk => (s.team? sid).map fun _ => s.modTeam sid fun t => { t with bad := blk :: t.bad.filter fun b => b != blk }
  | .l2 sector => if sector / 2 ^ 35 = s.devId then some (s.poison sector) else none
  | .hbm sector =>
    if sector / 2 ^ 35 = s.devId then
      let frame := (sector / frameSectors * frameSectors, frameSectors)
      some { s.poison sector with retired := frame :: s.retired.filter (· != frame) }
    else none
  | .check sector => some ((s.poison sector).locket (dieOfPa (256 * sector)) 7 12 0 (BitVec.ofNat 64 (256 * sector)))
  | .clasp n i => match s.act? n with
    | none => none
    | some a => if i < a.stack.length then some (s.modAct n fun a => { a with stack := modAt a.stack i fun e => { e with damaged := true } }) else none
  | .vreg r code lanes => (s.group? r).map fun _ => s.modGroup r fun g =>
      g.setVreg code { g.vreg code with bad := (g.vreg code).bad ||| lanes }
  | .sreg r n => (s.group? r).map fun _ => s.modGroup r fun g => { g with sbad := g.sbad ||| 1#32 <<< n }
  | .tile r n rows => (s.group? r).map fun _ => s.modGroup r fun g =>
      { g with t := modAt g.t n fun t => if t.wr != t.cur then { t with bad1 := t.bad1 ||| rows } else { t with bad0 := t.bad0 ||| rows } }
  | .ckpt r => (s.group? r).map fun _ => s.modGroup r fun g =>
      if g.ckCur then { g with ck1 := { g.ck1 with bad := true } } else { g with ck0 := { g.ck0 with bad := true } }
  | .mirror n slot => (s.flow? n).map fun _ => s.modFlow n fun f => f.setSlot { f.slot slot with bad := true }

/-- The unit of an error and its location there (R363): an array of a core, a slice or a channel. -/
def State.errorPlace (s : State) (e : ErrorAt) : Option (UnitId × Nat × Nat) :=
  let core := fun (sid kind x : Nat) => (s.team? sid).map fun t => (UnitId.core t.core, kind, x)
  match e with
  | .stash sid blk => core sid 0 blk
  | .vreg r code _ => core r.team 1 (1024 * r.grp + 512 * (if r.sh then 1 else 0) + code.toNat)
  | .sreg r n => core r.team 2 (64 * r.grp + 32 * (if r.sh then 1 else 0) + n)
  | .tile r t _ => core r.team 3 (32 * r.grp + t)
  | .l2 sector => (s.lines.find? fun x => x.1 == sector / 4).map fun x => (.slice x.2, 4, sector)
  | .hbm sector => if sector / 2 ^ 32 % 8 = 0 then some (.chan (sector / 2 ^ 22 % 2 ^ 10), 5, sector) else none
  | .l1 _ _ | .ckpt _ | .mirror _ _ | .check _ | .clasp _ _ => none

/-- An error that an array cannot correct (R360). One that recurs at its location fences the unit (R363). -/
def State.hwError (s : State) (e : ErrorAt) : Option State :=
  (s.errorEffect e).map fun s1 => match s.errorPlace e with
    | none => s1
    | some p => if s.errs.contains p then s1.fenceUnit p.1 else { s1 with errs := p :: s1.errs }

/-- A unit whose self-test fails is fenced (R363). -/
def State.hwFence (s : State) (u : UnitId) : Option State :=
  if s.fencedUnits.contains u || s.unit u == .gone || !validUnit u then none else some (s.fenceUnit u)

/-- A lane of a Tythal port is fenced (R5, R363). -/
def State.hwFenceLane (s : State) (port lane : Nat) : Option State :=
  if 32 ≤ port || 4 ≤ lane || s.lanesOut.contains (port, lane) then none
  else some (({ s with lanesOut := (port, lane) :: s.lanesOut } : State).locket (portDie port) 3 (Config.lockCode 6).toNat 0 (BitVec.ofNat 64 (4 * port + lane)))

/-- A register file is repaired: from the next reset on its sub-core reports `regs` vector registers (R303). -/
def State.hwRepair (s : State) (core sub regs : Nat) : Option State :=
  if 256 ≤ core || 4 ≤ sub || s.unit (.core core) == .gone || 6144 ≤ regs then none
  else some (s.setNextCap core sub fun x => { x with regs := min x.regs regs })

/-- The host port trains: 16, 8 or 4 lanes, at 64 or 32 GT/s (R367). -/
def State.hwTrain (s : State) (lanes rate : Nat) : Option State :=
  if [16, 8, 4].contains lanes && [64, 32].contains rate then some { s with host := { s.host with lanes := lanes, rate := rate } }
  else none

/-- A step of a unit that no event of the table names. -/
def State.hwStep (s : State) (h : HwStep) : Option State :=
  match h with
  | .fill core sector => s.hwFill core sector
  | .line b line => s.hwLine b line
  | .dropLine line => s.hwDropLine line
  | .evict die bezel at_ page => s.hwEvict die bezel at_ page
  | .load g op => s.hwLoad g op
  | .ack i => s.hwAck i
  | .cmdSector cmd n => s.cmdSector cmd n
  | .collSector sid n i given => s.collSector sid n i given
  | .paveSector ch n => s.paveSector ch n
  | .flowStep n => s.hwFlow n
  | .flowAck n => s.sendAck n
  | .mirrorRetry i => s.mirrorRetry i
  | .corrected die unit => s.hwCorrected die unit
  | .error e => s.hwError e
  | .fence u => s.hwFence u
  | .fenceLane port lane => s.hwFenceLane port lane
  | .train lanes rate => s.hwTrain lanes rate
  | .repair core sub regs => s.hwRepair core sub regs

end Sys2Proof.Machine
end

