-- ==== Sys2Proof/Machine/Step.lean ====
section
/-! DEFINITION. One step: what the agenda names next, or the choice of the schedulers, or an idle step (log entry 1). -/

namespace Sys2Proof.Machine

open Sys2Proof

/-- The issue of a group's next instruction: its word is decoded and executed, or traps (R60). -/
def stepIssue (r : GRef) (s : State) : Host.Outcome State Fault Refusal :=
  if !s.mayIssue r then .refused (.notEnabled "issue")
  else match s.ctxOf r with
    | none => .refused .noIssuer
    | some c =>
      match decode (c.cl.words[c.cl.idx]?.getD 0) with
      | .ok i => exec i { s with cur := some r }
      | .error e => .next (undecoded { s with cur := some r } c (c.cl.words[c.cl.idx]?.getD 0) e)

/-- The next word of a pavé engine (R341, R345). -/
def stepPave (ch : Nat) (s : State) : Host.Outcome State Fault Refusal :=
  match s.engines.find? fun e => e.chan == ch with
  | none => .refused .noIssuer
  | some e =>
    match decodePave e.word with
    | some i => exec i { s with curEng := some ch }
    | none => paveIllword { s with curEng := some ch }

/-- One choice carried out. -/
def stepMove (m : Move) (s : State) : Host.Outcome State Fault Refusal :=
  match m with
  | .event e => exec (eventInstr e) { s with input := some e }
  | .issue r => stepIssue r s
  | .pave ch => stepPave ch s
  | .hw h => match s.hwStep h with
    | some t => .next t
    | none => .refused (.notEnabled "unit")

/-- A step has changed something beside the time and the marks of the step itself. -/
def progress (s t : State) : Bool := decide ({ t with cycles := 0, arith := 0 } ≠ { s with cur := t.cur, input := t.input, curEng := t.curEng, cycles := 0, arith := 0 })

/-- The thing that the module does of itself, if any: the first that changes the state, looked for from a place in the order
that moves on with the step number, so that nothing is kept waiting for ever by another (log entry 1). -/
def State.choose (s : State) : Option Move :=
  (s.candidates.drop (s.stepNo % s.candidates.length) ++ s.candidates.take (s.stepNo % s.candidates.length)).find? fun m => match stepMove m s.tick with | .next t => progress s.tick t | _ => false

/-- One step of the module. -/
def step (s : State) : Host.Outcome State Fault Refusal :=
  match s.agenda with
  | m :: rest => stepMove m { s.tick with agenda := rest }
  | [] =>
    match s.choose with
    | some m => stepMove m s.tick
    | none => .next s.tick

/-- The state with an instruction placed where the next step fetches (log entry 4). A row of the opcode table has 32
bits; the four bytes are in memory order (R24, R46). -/
def State.withFetchWord (s : State) (_nbits w : Nat) : State := s.placeInstr (BitVec.ofNat 32 (leNat (leBytes w 4)))

end Sys2Proof.Machine
end

