-- ==== Sys2Proof/Safety.lean ====
section
/-! DEFINITION. The terms in which the statements speak: an instruction at its issue, what it leaves when it completes,
traps or waits, the part of a group that moving to the next instruction touches, and the canonical form of memory. -/

namespace Sys2Proof.Machine

open Sys2Proof

/-- Instruction `i` is at its issue in context `c`, passes the checks of R60 that come before its own, and reads no register whose
storage has failed (R361). -/
structure Issuing (i : Instr) (c : Ctx) (s : State) : Prop where
  ctx : s.ctx = some c
  checks : precheck c i = none
  sound : c.sound i s = some (c, s)

/-- The effect is in `t`, and the issuing group moves past its instruction. -/
def Ctx.past (c : Ctx) (t : State) : State := t.modGroup c.g Group.advance

/-- Scalar `d` receives `v` (R57, R131), and the group moves past its instruction. -/
def Ctx.scal (c : Ctx) (s : State) (d : BitVec 8) (v : W64) : State := c.past (c.mod s fun g => g.resultS d v)

/-- Lane `i` of EM of vector destination `d` receives `f i` under a tag (R117, R119, R130), and the group moves past its
instruction. -/
def Ctx.vect (c : Ctx) (s : State) (d : BitVec 8) (tag : Tag) (f : Nat → W32) : State :=
  c.past (c.mod s fun g => g.resultV d c.em tag (Lanes.of f))

/-- The instruction traps with no effect of its own (R60, R292). -/
def Ctx.traps (c : Ctx) (s : State) (code : Nat) (addr : W64) : State := s.raise c code addr 0 c.here

/-- The instruction waits at its issue. -/
def Ctx.waits (c : Ctx) (s : State) (w : Wait) : State := s.modGroup c.g fun g => { g with wait := w }

/-- An operation of class a may issue: its flag's count is below 63 and, under SHADOW, the load-value queue has room (R51, R97). -/
def Ctx.RoomA (c : Ctx) (s : State) : Prop :=
  ∃ g, s.group? c.g = some g ∧ g.canRaise (flagA c.cl.head) = true ∧ (c.shadowed = true → g.lvq.length < 8)

/-- An operation of class b may issue: its flag's count is below 63 (R51). -/
def Ctx.RoomB (c : Ctx) (s : State) : Prop := ∃ g, s.group? c.g = some g ∧ g.canRaise (flagB c.cl.head) = true

/-- The number that the group's next operation takes. -/
def Ctx.nextOp (c : Ctx) (s : State) : Nat := ((s.group? c.g).map (·.nextOp)).getD 0

/-- The state with an operation of class a outstanding, tagged with its flag; under SHADOW it has taken an entry of the
load-value queue (R51, R52, R97). -/
def Ctx.opA (c : Ctx) (s : State) (dest : List Deliver) (what : OpWhat) (ck : Bool) : State :=
  c.mod s fun g =>
    let o : Op :=
     { id := c.nextOp s, flag := flagA c.cl.head, classA := true, task := ((s.group? c.g).map (·.taskSeq)).getD 0, dest := dest,
       what := what, ck := ck }
    if c.shadowed then
      { g.addOp o with lvq := g.lvq ++ [{ pc := c.pc.setWidth 64, dest := dest, filled := false, op := o.id }] }
    else g.addOp o

/-- The state with an operation of class b outstanding, tagged with its flag (R51, R52). -/
def Ctx.opB (c : Ctx) (s : State) (what : OpWhat) : State :=
  c.mod s fun g => g.addOp { id := g.nextOp, flag := flagB c.cl.head, classA := false, task := g.taskSeq, what := what }

/-- The state after an instruction of class a that found nothing to do: complete at once, with a filled entry of the load-value
queue under SHADOW (R51, R97). -/
def Ctx.noneA (c : Ctx) (s : State) : State :=
  if c.shadowed then c.mod s fun g => { g with lvq := g.lvq ++ [({ pc := c.pc.setWidth 64, dest := [], filled := true, op := 0 } : LvqEntry)] }
  else s

/-- The state with an instruction held with the version (R222; log entry 14). -/
def Ctx.held (c : Ctx) (s : State) (mk : Nat → Deferred) : State :=
  c.mod (c.opB s .held) fun g => { g with ver := { g.ver with deferred := g.ver.deferred ++ [mk (c.nextOp s)] } }

/-- The state with a tile operation at the end of the group's matrix queue (R197, R199). -/
def Ctx.queued (c : Ctx) (s : State) (what : MWhat) (rows : W32) : State :=
  c.mod (enqueue c s c.grp.nextOp what rows none true) fun g => { g with nextOp := g.nextOp + 1 }

/-- No poison lies at a place, nor in the sector that fills its block (R166, R361). -/
def State.Sane (s : State) (p : Place) : Prop :=
  s.placePoisoned p = false ∧ ∀ sid off va t m, p = .stash sid off va → s.team? sid = some t → m ∈ t.mapped →
    m.off = off / 256 * 256 → m.filled = false → s.poisoned m.sector = false

/-- An access of kind `k` by the issuing group may go to address `a`, which leads to place `p`: the address lies in the map and is a
multiple of `al`, its page is present and gives the access, and no other group's open task holds the block there (R155, R160, R169,
R224). -/
structure Ctx.Reaches (c : Ctx) (s : State) (k : Acc) (al : Nat) (a : W64) (p : Place) : Prop where
  inMap : a.toNat < 2 ^ 57
  aligned : a.toNat % al = 0
  place : s.place c.team c.kern c.bez k a = .ok p
  free : s.heldBlock c.g p = none

/-- No atomic of the issuing group is on its way to another device (R219, R232). -/
def Ctx.NoAtomic (c : Ctx) (s : State) : Prop := ∀ p ∈ s.posted, p.src = c.g → p.atomic = none

/-- The units of an instruction that stores to some places are within the bound, alone and with those of its task (R285). -/
def Ctx.UnitsFit (c : Ctx) (s : State) (ps : List Place) : Prop :=
  recOwnTask c.kern.record = true ∨ ∃ g, s.group? c.g = some g ∧ (({} : Version).withUnits ps).count ≤ g.bound ∧
    (g.ver.withUnits ps).count ≤ g.bound

/-- The state with the units of some places counted (R285). -/
def Ctx.counted (c : Ctx) (s : State) (ps : List Place) : State :=
  if recOwnTask c.kern.record then s else c.mod s fun g => { g with ver := g.ver.withUnits ps }

/-- The task can be committed before a task-ending instruction without a wait: it has been, or its operations have drained, no store
of it waits for a recall, and no shadow must agree (R222, R287). -/
def Ctx.MayCommit (c : Ctx) (s : State) : Prop :=
  c.grp.bnd = .passed ∨ c.grp.bnd ≠ .passed ∧ s.canCommit c = true ∧ (c.shadowed = false ∨ c.grp.mode = .handler)

/-- The state after that commit (R222, R287). `here`: the new task begins at the instruction itself. -/
def Ctx.commit (c : Ctx) (s : State) (here : Bool) : State :=
  if c.grp.bnd = .passed then s
  else (s.release c.g (c.grp.boundaryEntry c.kern) { c.here with passed := !here } c.slot).modGroup c.g fun g =>
    { g with bnd := .passed, bndHere := here }

/-- The state in which a record at a place has been read: its page in the TLB, its block filled, its sector leased (R161, R166,
R226). -/
def Ctx.reading (c : Ctx) (s : State) (a : W64) (p : Place) : State :=
  ((s.touch c.bez c.core [a]).fillPlaces [p]).takeLease c.g c.core c.grp.acquire p

/-- The issuing group can read the record of `n` bytes at address `a`: it reads `r` there, and the state is then `t` (R155, R160,
R219, R361). -/
def Ctx.Reads (c : Ctx) (s : State) (k : Acc) (a : W64) (n : Nat) (r : List Byte) (t : State) : Prop :=
  ∃ p, c.Reaches s k 1 a p ∧ s.Sane p ∧ t = c.reading s a p ∧ r = t.loadBytes c.g c.grp c.core p n

/-- Address `a` names the timeline counter `o`, in a SYNC page (R190); the stores that have committed to its sector are at
home, and the state is then `t`. -/
def Ctx.Counter (c : Ctx) (s : State) (k : Acc) (a : W64) (o : Obj) (t : State) : Prop :=
  ∃ pa ow, c.Reaches s k 32 a (.glob pa true ow a) ∧ s.poisoned (pa / 256) = false ∧ o = .glob pa a ow ∧
    t = (s.touch c.bez c.core [a]).atHome o

/-- Address `a` names the object `o` of a barrier instruction, in a window or in a SYNC page (R181, R182); the state is then `t`. -/
def Ctx.Object (c : Ctx) (s : State) (k : Acc) (a : W64) (o : Obj) (t : State) : Prop :=
  (isWindow a = false ∧ (∃ pa ow, c.Reaches s k 32 a (.glob pa true ow a) ∧ s.poisoned (pa / 256) = false ∧ o = .glob pa a ow ∧
     t = (s.touch c.bez c.core [a]).atHome o) ∨
   isWindow a = true ∧ t = s.touch c.bez c.core [a] ∧ ∃ sid off, c.Reaches s k 16 a (.stash sid off a) ∧ s.objMapped sid off = false ∧
     s.placePoisoned (.stash sid off a) = false ∧ o = .stash sid off a)

/-- The issuing group can read `n` pieces of 64 bytes from address `a` on: it reads `r` there, and the state is then `t` (R155, R160,
R277). -/
def Ctx.Pieces (c : Ctx) (s : State) (a : W64) (n : Nat) (r : List Byte) (t : State) : Prop :=
  ∃ (pl : Nat → Place) (ad : Nat → W64) (u : State), (∀ k, ad k = a + BitVec.ofNat 64 (64 * k)) ∧
    (∀ k < n, c.Reaches s .scalarLoad 1 (ad k) (pl k)) ∧
    u = (s.touch c.bez c.core ((List.range n).map ad)).fillPlaces ((List.range n).map pl) ∧
    t = ((List.range n).map pl).foldl (fun s p => s.takeLease c.g c.core c.grp.acquire p) u ∧
    (∀ k < n, t.placePoisoned (pl k) = false) ∧
    r = (List.range n).flatMap fun k => t.loadBytes c.g ((t.group? c.g).getD c.grp) c.core (pl k) 64

/-- The sequencer of a ring can read the ring objects of every rank for the issuing group: they stand at `pas`, and the state is
then `t` (R160, R163, R267). -/
def Ctx.Peers (c : Ctx) (s : State) (ring : Ring) (pas : List Nat) (t : State) : Prop :=
  ∃ (qs : List Nat) (pl : Nat → Place) (pa : Nat → Nat) (va : Nat → W64) (u : State),
    qs = (List.range ring.ranks).filter (· != ring.rank) ∧
    (∀ q ∈ qs, c.Reaches s .scalarLoad 1 (ring.peers + BitVec.ofNat 64 (16 * q)) (pl q)) ∧
    u = (s.touch c.bez c.core (qs.map fun q => ring.peers + BitVec.ofNat 64 (16 * q))).fillPlaces (qs.map pl) ∧
    (∀ q ∈ qs, u.placePoisoned (pl q) = false ∧
      va q = dword (u.loadBytes c.g { c.grp with acquire := u.stepNo + 1 } c.core (pl q) 16) 8 ∧
      ∃ sy ow x, c.Reaches u .scalarLoad 1 (va q) (.glob (pa q) sy ow x)) ∧
    (∃ x ow, ring.ctrl = .glob (pa ring.rank) x ow) ∧
    t = u.touch c.bez c.core (qs.map va) ∧ pas = (List.range ring.ranks).map pa

/-- A group as it stands once its instruction has been passed, without the fields that R46, R50, R93, R176, R199 and R283
let the passing of an instruction or the end of a clause write: the clause and the PC of its slot, the numbers and
membership of batches, the yield request, and the checkpoint written again after a task-ending instruction. -/
def Group.body (g : Group) : Group :=
  { g with clause := none, pcA := {}, pcB := {}, pcH := {}, lastSlot := .a, yielded := false, wait := .none, bnd := .idle,
           bndHere := false, lastBatch := 0, mbat := 0, lastCopyBatch := 0, cbat := 0, copies := [], mq := [], ck0 := {}, ck1 := {} }

/-- The scalar destination of the instructions of class f that write one scalar and nothing else (R109, R121, R128, R129, R131,
R140). -/
def scalarDst : Instr → Option (BitVec 8)
  | .sadd d _ _ | .ssub d _ _ | .smul d _ _ | .smulh d _ _ | .smulhu d _ _ | .sdivu d _ _ | .sremu d _ _ | .sand d _ _
  | .sor d _ _ | .sxor d _ _ | .sandn d _ _ | .sshl d _ _ | .sshr d _ _ | .ssar d _ _ | .smin d _ _ | .smax d _ _
  | .sminu d _ _ | .smaxu d _ _ | .seq d _ _ | .slt d _ _ | .sltu d _ _ | .ssel d _ _ | .sbfe d _ _ | .sbfi d _ _ => some d
  | .spopc d _ | .sclz d _ | .sctz d _ | .smov d _ | .smovi d _ | .smovh d _ => some d
  | .ballot d _ _ | .vall d _ | .vany d _ | .vshape d _ _ | .sread d _ | .slit d _ => some d
  | .cmpeq d _ _ | .cmpne d _ _ | .cmplt d _ _ | .cmple d _ _ | .cmpun d _ _ => some d
  | _ => none

/-- The vector destination of the instructions of class f that write one vector register (R110, R113, R135, R147 to R154). -/
def vectorDst : Instr → Option (BitVec 8)
  | .add d _ _ | .sub d _ _ | .mul d _ _ | .fma d _ _ | .fms d _ _ | .fnma d _ _ | .min d _ _ | .max d _ _ | .and d _ _
  | .or d _ _ | .xor d _ _ | .shl d _ _ | .shr d _ _ | .sar d _ _ | .mulhi d _ _ | .clamp d _ _ | .sel d _ _
  | .copysign d _ _ | .bfe d _ _ | .bfi d _ _ | .dot2 d _ _ | .swaph d _ _ | .perm d _ _ | .lanes d _ _ | .ldexp d _ _ => some d
  | .abs d _ | .neg d _ | .mov d _ | .not d _ | .floor d _ | .ceil d _ | .rnde d _ | .trunc d _ | .fract d _ | .popc d _
  | .clz d _ => some d
  | .cvt d _ _ _ | .cvtf d _ _ _ _ | .pack d _ _ | .unpkl d _ | .unpkh d _ | .rcp d _ | .rsq d _ | .sqrt d _ | .exp2 d _
  | .log2 d _ | .sinpi d _ | .cospi d _ | .rred d _ | .tanh d _ | .div d _ _ => some d
  | .shfl d _ _ | .shflx d _ _ | .shflu d _ _ | .shfld d _ _ | .scan d _ _ | .mcount d _ _ => some d
  | _ => none

/-- The lane addresses and data of an instruction of class b in the signatures of a group under SHADOW (R98, R288). -/
def Ctx.signedLanes (c : Ctx) (ad : Nat → W64) (data : Nat → List Byte) (s : State) : State :=
  if c.shadowed then c.mod s fun g => g.signLanes c.em ad data else s

/-- The engine of channel `ch`, as `e`, is at a word of command `c`, and the step runs it (R341). -/
structure State.PvAt (s : State) (ch : Nat) (e : PvEngine) (c : PvCmd) : Prop where
  cur : s.curEng = some ch
  engine : s.engine ch = e
  cmd : e.cur.bind (fun i => s.pvCmd? i) = some c
  running : e.st = .running

/-- The engine goes on to its next word (R341). -/
def State.pvOn (s : State) (ch : Nat) : State := (s.modEngine ch fun e => { e with idx := e.idx + 1, outs := [] }).pvFetch ch

/-- Every byte of the module's memory and of every stash reads in `t` as in `s`. -/
def State.SameBytes (s t : State) : Prop :=
  (∀ a, memByte t.mem a = memByte s.mem a) ∧
  (∀ sid a, ((t.team? sid).map fun u => memByte u.stash a) = (s.team? sid).map fun u => memByte u.stash a)

/-- Memory, every stash and the map of sidecars are in canonical form (log entry 2). -/
def State.MemOk (s : State) : Prop :=
  Memory.wf s.mem = true ∧ mapWfFrom {} none s.side = true ∧ ∀ t ∈ s.teams, Memory.wf t.stash = true

end Sys2Proof.Machine

namespace Sys2Proof

/-- A step that neither faults nor refuses. -/
def SafeStep (s : Machine.State) : Prop := ∃ t, Machine.step s = .next t

end Sys2Proof
end

