-- ==== Sys2Proof/Certificates/Slice0/Obligations.lean ====
section
/-! DEFINITION. The statements for the provers. A statement about one instruction takes the instruction at its issue: it is
the issuing group's next instruction and passes the checks that R60 puts before its own (`Issuing`). Where it completes, the
conclusion is the state that `exec` answers: `c.past t` is `t` with the issuing group moved past its instruction, `c.scal`
writes a scalar and `c.vect` the lanes of EM of a vector destination before that. -/

open Sys2Proof Sys2Proof.Machine

/-! ### Scalar instructions (R131 to R134) -/

/-- R132 and R133: what each T-format scalar instruction writes to S[d], field extraction and insertion bit by bit, and the word
{opcode, D, A, B} of each. -/
def Obligations.ScalarResults : Prop := ∀ (s : State) (c : Ctx) (d a b : BitVec 8),
  (Issuing (.sadd d a b) c s → exec (.sadd d a b) s = .next (c.scal s d (c.s a + c.s b))) ∧
  (Issuing (.ssub d a b) c s → exec (.ssub d a b) s = .next (c.scal s d (c.s a - c.s b))) ∧
  (Issuing (.smul d a b) c s → exec (.smul d a b) s = .next (c.scal s d (c.s a * c.s b))) ∧
  (Issuing (.smulh d a b) c s → exec (.smulh d a b) s = .next (c.scal s d
    ((((c.s a).signExtend 128 * (c.s b).signExtend 128) >>> 64).setWidth 64))) ∧
  (Issuing (.smulhu d a b) c s → exec (.smulhu d a b) s = .next (c.scal s d
    ((((c.s a).setWidth 128 * (c.s b).setWidth 128) >>> 64).setWidth 64))) ∧
  (Issuing (.sdivu d a b) c s → exec (.sdivu d a b) s = .next (c.scal s d
    (if c.s b = 0 then 0xFFFFFFFFFFFFFFFF else BitVec.ofNat 64 ((c.s a).toNat / (c.s b).toNat)))) ∧
  (Issuing (.sremu d a b) c s → exec (.sremu d a b) s = .next (c.scal s d
    (if c.s b = 0 then c.s a else c.s a - c.s b * BitVec.ofNat 64 ((c.s a).toNat / (c.s b).toNat)))) ∧
  (Issuing (.sand d a b) c s → exec (.sand d a b) s = .next (c.scal s d (c.s a &&& c.s b))) ∧
  (Issuing (.sor d a b) c s → exec (.sor d a b) s = .next (c.scal s d (c.s a ||| c.s b))) ∧
  (Issuing (.sxor d a b) c s → exec (.sxor d a b) s = .next (c.scal s d (c.s a ^^^ c.s b))) ∧
  (Issuing (.sandn d a b) c s → exec (.sandn d a b) s = .next (c.scal s d (c.s a &&& ~~~ c.s b))) ∧
  (Issuing (.sshl d a b) c s → exec (.sshl d a b) s = .next (c.scal s d (c.s a <<< ((c.s b).extractLsb' 0 6).toNat))) ∧
  (Issuing (.sshr d a b) c s → exec (.sshr d a b) s = .next (c.scal s d (c.s a >>> ((c.s b).extractLsb' 0 6).toNat))) ∧
  (Issuing (.ssar d a b) c s → exec (.ssar d a b) s = .next (c.scal s d ((c.s a).sshiftRight ((c.s b).extractLsb' 0 6).toNat))) ∧
  (Issuing (.smin d a b) c s → exec (.smin d a b) s = .next (c.scal s d (if (c.s a).toInt ≤ (c.s b).toInt then c.s a else c.s b))) ∧
  (Issuing (.smax d a b) c s → exec (.smax d a b) s = .next (c.scal s d (if (c.s a).toInt ≤ (c.s b).toInt then c.s b else c.s a))) ∧
  (Issuing (.sminu d a b) c s → exec (.sminu d a b) s = .next (c.scal s d (if (c.s a).toNat ≤ (c.s b).toNat then c.s a else c.s b))) ∧
  (Issuing (.smaxu d a b) c s → exec (.smaxu d a b) s = .next (c.scal s d (if (c.s a).toNat ≤ (c.s b).toNat then c.s b else c.s a))) ∧
  (Issuing (.seq d a b) c s → exec (.seq d a b) s = .next (c.scal s d (if c.s a = c.s b then 1 else 0))) ∧
  (Issuing (.slt d a b) c s → exec (.slt d a b) s = .next (c.scal s d (if (c.s a).toInt < (c.s b).toInt then 1 else 0))) ∧
  (Issuing (.sltu d a b) c s → exec (.sltu d a b) s = .next (c.scal s d (if (c.s a).toNat < (c.s b).toNat then 1 else 0))) ∧
  (Issuing (.ssel d a b) c s → exec (.ssel d a b) s = .next (c.scal s d
    ((c.s a &&& c.grp.sreg 29) ||| (c.s b &&& ~~~ c.grp.sreg 29)))) ∧
  (Issuing (.sbfe d a b) c s → ∃ v : W64, exec (.sbfe d a b) s = .next (c.scal s d v) ∧
    ∀ k < 64, v.getLsbD k = (decide (k + (c.s b).toNat % 64 < 64) && decide (k < (c.s b).toNat / 2 ^ 8 % 2 ^ 7) &&
      (c.s a).getLsbD (k + (c.s b).toNat % 64))) ∧
  (Issuing (.sbfi d a b) c s → ∃ v : W64, exec (.sbfi d a b) s = .next (c.scal s d v) ∧
    ∀ k < 64, v.getLsbD k = if (c.s b).toNat % 64 ≤ k ∧ k < (c.s b).toNat % 64 + (c.s b).toNat / 2 ^ 8 % 2 ^ 7
      then (c.s a).getLsbD (k - (c.s b).toNat % 64) else (c.s d).getLsbD k) ∧
  (∀ p ∈ ([(0x20, .sadd d a b), (0x21, .ssub d a b), (0x22, .smul d a b), (0x23, .smulh d a b), (0x24, .smulhu d a b), (0x25, .sdivu d a b), (0x26, .sremu d a b), (0x27, .sand d a b), (0x28, .sor d a b), (0x29, .sxor d a b), (0x2A, .sandn d a b), (0x2B, .sshl d a b), (0x2C, .sshr d a b), (0x2D, .ssar d a b), (0x2E, .smin d a b), (0x2F, .smax d a b), (0x30, .sminu d a b), (0x31, .smaxu d a b), (0x32, .seq d a b), (0x33, .slt d a b), (0x34, .sltu d a b), (0x35, .ssel d a b), (0x36, .sbfe d a b), (0x37, .sbfi d a b)] : List (BitVec 8 × Instr)),
    encode p.2 = some (p.1 ++ d ++ a ++ b))

/-- R134: what the scalar counts, moves and immediates write to S[d], their words, and that a nonzero B in the X forms traps ILLOP. -/
def Obligations.ScalarCountsAndMoves : Prop := ∀ (s : State) (c : Ctx) (d a b : BitVec 8) (i : BitVec 16),
  (Issuing (.spopc d a) c s → exec (.spopc d a) s = .next (c.scal s d (BitVec.ofNat 64 (((List.range 64).filter (c.s a).getLsbD).length)))) ∧
  (Issuing (.sclz d a) c s → exec (.sclz d a) s = .next (c.scal s d (BitVec.ofNat 64 (if c.s a = 0 then 64 else 63 - (c.s a).toNat.log2)))) ∧
  (Issuing (.sctz d a) c s → ∃ n : Nat, exec (.sctz d a) s = .next (c.scal s d (BitVec.ofNat 64 n)) ∧
    n ≤ 64 ∧ (n < 64 → (c.s a).getLsbD n = true) ∧ ∀ k < n, (c.s a).getLsbD k = false) ∧
  (Issuing (.smov d a) c s → exec (.smov d a) s = .next (c.scal s d (c.s a))) ∧
  (Issuing (.smovi d i) c s → exec (.smovi d i) s = .next (c.scal s d (i.signExtend 64))) ∧
  (Issuing (.smovh d i) c s → exec (.smovh d i) s = .next (c.scal s d ((c.s d <<< 16) ||| i.setWidth 64))) ∧
  (∀ p ∈ ([(0x38, .spopc d a), (0x39, .sclz d a), (0x3A, .sctz d a), (0x3B, .smov d a)] : List (BitVec 8 × Instr)), encode p.2 = some (p.1 ++ d ++ a ++ 0x00#8) ∧
    (b ≠ 0 → ∃ e, decode (p.1 ++ d ++ a ++ b) = .error e ∧ undecodedTrap c (p.1 ++ d ++ a ++ b) e = ILLOP)) ∧
  encode (.smovi d i) = some (0x3C#8 ++ d ++ i) ∧ encode (.smovh d i) = some (0x3D#8 ++ d ++ i)

/-! ### Vector instructions (R130, R135 to R146) -/

/-- R136 and R137: what each lane of EM of the destination receives, element by element in the element type of GMODE, and
the tag of R116. -/
def Obligations.VectorArithmetic : Prop := ∀ (s : State) (c : Ctx) (d a b : BitVec 8) (m : BitVec 16) (x y z : VReg),
  m = c.grp.gmode → x = c.v a → y = c.v b → z = c.v d →
  (Issuing (.add d a b) c s → exec (.add d a b) s = .next (c.vect s d (sumTag m x y) fun i =>
    lane2 (etype m) (fun p q => arith .add m p q 0) (x.l.lane i) (y.l.lane i))) ∧
  (Issuing (.sub d a b) c s → exec (.sub d a b) s = .next (c.vect s d (sumTag m x y) fun i =>
    lane2 (etype m) (fun p q => arith .sub m p q 0) (x.l.lane i) (y.l.lane i))) ∧
  (Issuing (.mul d a b) c s → exec (.mul d a b) s = .next (c.vect s d (mulTag m x y) fun i =>
    lane2 (etype m) (fun p q => arith .mul m p q 0) (x.l.lane i) (y.l.lane i))) ∧
  (Issuing (.fma d a b) c s → exec (.fma d a b) s = .next (c.vect s d (uniTag [x, y, z]) fun i =>
    lane3 (etype m) (arith .fma m) (x.l.lane i) (y.l.lane i) (z.l.lane i))) ∧
  (Issuing (.fms d a b) c s → exec (.fms d a b) s = .next (c.vect s d (uniTag [x, y, z]) fun i =>
    lane3 (etype m) (arith .fms m) (x.l.lane i) (y.l.lane i) (z.l.lane i))) ∧
  (Issuing (.fnma d a b) c s → exec (.fnma d a b) s = .next (c.vect s d (uniTag [x, y, z]) fun i =>
    lane3 (etype m) (arith .fnma m) (x.l.lane i) (y.l.lane i) (z.l.lane i))) ∧
  (Issuing (.min d a b) c s → exec (.min d a b) s = .next (c.vect s d (uniTag [x, y]) fun i =>
    lane2 (etype m) (minMax false m) (x.l.lane i) (y.l.lane i))) ∧
  (Issuing (.max d a b) c s → exec (.max d a b) s = .next (c.vect s d (uniTag [x, y]) fun i =>
    lane2 (etype m) (minMax true m) (x.l.lane i) (y.l.lane i))) ∧
  (Issuing (.clamp d a b) c s → exec (.clamp d a b) s = .next (c.vect s d (uniTag [x, y, z]) fun i =>
    lane3 (etype m) (fun p q r => minMax false m (minMax true m r p) q) (x.l.lane i) (y.l.lane i) (z.l.lane i))) ∧
  (Issuing (.abs d a) c s → exec (.abs d a) s = .next (c.vect s d (uniTag [x]) fun i => lane1 (etype m) (absE m) (x.l.lane i))) ∧
  (Issuing (.neg d a) c s → exec (.neg d a) s = .next (c.vect s d (uniTag [x]) fun i => lane1 (etype m) (negE m) (x.l.lane i))) ∧
  (isInt (etype m) = true → Issuing (.mulhi d a b) c s → exec (.mulhi d a b) s = .next (c.vect s d (uniTag [x, y]) fun i =>
    lane2 (etype m) (fun p q => wrapInt (elemBits (etype m)) (intVal (isSigned (etype m)) (elemBits (etype m)) p *
      intVal (isSigned (etype m)) (elemBits (etype m)) q / 2 ^ elemBits (etype m))) (x.l.lane i) (y.l.lane i)))

/-- R138, R139, R142, R143 and R145: moves, bitwise instructions, shifts under the integer types, selects, counts, fields and byte
moves. R140: a compare writes to S[d] the mask of the lanes of EM whose elements stand in the relation, 0 where EM is zero. -/
def Obligations.VectorBits : Prop :=
  (∀ (s : State) (c : Ctx) (d a b f : BitVec 8) (m : BitVec 16) (n : Nat) (x y z : VReg),
    m = c.grp.gmode → n = elemBits (etype m) → x = c.v a → y = c.v b → z = c.v d →
    (Issuing (.mov d a) c s → exec (.mov d a) s = .next (c.vect s d (movTag m x) fun i => x.l.lane i)) ∧
    (Issuing (.and d a b) c s → exec (.and d a b) s = .next (c.vect s d (uniTag [x, y]) fun i => x.l.lane i &&& y.l.lane i)) ∧
    (Issuing (.or d a b) c s → exec (.or d a b) s = .next (c.vect s d (uniTag [x, y]) fun i => x.l.lane i ||| y.l.lane i)) ∧
    (Issuing (.xor d a b) c s → exec (.xor d a b) s = .next (c.vect s d (uniTag [x, y]) fun i => x.l.lane i ^^^ y.l.lane i)) ∧
    (Issuing (.not d a) c s → exec (.not d a) s = .next (c.vect s d (uniTag [x]) fun i => ~~~ x.l.lane i)) ∧
    (isInt (etype m) = true → Issuing (.shl d a b) c s → exec (.shl d a b) s = .next (c.vect s d (uniTag [x, y]) fun i =>
      lane2 (etype m) (fun p q => p * 2 ^ (q % n) % 2 ^ n) (x.l.lane i) (y.l.lane i))) ∧
    (isInt (etype m) = true → Issuing (.shr d a b) c s → exec (.shr d a b) s = .next (c.vect s d (uniTag [x, y]) fun i =>
      lane2 (etype m) (fun p q => p / 2 ^ (q % n)) (x.l.lane i) (y.l.lane i))) ∧
    (isInt (etype m) = true → Issuing (.sar d a b) c s → exec (.sar d a b) s = .next (c.vect s d (uniTag [x, y]) fun i =>
      lane2 (etype m) (fun p q => wrapInt n (intVal true n p / 2 ^ (q % n))) (x.l.lane i) (y.l.lane i))) ∧
    (Issuing (.sel d a b) c s → exec (.sel d a b) s = .next (c.vect s d
      (if (c.grp.sreg 29).setWidth 32 &&& c.em = 0 ∨ (c.grp.sreg 29).setWidth 32 &&& c.em = c.em then uniTag [x, y] else .g)
      fun i => if ((c.grp.sreg 29).setWidth 32).getLsbD i then x.l.lane i else y.l.lane i)) ∧
    (Issuing (.popc d a) c s → exec (.popc d a) s = .next (c.vect s d (uniTag [x]) fun i =>
      lane1 (etype m) (fun p => popc p n) (x.l.lane i))) ∧
    (Issuing (.clz d a) c s → exec (.clz d a) s = .next (c.vect s d (uniTag [x]) fun i =>
      lane1 (etype m) (fun p => if p = 0 then n else n - 1 - p.log2) (x.l.lane i))) ∧
    (etype m ≤ 1 → Issuing (.bfe d a b) c s → exec (.bfe d a b) s = .next (c.vect s d (uniTag [x, y]) fun i =>
      bfeLane (isSigned (etype m)) (x.l.lane i) (y.l.lane i))) ∧
    (etype m ≤ 1 → Issuing (.bfi d a b) c s → exec (.bfi d a b) s = .next (c.vect s d (uniTag [x, y, z]) fun i =>
      bfiLane (x.l.lane i) (y.l.lane i) (z.l.lane i))) ∧
    (Issuing (.swaph d a f) c s → exec (.swaph d a f) s = .next (c.vect s d (uniTag [x]) fun i => swapLane f.toNat (x.l.lane i))) ∧
    (Issuing (.perm d a b) c s → exec (.perm d a b) s = .next (c.vect s d (uniTag [x, y, z]) fun i =>
      permLane (x.l.lane i) (y.l.lane i) (z.l.lane i))) ∧
    (etype m ≤ 1 → Issuing (.lanes d a b) c s → exec (.lanes d a b) s = .next (c.vect s d (lanesTag x y) fun i =>
      x.l.lane i + BitVec.ofNat 32 i * y.l.lane i))) ∧
  (∀ (s : State) (c : Ctx) (d a b : BitVec 8) (m : BitVec 16) (x y : VReg)
      (n : Nat), m = c.grp.gmode → x = c.v a → y = c.v b → n = elemCount (etype m) →
    (Issuing (.cmpeq d a b) c s → exec (.cmpeq d a b) s = .next (c.scal s d ((maskOf fun i => c.em.getLsbD i &&
      (List.range n).all fun j => Rel.eq.holds m (elem (etype m) (x.l.lane i) j) (elem (etype m) (y.l.lane i) j)).setWidth 64))) ∧
    (Issuing (.cmpne d a b) c s → exec (.cmpne d a b) s = .next (c.scal s d ((maskOf fun i => c.em.getLsbD i &&
      !(List.range n).all fun j => Rel.eq.holds m (elem (etype m) (x.l.lane i) j) (elem (etype m) (y.l.lane i) j)).setWidth 64))) ∧
    (Issuing (.cmplt d a b) c s → exec (.cmplt d a b) s = .next (c.scal s d ((maskOf fun i => c.em.getLsbD i &&
      (List.range n).all fun j => Rel.lt.holds m (elem (etype m) (x.l.lane i) j) (elem (etype m) (y.l.lane i) j)).setWidth 64))) ∧
    (Issuing (.cmple d a b) c s → exec (.cmple d a b) s = .next (c.scal s d ((maskOf fun i => c.em.getLsbD i &&
      (List.range n).all fun j => Rel.le.holds m (elem (etype m) (x.l.lane i) j) (elem (etype m) (y.l.lane i) j)).setWidth 64))) ∧
    (Issuing (.cmpun d a b) c s → exec (.cmpun d a b) s = .next (c.scal s d ((maskOf fun i => c.em.getLsbD i &&
      (List.range n).any fun j => Rel.un.holds m (elem (etype m) (x.l.lane i) j) (elem (etype m) (y.l.lane i) j)).setWidth 64))))

/-- R141, R142, R144, R146 and R150 to R154: the float instructions under the types that they accept. What `exp2`, `log2`,
`sinpi`, `cospi` and `tanh` deliver within the bound of R152 is the model's free choice (log entry 7). -/
def Obligations.FloatInstructions : Prop := ∀ (s : State) (c : Ctx) (d a b : BitVec 8) (m : BitVec 16) (f : Fmt) (x y z : VReg),
  m = c.grp.gmode → f = fmtOf (etype m) → x = c.v a → y = c.v b → z = c.v d →
  (isFlt (etype m) = true →
    (Issuing (.floor d a) c s → exec (.floor d a) s = .next (c.vect s d (uniTag [x]) fun i => lane1 (etype m) (integralE 3 m) (x.l.lane i))) ∧
    (Issuing (.ceil d a) c s → exec (.ceil d a) s = .next (c.vect s d (uniTag [x]) fun i => lane1 (etype m) (integralE 2 m) (x.l.lane i))) ∧
    (Issuing (.rnde d a) c s → exec (.rnde d a) s = .next (c.vect s d (uniTag [x]) fun i => lane1 (etype m) (integralE 0 m) (x.l.lane i))) ∧
    (Issuing (.trunc d a) c s → exec (.trunc d a) s = .next (c.vect s d (uniTag [x]) fun i => lane1 (etype m) (integralE 1 m) (x.l.lane i))) ∧
    (Issuing (.fract d a) c s → exec (.fract d a) s = .next (c.vect s d (uniTag [x]) fun i => lane1 (etype m) (fractE m) (x.l.lane i))) ∧
    (Issuing (.copysign d a b) c s → exec (.copysign d a b) s = .next (c.vect s d (uniTag [x, y]) fun i =>
      lane2 (etype m) (copysignE m) (x.l.lane i) (y.l.lane i))) ∧
    (Issuing (.ldexp d a b) c s → exec (.ldexp d a b) s = .next (c.vect s d (uniTag [x, y]) fun i =>
      lane2 (etype m) (ldexpE m) (x.l.lane i) (y.l.lane i))) ∧
    (Issuing (.exp2 d a) c s → exec (.exp2 d a) s = .next (c.vect s d (uniTag [x]) fun i => lane1 (etype m) (exp2E m) (x.l.lane i))) ∧
    (Issuing (.log2 d a) c s → exec (.log2 d a) s = .next (c.vect s d (uniTag [x]) fun i => lane1 (etype m) (log2E m) (x.l.lane i))) ∧
    (Issuing (.sinpi d a) c s → exec (.sinpi d a) s = .next (c.vect s d (uniTag [x]) fun i => lane1 (etype m) (sinpiE m) (x.l.lane i))) ∧
    (Issuing (.cospi d a) c s → exec (.cospi d a) s = .next (c.vect s d (uniTag [x]) fun i => lane1 (etype m) (cospiE m) (x.l.lane i))) ∧
    (Issuing (.rred d a) c s → exec (.rred d a) s = .next (c.vect s d (uniTag [x]) fun i => lane1 (etype m) (rredE m) (x.l.lane i))) ∧
    (Issuing (.tanh d a) c s → exec (.tanh d a) s = .next (c.vect s d (uniTag [x]) fun i => lane1 (etype m) (tanhE m) (x.l.lane i))) ∧
    (rnd m = 0 →
      (Issuing (.rcp d a) c s → exec (.rcp d a) s = .next (c.vect s d (uniTag [x]) fun i => lane1 (etype m)
        (fun v => f.round 0 (satBit m) (ftzBit m) ((Flo.num false 1 0).div (f.dec (ftzBit m) v))) (x.l.lane i))) ∧
      (Issuing (.rsq d a) c s → exec (.rsq d a) s = .next (c.vect s d (uniTag [x]) fun i => lane1 (etype m)
        (fun v => f.round 0 (satBit m) (ftzBit m) (f.dec (ftzBit m) v).rsqrt) (x.l.lane i))) ∧
      (Issuing (.sqrt d a) c s → exec (.sqrt d a) s = .next (c.vect s d (uniTag [x]) fun i => lane1 (etype m)
        (fun v => f.round 0 (satBit m) (ftzBit m) (f.dec (ftzBit m) v).sqrt) (x.l.lane i))) ∧
      (Issuing (.div d a b) c s → exec (.div d a b) s = .next (c.vect s d (uniTag [x, y]) fun i => lane2 (etype m)
        (fun v w => f.round 0 (satBit m) (ftzBit m) ((f.dec (ftzBit m) v).div (f.dec (ftzBit m) w))) (x.l.lane i) (y.l.lane i))))) ∧
  (etype m = 3 ∨ etype m = 4 → Issuing (.dot2 d a b) c s → exec (.dot2 d a b) s = .next (c.vect s d (uniTag [x, y, z]) fun i =>
    BitVec.ofNat 32 (dot2E m (elem (etype m) (x.l.lane i) 0) (elem (etype m) (y.l.lane i) 0)
      (elem (etype m) (x.l.lane i) 1) (elem (etype m) (y.l.lane i) 1) (z.l.lane i).toNat)))

/-- R147 to R149: conversions, with the checks that their entries make. -/
def Obligations.Conversions : Prop := ∀ (s : State) (c : Ctx) (d a b : BitVec 8) (f g : BitVec 4) (e : BitVec 1) (k : BitVec 3)
    (m : BitVec 16) (x y z : VReg), m = c.grp.gmode → x = c.v a → y = c.v b → z = c.v d →
  (Issuing (.cvt d a f g) c s → exec (.cvt d a f g) s = .next (c.vect s d (uniTag [x]) fun i => cvtLane m f.toNat g.toNat (x.l.lane i))) ∧
  (Issuing (.cvtf d a e g k) c s → exec (.cvtf d a e g k) s = .next
    (if fsElems (recFslot c.kern.record k.toNat) ≤ g.toNat then c.traps s ILLOP 0
     else c.vect s d (uniTag (if e = 1 then [x, z] else [x])) fun i =>
       cvtfLane m (recFslot c.kern.record k.toNat) (e == 1) g.toNat (x.l.lane i) (z.l.lane i))) ∧
  (3 ≤ etype m →
    (Issuing (.pack d a b) c s → exec (.pack d a b) s = .next (c.vect s d (uniTag [x, y]) fun i => packLane m (x.l.lane i) (y.l.lane i))) ∧
    (Issuing (.unpkl d a) c s → exec (.unpkl d a) s = .next (c.vect s d (uniTag [x]) fun i => unpackLane m false (x.l.lane i))) ∧
    (Issuing (.unpkh d a) c s → exec (.unpkh d a) s = .next (c.vect s d (uniTag [x]) fun i => unpackLane m true (x.l.lane i))))

/-! ### Control flow (R56, R59, R102 to R107) -/

/-- R102: where each branch moves its slot. The target is taken when the clause ends (R93), and a branch to an address in a
register that is not a multiple of 4 traps ALIGN. R102, R107, R46, R93: the group that has passed an instruction is at the clause's next
one; after the last, its slot stands at the branch target or at the word after the last literal, unless a `join` has placed the slot
itself. -/
def Obligations.Branches : Prop :=
  (∀ (s : State) (c : Ctx) (d a n : BitVec 8) (i : BitVec 16) (o : BitVec 24) (hdr t u : VA),
    hdr = c.cl.hdr → t = (c.s a).setWidth 57 → u = (c.s a + (((c.s d).setWidth 32).setWidth 64 <<< n.toNat)).setWidth 57 →
    (Issuing (.bra o) c s → exec (.bra o) s = .next (c.past (goTo c s (hdr + 4 * o.signExtend 57)))) ∧
    (Issuing (.brz d i) c s → exec (.brz d i) s = .next (c.past (if c.s d = 0 then goTo c s (hdr + 4 * i.signExtend 57) else s))) ∧
    (Issuing (.brnz d i) c s → exec (.brnz d i) s = .next (c.past (if c.s d = 0 then s else goTo c s (hdr + 4 * i.signExtend 57)))) ∧
    (Issuing (.call d i) c s → exec (.call d i) s = .next (c.past
      (goTo c (c.mod s fun g => g.resultS d (c.cl.next.setWidth 64)) (hdr + 4 * i.signExtend 57)))) ∧
    (Issuing (.ret a) c s → exec (.ret a) s = .next (if t.extractLsb' 0 2 = 0 then c.past (goTo c s t) else c.traps s ALIGN (t.setWidth 64))) ∧
    (Issuing (.brx d a n) c s → exec (.brx d a n) s =
      .next (if u.extractLsb' 0 2 = 0 then c.past (goTo c s u) else c.traps s ALIGN (u.setWidth 64)))) ∧
  (∀ (g : Group) (c : Clause), g.clause = some c →
    (c.idx + 1 < c.words.length → g.advance.clause = some { c with idx := c.idx + 1 } ∧
      g.advance.pcA = g.pcA ∧ g.advance.pcB = g.pcB ∧ g.advance.pcH = g.pcH) ∧
    (c.words.length ≤ c.idx + 1 → g.advance.clause = none ∧ g.advance.lastSlot = c.slot ∧
      g.advance.yielded = (c.yield || headYield c.head) ∧
      (c.close = true → g.mode ≠ .recompute →
        (c.slot = .a → g.advance.pcA = { hdr := c.target.getD c.next } ∧ g.advance.pcB = g.pcB) ∧
        (c.slot = .b → g.advance.pcB = { hdr := c.target.getD c.next } ∧ g.advance.pcA = g.pcA) ∧
        (c.slot = .h → g.advance.pcH = { hdr := c.target.getD c.next } ∧ g.advance.pcA = g.pcA ∧ g.advance.pcB = g.pcB))) ∧
    g.advance.body = g.body)

/-- R103 and R104: `split` starts slot B when its live mask is not zero, and traps ILLOP while slot B is live; `join` has no
effect while slot B is not live, parks its slot while the other is on its way, and merges the slots when it is parked; in a trap
handler both trap ILLOP (R292).
R105: `dpush` writes an entry of 16 bytes at DSP, ends slot B and moves DSP up, and `dpop` moves DSP down and restarts slot B
from a valid entry; each traps where the rule says so. What PC B and the mask of an entry of VALID 0 hold is left open by the
rule, and free in the model (log entry 5). A shadow writes and reads no entry (R97); it counts the block as its leader does (R285) and takes what its leader has read (log
entry 50). A parked slot A goes on at the word after its `join` clause (log entry 48). -/
def Obligations.Divergence : Prop := ∀ (s t : State) (c : Ctx) (i : BitVec 16) (off : Nat) (p : Place), off = c.grp.dsp.toNat →
  (c.slot = .h → (Issuing (.split i) c s → exec (.split i) s = .next (c.traps s ILLOP 0)) ∧
    (Issuing .join c s → exec .join s = .next (c.traps s ILLOP 0))) ∧
  (c.slot ≠ .h → Issuing (.split i) c s → exec (.split i) s = .next
    (if c.grp.blive then c.traps s ILLOP 0
     else if (c.grp.sreg 31).setWidth 32 &&& ~~~ (c.grp.dead ||| c.grp.exited) = 0 then c.past s
     else c.past (c.mod s fun g => { g with pcB := { hdr := c.cl.hdr + i.signExtend 57 * 4 }, blive := true }))) ∧
  (c.slot ≠ .h → Issuing .join c s →
    (c.grp.blive = false → exec .join s = .next (c.past s)) ∧
    (c.grp.blive = true → (if c.slot = .b then c.grp.ajoin else c.grp.bjoin) = false →
      exec .join s = .next (c.past (c.mod s fun g => g.parkJoin c.slot c.cl.hdr c.cl.next))) ∧
    (c.grp.blive = true → (if c.slot = .b then c.grp.ajoin else c.grp.bjoin) = true →
      exec .join s = .next (c.past (c.mod s fun g => g.merge c.slot)) ∧
      ∀ h : Group, h = c.grp.merge c.slot → h.sreg 30 = c.grp.sreg 30 ||| c.grp.sreg 31 ∧ h.sreg 31 = 0 ∧ h.blive = false ∧ h.bjoin = false ∧
        (c.slot = .b → h.pcA.hdr = c.grp.pcA.next) ∧ (c.slot = .a → h.pcA = c.grp.pcA))) ∧
  (Issuing .dpush c s → p = .stash c.team.sid off (ownVa off) →
    (c.slot ≠ .a → exec .dpush s = .next (c.traps s ILLOP 0)) ∧
    (c.slot = .a → off % 16 ≠ 0 → exec .dpush s = .next (c.traps s ALIGN (ownVa off))) ∧
    (c.slot = .a → off % 16 = 0 → recStash c.kern.record < off + 16 → exec .dpush s = .next (c.traps s PROT (ownVa off))) ∧
    (c.slot = .a → off % 16 = 0 → off + 16 ≤ recStash c.kern.record → c.g.sh = true →
      (c.UnitsFit s [p] ∧ t = c.counted s [p] ∨ countUnits c s [p] = .ok t) → exec .dpush s = .next (c.past (c.mod t
        fun g => { (g.setS 31 0) with dsp := g.dsp + 16, blive := false, bjoin := false }))) ∧
    (c.slot = .a → off % 16 = 0 → off + 16 ≤ recStash c.kern.record → c.g.sh = false → s.heldBlock c.g p = none →
      (c.UnitsFit s [p] ∧ t = c.counted s [p] ∨ countUnits c s [p] = .ok t) →
      ∃ fill : List Byte, fill.length = 12 ∧ exec .dpush s = .next (c.past (c.mod
        (holdStores c (t.fillPlaces [p]) [(p,
          if c.grp.blive then leBytes c.grp.pcB.hdr.toNat 8 ++ leBytes ((c.grp.sreg 31).toNat % 2 ^ 32) 4 ++ leBytes 1 4 else fill ++ leBytes 0 4)])
        fun g => { (g.setS 31 0) with dsp := g.dsp + 16, blive := false, bjoin := false })))) ∧
  (Issuing .dpop c s → p = .stash c.team.sid (off - 16) (ownVa (off - 16)) →
    (c.slot ≠ .a ∨ c.grp.blive = true → exec .dpop s = .next (c.traps s ILLOP 0)) ∧
    (c.slot = .a → c.grp.blive = false → off % 16 ≠ 0 → exec .dpop s = .next (c.traps s ALIGN (ownVa off))) ∧
    (c.slot = .a → c.grp.blive = false → off = 0 → exec .dpop s = .next (c.traps s PROT (ownVa 0))) ∧
    (∀ (e : List Byte) (u : State), c.slot = .a → c.grp.blive = false → off % 16 = 0 → 16 ≤ off → off ≤ recStash c.kern.record →
      c.g.sh = false → s.heldBlock c.g p = none → s.Sane p → e = (s.fillPlaces [p]).loadBytes c.g c.grp c.core p 16 →
      u = (if c.shadowed then c.mod (s.fillPlaces [p]) fun g => { g with side := g.side ++ [dword e 0, dword e 8] } else s.fillPlaces [p]) →
      exec .dpop s = .next
        (if (dword e 8).getLsbD 32 then
           if (dword e 0).toNat % 4 ≠ 0 then c.traps s ALIGN (dword e 0)
           else c.past (c.mod u fun g => { ({ g with dsp := g.dsp - 16 } : Group).setS 31 (((dword e 8).setWidth 32).setWidth 64)
             with pcB := { hdr := (dword e 0).setWidth 57 }, blive := true })
         else c.past (c.mod u fun g => { g with dsp := g.dsp - 16 }))) ∧
    (∀ (ld : Group) (x y : W64) (rest : List W64), c.slot = .a → c.grp.blive = false → off % 16 = 0 → 16 ≤ off → off ≤ recStash c.kern.record →
      c.g.sh = true → s.group? c.g.leader = some ld → ld.side = x :: y :: rest → exec .dpop s = .next (c.past (c.mod
        (s.modGroup c.g.leader fun g => { g with side := g.side.drop 2 }) fun g =>
          if y.getLsbD 32 then { ({ g with dsp := g.dsp - 16 } : Group).setS 31 ((y.setWidth 32).setWidth 64) with pcB := { hdr := x.setWidth 57 }, blive := true }
          else { g with dsp := g.dsp - 16 }))))

/-- R106, R107 and R59: `exit` commits the task and then adds the lanes of EM to EXITED; `yield` asks for a swap at the end of its
clause; `mode` writes GMODE; `nop` has no effect. R222, R287 step 1: the commit before a task-ending instruction is made at once when
every operation of the task has drained, no store of it waits for a recall, and no shadow must agree; otherwise the group waits for
TASK_COMMIT. That the whole commit waits while one store of the task waits for a recall is the model's choice (log entry 36). -/
def Obligations.ExitYieldModeNop : Prop :=
  (∀ (s : State) (c : Ctx) (i : BitVec 16),
    (Issuing .exit c s → c.MayCommit s → exec .exit s = .next (c.past (c.mod (c.commit s false) fun g => { g with exited := g.exited ||| c.em }))) ∧
    (Issuing .yield c s → exec .yield s = .next (c.past (c.mod s fun g => g.modClause fun cl => { cl with yield := true }))) ∧
    (Issuing (.mode i) c s → exec (.mode i) s = .next (c.past (c.mod s fun g => { g with gmode := i }))) ∧
    (Issuing .nop c s → exec .nop s = .next (c.past s))) ∧
  (∀ (s : State) (c : Ctx) (here : Bool), s.group? c.g = some c.grp → c.grp.bnd ≠ .passed →
    (c.grp.drained = true → s.commitHeldUp c.g c.grp = false → c.shadowed = false ∨ c.grp.mode = .handler →
      boundary c s here = .ok ((s.release c.g (c.grp.boundaryEntry c.kern) { c.here with passed := !here } c.slot).modGroup c.g fun g =>
        { g with bnd := .passed, bndHere := here })) ∧
    (c.grp.drained = false ∨ s.commitHeldUp c.g c.grp = true ∨ c.shadowed = true ∧ c.grp.mode ≠ .handler → boundary c s here = .error (.wait .boundary (c.mod s fun g => { g with bnd := .waiting, bndHere := here }))))

/-! ### Votes, shuffles and reductions (R109 to R113) -/

/-- R109: the votes over the lanes of EM. -/
def Obligations.Votes : Prop := ∀ (s : State) (c : Ctx) (d a f : BitVec 8) (x : VReg), x = c.v a →
  (Issuing (.ballot d a f) c s → ∃ m : W32, exec (.ballot d a f) s = .next (c.scal s d (m.setWidth 64)) ∧ ∀ i < 32,
    (m.getLsbD i = true ↔ c.em.getLsbD i = true ∧ (if f = 0 then x.l.lane i ≠ 0 else (x.l.lane i).getLsbD 0 = true))) ∧
  (Issuing (.vall d a) c s → ∃ v : W64, exec (.vall d a) s = .next (c.scal s d v) ∧ (v = 0 ∨ v = 1) ∧
    (v = 1 ↔ ∀ i < 32, c.em.getLsbD i = true → x.l.lane i ≠ 0)) ∧
  (Issuing (.vany d a) c s → ∃ v : W64, exec (.vany d a) s = .next (c.scal s d v) ∧ (v = 0 ∨ v = 1) ∧
    (v = 1 ↔ ∃ i < 32, c.em.getLsbD i = true ∧ x.l.lane i ≠ 0))

/-- R110: the lane that each lane of a shuffle takes, 0 from a dead lane, which sets DEADSRC, and the tag of the result.
R111 for a leader: `rdlane` takes register n of the target group lane by lane, 0 from a lane that is dead there, which sets
DEADSRC, and delivers it as an operation; `wrlane` is held with the task; a target outside the team traps RANK. The instant of the
read is the model's choice (log entry 32); a leader under SHADOW passes DEADSRC to its shadow (log entry 50), and the lanes that
`wrlane` sends enter the signature (R288). -/
def Obligations.ShufflesAndLanes : Prop :=
  (∀ (s : State) (c : Ctx) (d a b n : BitVec 8) (x : VReg), x = c.v a →
    ∀ (i : Instr) (src : Nat → Nat), (i = .shfl d a b ∧ src = fun k => ((c.v b).l.lane k).toNat % 32) ∨
      (i = .shflx d a n ∧ src = fun k => k ^^^ n.toNat) ∨ (i = .shflu d a n ∧ src = fun k => if k < n.toNat then k else k - n.toNat) ∨
      (i = .shfld d a n ∧ src = fun k => if 31 < k + n.toNat then k else k + n.toNat) → Issuing i c s →
    ∃ hit : Bool, (hit = true ↔ ∃ k < 32, c.em.getLsbD k = true ∧ c.grp.dead.getLsbD (src k) = true) ∧
      exec i s = .next (c.past (c.mod s fun g =>
        let g1 := g.resultV d c.em (if x.tag = .u ∧ hit = false ∧ c.em = ~~~ c.grp.dead then .u else .g)
          (Lanes.of fun k => if c.grp.dead.getLsbD (src k) then 0 else x.l.lane (src k))
        { g1 with deadSrc := g1.deadSrc || hit }))) ∧
  (∀ (s : State) (c : Ctx) (d a n : BitVec 8) (k : Nat) (tg : Group), c.g.sh = false →
    (32 ≤ (c.s a).toNat ∨ c.team.groups.length ≤ (c.s a).toNat →
      (Issuing (.rdlane d a n) c s → exec (.rdlane d a n) s = .next (c.traps s RANK (c.s a))) ∧
      (Issuing (.wrlane d a n) c s → exec (.wrlane d a n) s = .next (c.traps s RANK (c.s a)))) ∧
    ((c.s a).toNat = k → k < 32 → c.team.groups[k]? = some tg →
      (Issuing (.rdlane d a n) c s → c.RoomA s → exec (.rdlane d a n) s = .next (c.past (c.mod (passSide c
        (if c.em = 0 then c.noneA s
         else c.opA s [.vec d c.em (Lanes.of fun j => if tg.dead.getLsbD j then 0 else (tg.v[n.toNat]?.getD {}).l.lane j) .g] .ready false)
        [if tg.dead &&& c.em = 0 then 0 else 1])
        fun g => { g with deadSrc := g.deadSrc || (tg.dead &&& c.em != 0) }))) ∧
      (Issuing (.wrlane d a n) c s → c.RoomB s → exec (.wrlane d a n) s = .next (c.past (signData c (sign c
        (if c.em = 0 then s else c.held s fun op => .wrlane k n.toNat c.em (c.v d).l op) [c.s a]) c.em (c.v d))))))

/-- R112 and R113: reductions and scans combine the lanes of EM in ascending order; `mcount` counts the bits of a mask below or
above each lane. R44: the running values of a reduction: the lowest lane of EM is read as every lane is, each later one is combined
with the value so far, and the last value of an inclusive sum scan is the result of `lsum`. -/
def Obligations.ReductionsAndScans : Prop :=
  (∀ (s : State) (c : Ctx) (d a f : BitVec 8) (m : BitVec 16) (x : VReg),
    m = c.grp.gmode → x = c.v a →
    (∀ (k : Nat) (i : Instr), (k = 0 ∧ i = .lsum d a) ∨ (k = 1 ∧ i = .lmax d a) ∨ (k = 2 ∧ i = .lmin d a) → Issuing i c s →
      ∃ v : W32, (v = ((running k m x.l.lane (lanesOf c.em) none).getLast?.map (·.2)).getD (emptyRed k m)) ∧
        exec i s = .next (if 0xD0 ≤ d.toNat ∧ d.toNat < 0xF0 then c.scal s d (v.setWidth 64)
          else c.vect s d (if c.em = ~~~ c.grp.dead then .u else .g) fun _ => v)) ∧
    (Issuing (.scan d a f) c s → exec (.scan d a f) s = .next (c.vect s d .g fun i =>
      match (scanVals f.toNat m x.l.lane (lanesOf c.em)).find? fun p => p.1 == i with | some p => p.2 | none => 0)) ∧
    (Issuing (.mcount d a f) c s → exec (.mcount d a f) s = .next (c.vect s d .g fun i => BitVec.ofNat 32
      (((List.range 32).filter fun k => (c.s a).getLsbD k && (if f = 0 then decide (k < i) else decide (i < k))).length)))) ∧
  (∀ (k : Nat) (m : BitVec 16) (f : Nat → W32) (i j : Nat) (is : List Nat),
    running k m f [i] none = [(i, readLane m (f i))] ∧
    ((running k m f (is ++ [i, j]) none).getLast?.map (·.2) =
      ((running k m f (is ++ [i]) none).getLast?.map (·.2)).map fun v => combine k m v (f j)) ∧
    (scanVals 0 m f is).getLast?.map (·.2) = (running 0 m f is none).getLast?.map (·.2))

/-! ### Frames of the instructions of class f -/

/-- R57, R131: what an instruction that writes one scalar leaves alone: unless it traps, it changes its own group only, and there
the scalar that D names, and the PC, clause and batches of the slot that moves on; no byte of memory or of a stash changes. Of `sread`
of GSTAT, DEADLANES and RP under SHADOW, which also passes the value from leader to shadow (log entry 50), `SystemRegisters` states
the whole result.
R102, R107: what the branches, `yield`, `mode` and `nop` leave alone: every register and every byte; `call` writes its scalar
and `mode` GMODE. -/
def Obligations.ScalarFrame : Prop :=
  (∀ (s t : State) (c : Ctx) (i : Instr) (d : BitVec 8),
    scalarDst i = some d → (c.shadowed = true ∨ c.g.sh = true → ∀ d n, i = .sread d n → n ≠ 0 ∧ n ≠ 1 ∧ n ≠ 3) → Issuing i c s → exec i s = .next t →
    (∃ code, t = c.traps s code 0) ∨
    ∃ f : Group → Group, t = s.modGroup c.g f ∧ s.SameBytes t ∧
      ∀ g : Group, (∀ n < 32, d.toNat ≠ 0xD0 + n → (f g).sreg n = g.sreg n) ∧ { (f g).body with s := g.s, sbad := g.sbad } = g.body) ∧
  (∀ (s t : State) (c : Ctx) (i : Instr),
    (∃ (d a n : BitVec 8) (k : BitVec 16) (o : BitVec 24), i = .bra o ∨ i = .brz d k ∨ i = .brnz d k ∨ i = .call d k ∨ i = .ret a ∨
      i = .brx d a n ∨ i = .yield ∨ i = .mode k ∨ i = .nop) → Issuing i c s → exec i s = .next t →
    (∃ code addr, t = c.traps s code addr) ∨
    ∃ f : Group → Group, t = s.modGroup c.g f ∧ s.SameBytes t ∧
      ∀ g : Group, (f g).v = g.v ∧ (f g).o = g.o ∧ (f g).t = g.t ∧ (f g).exited = g.exited ∧ (f g).dsp = g.dsp ∧
        ((∀ k, i ≠ .mode k) → (f g).gmode = g.gmode) ∧ (∀ k, i = .mode k → (f g).gmode = k) ∧
        (∀ n < 32, (∀ d k, i = .call d k → d.toNat ≠ 0xD0 + n) → (f g).sreg n = g.sreg n))

/-- R117, R119, R130: what an instruction that writes one vector register leaves alone: unless it traps, it changes its own group
only, and there the register that D names, the latch, DEADSRC (shuffles), and the PC, clause and batches of the slot that moves
on; lanes outside EM of the destination keep their values when the write is not full; no byte of memory or of a stash changes. -/
def Obligations.VectorFrame : Prop := ∀ (s t : State) (c : Ctx) (i : Instr) (d : BitVec 8),
  vectorDst i = some d → Issuing i c s → exec i s = .next t →
  (∃ code, t = c.traps s code 0) ∨
  ∃ f : Group → Group, t = s.modGroup c.g f ∧ s.SameBytes t ∧
    ∀ g : Group, (∀ code, code ≠ d → (f g).vreg code = g.vreg code) ∧ (f g).v.length = g.v.length ∧
      (c.em ≠ g.aliveLanes → ∀ k < 32, c.em.getLsbD k = false → ((f g).vreg d).l.lane k = (g.vreg d).l.lane k) ∧
      { (f g).body with v := g.v, o := g.o, latch := g.latch, deadSrc := g.deadSrc } = g.body

/-! ### Checks and traps (R60, R62, R82, R289 to R296) -/

/-- R60: an instruction that fails a check of orders 3 to 5 traps, whatever its own entry would do: PRIV in a kernel launched
without SUPER, ILLOP for a reserved field, ILLOPERAND for an operand code. R62: each privileged instruction in a kernel launched
without SUPER traps PRIV, whatever its fields hold. R361: where an instruction passes these checks and its scalar unit reads poison,
the team ends with UNCORR. R135 and R150: an instruction issued under an element type outside its set, or a correctly rounded function
under a rounding mode other than RNE, traps ILLOP with no effect of its own. -/
def Obligations.FailedChecksTrap : Prop :=
  (∀ (s : State) (c : Ctx) (i : Instr) (w : W32) (code : Nat),
    (encode i = some w → s.ctx = some c → precheck c i = some code → exec i s = .next (c.traps s code 0)) ∧
    (encode i = some w → s.ctx = some c → precheck c i = none → c.grp.readsBad c.slot i = true →
      exec i s = .next (s.terminate c.g 19 12 (c.pc.setWidth 64))) ∧
    (s.ctx = some c → recSuper c.kern.record = false →
      (∃ d a b f, i = .aresolve a b ∨ i = .bzreq d a ∨ i = .keygenGenerate d a ∨ i = .keygenDestroy d a ∨ i = .keyseal d a b ∨
        i = .attest d a b ∨ i = .locketw d a b ∨ i = .caprd d a f ∨ i = .tlbinv a f ∨ i = .fltret a) →
      exec i s = .next (c.traps s PRIV 0))) ∧
  (∀ (s : State) (c : Ctx) (i : Instr), Issuing i c s →
    (isFlt (etype c.grp.gmode) = true → (∃ d a b, i = .shl d a b ∨ i = .shr d a b ∨ i = .sar d a b ∨ i = .mulhi d a b) →
      exec i s = .next (c.traps s ILLOP 0)) ∧
    (isFlt (etype c.grp.gmode) = false → (∃ d a b, i = .floor d a ∨ i = .ceil d a ∨ i = .rnde d a ∨ i = .trunc d a ∨ i = .fract d a ∨
        i = .copysign d a b ∨ i = .ldexp d a b ∨ i = .rcp d a ∨ i = .rsq d a ∨ i = .sqrt d a ∨ i = .exp2 d a ∨ i = .log2 d a ∨
        i = .sinpi d a ∨ i = .cospi d a ∨ i = .rred d a ∨ i = .tanh d a ∨ i = .div d a b) → exec i s = .next (c.traps s ILLOP 0)) ∧
    (rnd c.grp.gmode ≠ 0 → (∃ d a b, i = .rcp d a ∨ i = .rsq d a ∨ i = .sqrt d a ∨ i = .div d a b) →
      exec i s = .next (c.traps s ILLOP 0)) ∧
    (2 ≤ etype c.grp.gmode → (∃ d a b, i = .bfe d a b ∨ i = .bfi d a b ∨ i = .lanes d a b) → exec i s = .next (c.traps s ILLOP 0)) ∧
    (etype c.grp.gmode ≠ 3 → etype c.grp.gmode ≠ 4 → (∃ d a b, i = .dot2 d a b) → exec i s = .next (c.traps s ILLOP 0)) ∧
    (etype c.grp.gmode < 3 → (∃ d a b, i = .pack d a b ∨ i = .unpkl d a ∨ i = .unpkh d a) → exec i s = .next (c.traps s ILLOP 0)))
/-! ### Clauses, groups and operations (R46 to R53, R88, R92, R93, R99) -/

/-- R50, R102, R107: a decoded clause starts once the flags of WAIT are clear, and is passed over when the effective mask of its slot
is zero; while a flag of WAIT is set, or a ready PENDING group waits for a group that has yielded, it does not start. R46, R49, R283:
the clause at the PC of the slot that R93 picks is fetched whole, header, instructions and literals; a broken one traps ILLCLAUSE at its
header; a slot that goes back to a resume point starts there. -/
def Obligations.ClauseStarts : Prop :=
  (∀ (s : State) (r : GRef) (t : Team) (g : Group) (c : Clause),
    s.input = some (.clauseStart r) → s.team? r.team = some t → s.group? r = some g → g.clause = some c → c.started = false →
    g.free = true → s.shadowParked r = false → t.ended = false → t.ctx = .running →
    (g.waitMet c.head = false ∨ g.yielded = true ∧ s.othersReady r = true →
      exec .clauseStart s = .refused (.notEnabled "CLAUSE_START")) ∧
    (g.waitMet c.head = true → (g.yielded = true → s.othersReady r = false) →
      (g.em c.slot ≠ 0 → exec .clauseStart s = .next (s.modGroup r fun g =>
        { g with clause := some { c with started := true }, yielded := false })) ∧
      (g.em c.slot = 0 → exec .clauseStart s = .next (s.modGroup r fun g =>
        { (g.setPc (if g.mode = .recompute then .h else c.slot) { hdr := c.next }) with
            clause := none, lastSlot := c.slot, yielded := headYield c.head })))) ∧
  (∀ (s u : State) (r : GRef) (t : Team) (g g1 : Group) (b : Bezel) (k : Kernel) (sl : Slot) (pc : Pc)
      (h : W32),
    s.input = some (.clauseFetch r) → s.team? r.team = some t → s.group? r = some g → s.bezel? t.bezel = some b →
    s.kernel? t.bezel t.kslot = some k → g.free = true → g.clause = none → g.alive = true → s.shadowParked r = false →
    t.ended = false → t.ctx = .running → u = s.settleSlots r t k b → u.group? r = some g1 → g1.alive = true →
    u.pickSlot g1 t k b = some sl → pc = g1.pcOf sl → u.fetchWord t k b pc.hdr = .ok h →
    (4 < headLits h ∨ h.toNat % 16 ≠ 0 → exec .clauseFetch s = .next (u.clauseTrap r g1 sl pc.hdr ILLCLAUSE 0)) ∧
    (∀ ws : List W32, headLits h ≤ 4 → h.toNat % 16 = 0 →
      u.fetchMany t k b (pc.hdr + 4) (headCount h + headLits h) = .ok ws →
      (badClause h (ws.take (headCount h)) = true → exec .clauseFetch s = .next (u.clauseTrap r g1 sl pc.hdr ILLCLAUSE 0)) ∧
      (badClause h (ws.take (headCount h)) = false → ∃ c : Clause, c.hdr = pc.hdr ∧ c.head = h ∧ c.slot = sl ∧
        c.words = ws.take (headCount h) ∧ c.lits = ws.drop (headCount h) ∧ c.idx = 0 ∧ c.started = false ∧ c.target = none ∧
        (pc.resume = false → exec .clauseFetch s =
          .next (((u.touch b t.core [pc.hdr.setWidth 64]).fillCode t k b pc.hdr (1 + ws.length)).modGroup r fun g => { g with clause := some c })) ∧
        (pc.resume = true → pc.idx < c.words.length → (pc.idx = 0 → g1.em sl ≠ 0) → exec .clauseFetch s =
          .next (((u.touch b t.core [pc.hdr.setWidth 64]).fillCode t k b pc.hdr (1 + ws.length)).modGroup r fun g => g.setClause c pc) ∧
          (g1.setClause c pc).clause = some { c with idx := pc.idx, started := true, issuedM := g1.cutM, issuedC := g1.cutC }))))

/-- R88, R99, R82: the group that has been ready longest enters an active set that has room, or takes the place of one that is not
ready or that yields between clauses; a group with no live slot, nothing outstanding and its task committed exits, the stores it has
observed at their homes (R228), and its team ends with the last. R51 to R53: an operation that returns whole writes its data to lanes
that are not dead, leaves the group and lowers its flag; one that returns some of its lanes writes those and stays outstanding. -/
def Obligations.SwapsAndReturns : Prop :=
  (∀ (s : State) (core sub : Nat) (i r : GRef) (g : Group) (t : Team),
    (s.longest core sub = some i → ∃ h : Group, (i, h) ∈ s.onSub core sub ∧ s.swapCandidate i h = true ∧
      ∀ p ∈ s.onSub core sub, s.swapCandidate p.1 p.2 = true → h.readySince ≤ p.2.readySince) ∧
    (s.input = some (.groupSwap core sub none) → s.longest core sub = some i →
      ((s.onSub core sub).filter fun p => p.2.inSet).length < 8 → exec .groupSwap s = .next (s.modGroup i Group.swapIn)) ∧
    (s.input = some (.groupSwap core sub (some r)) → s.longest core sub = some i → s.group? r = some g → (r, g) ∈ s.onSub core sub →
      g.inSet = true → g.life = .active → (s.readyGroup r g = false → exec .groupSwap s = .next ((s.modGroup r fun g =>
        { g with inSet := false, yielded := false, asleep := true, life := if g.life = .trapped then .trapped else .waiting }).modGroup i Group.swapIn)) ∧
      (s.readyGroup r g = true → g.yielded = true → (∀ c, g.clause = some c → c.started = false) → exec .groupSwap s = .next ((s.modGroup r fun g =>
        { g with inSet := false, yielded := false, asleep := false, readySince := s.stepNo, life := if g.life = .trapped then .trapped else .pending }).modGroup i Group.swapIn))) ∧
    (s.input = some (.groupExitDrain r) → s.team? r.team = some t → s.group? r = some g → g.alive = false → g.blive = false →
      g.life ≠ .exited → g.bnd ≠ .waiting → g.ops = [] → g.mq = [] → g.deferredTrap = none → t.ended = false → t.ctx = .running →
      ∀ u v, u = (s.publish r.leader t.core 3).modGroup r (fun g => { g with life := .exited, inSet := false, clause := none, wait := .none }) →
        u.team? r.team = some v → exec .groupExitDrain s =
          .next (if (v.groups ++ v.shadows).all fun g => g.life == .exited then u.endTeam r.team else u))) ∧
  (∀ (s : State) (r : GRef) (g : Group) (o : Op) (lanes : W32),
    s.input = some (.operationCompletion r o.id lanes) → s.group? r = some g → g.op? o.id = some o → o.what = .ready →
    (o.coveredBy lanes = true → exec .operationCompletion s = .next (s.modGroup r fun g => g.finish o)) ∧
    (∀ code m l tag, o.dest = [.vec code m l tag] → o.coveredBy lanes = false →
      exec .operationCompletion s =
        .next (s.modGroup r fun g => (g.settleLanes o.id lanes).receive lanes (.vec code m l .g))) ∧
    (∀ x ∈ (g.finish o).ops, x.id ≠ o.id) ∧
    (∀ f, (g.ops.filter fun x => x.id == o.id) = [o] → (g.finish o).flagCount f + (if o.flag = some f then 1 else 0) = g.flagCount f) ∧
    (∀ n v, o.dest = [.scal n v] → ∀ k < 32, (g.finish o).sreg k = if k = n then v else g.sreg k) ∧
    (∀ code m l, o.dest = [.vec code m l .g] → code.toNat < g.v.length → code.toNat < 0xC0 → ∀ k < 32,
      ((g.finish o).vreg code).l.lane k =
        if m.getLsbD k = true ∧ g.dead.getLsbD k = false then l.lane k else (g.vreg code).l.lane k))

/-! ### Lending, system registers and literal pairs (R121 to R129) -/

/-- R123, R124, R126, R127: `rgrow` and `trgrow` beyond the group's maximum answer 2, and otherwise wait as the newest request of the
team; a grant answers 0 and adds the registers or tiles, zero, at the top of the allocation; `rshrink` and `trshrink` release the
top of it, trap ILLOP when too little would be left, and wait for what is still to write there. A shadow takes the status from
its leader's queue and mirrors a grant (R97). -/
def Obligations.RegisterLending : Prop := ∀ (s : State) (c : Ctx) (d : BitVec 8) (i : BitVec 16) (n : Nat), n = i.toNat →
  (c.g.sh = false → (c.shadowed = true → c.grp.lvq.length < 8) →
    (Issuing (.rgrow d i) c s → exec (.rgrow d i) s = .next
      (if c.grp.vmax < c.grp.v.length + n then c.mod s fun g => g.requestDone c.shadowed d false n 2
       else c.waits (s.modTeam c.g.team fun t => { t with requests := t.requests ++ [{ grp := c.g.grp, tiles := false, n := n, dst := d }] }) (.regs n))) ∧
    (Issuing (.trgrow d i) c s → exec (.trgrow d i) s = .next
      (if c.grp.tmax < c.grp.t.length + n then c.mod s fun g => g.requestDone c.shadowed d true n 2
       else c.waits (s.modTeam c.g.team fun t => { t with requests := t.requests ++ [{ grp := c.g.grp, tiles := true, n := n, dst := d }] }) (.tiles n)))) ∧
  (∀ (ld : Group) (e : LvqEntry) (rest : List LvqEntry) (st : W64) (k : Nat) (u : State), c.g.sh = true → s.group? c.g.leader = some ld →
    ld.lvq = e :: rest → e.filled = true → e.pc = c.pc.setWidth 64 → e.dest = [.scal k st] →
    u = c.mod (s.modGroup c.g.leader fun g => { g with lvq := rest }) (fun g => g.setS k st) →
    (Issuing (.rgrow d i) c s → exec (.rgrow d i) s = .next (c.past (if st = 0 then c.mod u fun g => g.grow false n else u))) ∧
    (Issuing (.trgrow d i) c s → exec (.trgrow d i) s = .next (c.past (if st = 0 then c.mod u fun g => g.grow true n else u)))) ∧
  (∀ (sub : Nat) (tiles : Bool) (t : Team) (k : Kernel) (q : Request) (sid : Nat), s.input = some (.shareGrant sid sub tiles) →
    s.team? sid = some t → t.ctx = .running → t.oldest sub tiles = some q → s.kernel? t.bezel t.kslot = some k →
    q.n ≤ t.freeUnits sub tiles → exec .shareGrant s = .next ((s.modTeam sid fun t => { t with requests := t.requests.erase q }).modGroup
      { team := sid, grp := q.grp } fun g => (g.wake s.stepNo).requestDone (recShadow k.record) q.dst q.tiles q.n 0)) ∧
  (∀ g : Group, (g.grow false n).v = g.v ++ List.replicate n ({} : VReg) ∧ (g.grow true n).t = g.t ++ List.replicate n ({} : Tile) ∧
    (g.requestDone false d false n 0).v.length = g.v.length + n ∧ (g.requestDone false d true n 0).t.length = g.t.length + n ∧
    (g.requestDone false d false n 2).v.length = g.v.length) ∧
  (Issuing (.rshrink i) c s →
    (c.grp.v.length < n + 8 → exec (.rshrink i) s = .next (c.traps s ILLOP 0)) ∧
    (n + 8 ≤ c.grp.v.length → c.grp.writesAbove (c.grp.v.length - n) = true →
      exec (.rshrink i) s = .next (c.waits s (.shrink false (c.grp.v.length - n)))) ∧
    (n + 8 ≤ c.grp.v.length → c.grp.writesAbove (c.grp.v.length - n) = false → ∃ f : Group → Group,
      exec (.rshrink i) s = .next (c.past (c.mod s f)) ∧ ∀ g : Group, (f g).v = g.v.take (c.grp.v.length - n) ∧
        (f g).ver.heldRegs = g.ver.heldRegs + n ∧ { f g with v := g.v, ver := g.ver, latch := g.latch } = g)) ∧
  (Issuing (.trshrink i) c s →
    (c.grp.t.length < n → exec (.trshrink i) s = .next (c.traps s ILLOP 0)) ∧
    (n ≤ c.grp.t.length → c.grp.tileWriter (c.grp.t.length - n) = true →
      exec (.trshrink i) s = .next (c.waits s (.shrink true (c.grp.t.length - n)))) ∧
    (n ≤ c.grp.t.length → c.grp.tileWriter (c.grp.t.length - n) = false → ∃ f : Group → Group,
      exec (.trshrink i) s = .next (c.past (c.mod s f)) ∧ ∀ g : Group, (f g).t = g.t.take (c.grp.t.length - n) ∧
        (f g).mq.map (fun m => (m.id, m.what, m.rows)) = g.mq.map (fun m => (m.id, m.what, m.rows)) ∧
        (f g).ver.heldTileN = g.ver.heldTileN + n ∧ { f g with t := g.t, ver := g.ver, mq := g.mq } = g))

/-- R121, R122, R128, R129: what `vshape` and `sread` answer; `swrite` writes DSP; `slit` joins two literals, and traps ILLOPERAND
where the second is not in the clause. Under SHADOW a leader passes the GSTAT, DEADLANES and RP that it reads to its shadow, which has its own ISSHADOW
(log entry 50). -/
def Obligations.SystemRegisters : Prop := ∀ (s : State) (c : Ctx) (d a f n : BitVec 8) (x : VReg), x = c.v a →
  (Issuing (.vshape d a f) c s → exec (.vshape d a f) s = .next (c.scal s d
    (if f = 0 then (match x.tag with | .u => 0 | .a => 1 | .g => 2)
     else if f = 1 then (x.l.lane 0).setWidth 64
     else if x.tag = .a then (x.l.lane 1 - x.l.lane 0).setWidth 64 else 0))) ∧
  (Issuing (.sread d n) c s → n ≠ 0 → n ≠ 1 → n ≠ 3 → ∃ v : W64, exec (.sread d n) s = .next (c.scal s d v) ∧
    (n = 2 → v = c.grp.exited.setWidth 64) ∧ (n = 4 → v = c.grp.dsp.setWidth 64) ∧
    (n = 5 → v = c.grp.gmode.setWidth 64) ∧ (n = 6 → v = c.grp.allocWord) ∧
    (n = 7 → v = (BitVec.ofNat 32 (c.core * 2 ^ 10 + c.g.grp % 4 * 2 ^ 8 + c.g.grp)).setWidth 64) ∧
    (n = 10 → v = BitVec.ofNat 64 (recKey c.kern.record % 2 ^ 16)) ∧ (n = 8 → v = c.handle) ∧ (n = 9 → v = c.grp.taskSeq.setWidth 64) ∧
    (c.g.sh = false → (n = 16 → v = c.grp.report.tcode) ∧ (n = 17 → v = c.grp.report.tpc) ∧
      (n = 18 → v = c.grp.report.tkernel) ∧ (n = 19 → v = c.grp.report.tteam) ∧ (n = 20 → v = c.grp.report.ttask) ∧
      (n = 21 → v = c.grp.report.taddr) ∧ (n = 22 → v = c.grp.report.tem) ∧ (n = 23 → v = c.grp.report.tgmode) ∧
      (n = 24 → v = c.grp.report.tresume))) ∧
  (n = 0 ∨ n = 1 ∨ n = 3 → Issuing (.sread d n) c s →
    (c.g.sh = false → ∃ v : W64, exec (.sread d n) s = .next (c.scal (if c.shadowed then c.mod s fun g =>
        { g with side := g.side ++ [v] } else s) d v) ∧
      (n = 0 → v = BitVec.ofNat 64 (c.grp.deadSrc.toNat + 2 * c.grp.blive.toNat + 4 * c.grp.bjoin.toNat + 8 * c.grp.masked.toNat)) ∧
      (n = 1 → v = c.grp.dead.setWidth 64) ∧ (n = 3 → v = BitVec.ofNat 64 c.grp.rp)) ∧
    (∀ (ld : Group) (v : W64) (rest : List W64), c.g.sh = true → s.group? c.g.leader = some ld → ld.side = v :: rest →
      exec (.sread d n) s = .next (c.scal (s.modGroup c.g.leader fun g => { g with side := g.side.drop 1 }) d
        (if n = 0 then v ||| 16 else v)))) ∧
  (Issuing (.swrite a n) c s → exec (.swrite a n) s = .next (c.past (c.mod s fun g => { g with dsp := (c.s a).setWidth 32 }))) ∧
  (Issuing (.slit d n) c s → exec (.slit d n) s = .next
    (if n.toNat + 1 < c.cl.lits.length then c.scal s d (c.cl.lit (n.toNat + 1) ++ c.cl.lit n.toNat) else c.traps s ILLOPERAND 0))

/-! ### Empty masks and shadow groups (R51, R97) -/

/-- R51, R97: an instruction of class a or b that finds the effective mask empty where its own entry gives it nothing to do completes
at its issue and raises no flag; the scalar operands of class b are signed (R98). A shadow's instruction of class a takes the oldest entry of its leader's load-value queue, once that entry
is filled and was made at the same PC; an entry of another PC is a mismatch. -/
def Obligations.EmptyMasksAndShadows : Prop := ∀ (s : State) (c : Ctx) (d a b f : BitVec 8) (i : Instr),
  (c.g.sh = false → c.em = 0 → c.RoomA s → Issuing i c s →
    i = .ld d a b ∨ i = .ld16 d a b ∨ i = .ld8 d a b ∨ i = .ldb d a b → exec i s = .next (c.past (c.noneA s))) ∧
  (c.em = 0 → c.g.sh = true ∨ c.RoomB s → Issuing i c s →
    (i = .sunmap a ∨ i = .sflush a → exec i s = .next (c.past (sign c s [c.s a]))) ∧
    (i = .smap d a b ∨ i = .cpy d a b → exec i s = .next (c.past (sign c s [c.s d, c.s a, c.s b])))) ∧
  (c.em = 0 → c.RoomB s → Issuing i c s → c.shadowed = false → i = .st d a b ∨ i = .st16 d a b ∨ i = .st8 d a b ∨ i = .stb d a b →
    exec i s = .next (c.past s)) ∧
  (∀ (ld : Group) (e : LvqEntry) (rest : List LvqEntry), c.g.sh = true → s.group? c.g.leader = some ld → ld.lvq = e :: rest →
    e.filled = true → Issuing i c s → i = .ld d a b ∨ i = .ld16 d a b ∨ i = .ld8 d a b ∨ i = .lds d a b ∨ i = .ldb d a b ∨
      i = .tlincReserve d a ∨ i = .tlrd d a f →
    (e.pc = c.pc.setWidth 64 → exec i s = .next (c.past (c.mod (s.modGroup c.g.leader fun g => { g with lvq := rest })
      fun g => e.dest.foldl (fun g x => g.receive 0xFFFFFFFF x) g))) ∧
    (e.pc ≠ c.pc.setWidth 64 → exec i s = .next (s.mismatch c.g)))

/-! ### Memory (R160 to R176, R219 to R234) -/

/-- R169 to R171: a leader's load whose lanes each reach a place without poison completes: it becomes an operation that will deliver
the bytes at each lane's address, zero-extended and least significant first, to the lanes of EM; every lane of a load under a uniform
offset reads one address. -/
def Obligations.LoadsComplete : Prop := ∀ (s s1 : State) (c : Ctx) (d a b : BitVec 8) (pl : Nat → Place) (ps : List (Nat × Place))
    (ad : Nat → W64) (i : Instr) (n : Nat) (uni : Bool) (p : Place), c.g.sh = false → Issuing i c s → c.RoomA s → c.NoAtomic s →
  (c.em ≠ 0 → i = .ld d a b ∧ n = 4 ∧ ad = laneAd (c.s a) (c.v b) ∧ uni = ((c.v b).tag == .u) ∨
      i = .ld16 d a b ∧ n = 2 ∧ ad = laneAd (c.s a) (c.v b) ∧ uni = ((c.v b).tag == .u) ∨
      i = .ld8 d a b ∧ n = 1 ∧ ad = laneAd (c.s a) (c.v b) ∧ uni = ((c.v b).tag == .u) ∨
      i = .ldb d a b ∧ n = 4 ∧ ad = blockAd (scalAd (c.s a) (c.s b)) ∧ uni = false ∧ (scalAd (c.s a) (c.s b)).toNat < 2 ^ 57 ∧
        (scalAd (c.s a) (c.s b)).toNat % 128 = 0 →
    (∀ k ∈ lanesOf c.em, c.Reaches s .load n (ad k) (pl k) ∧ s.Sane (pl k)) → ps = (lanesOf c.em).map (fun k => (k, pl k)) →
    s1 = loadReady c (s.touch c.bez c.core ((lanesOf c.em).map ad)) (ps.map (·.2)) →
    ∃ l : Lanes, exec i s = .next (c.past (loadLater c (c.opA s1 [.vec d c.em l (if uni then .u else .g)] .ready false) n ps)) ∧
      ∀ k ∈ lanesOf c.em, uni = false → l.lane k = BitVec.ofNat 32 (leNat (s1.loadBytes c.g ((s1.group? c.g).getD c.grp) c.core (pl k) n))) ∧
  (i = .lds d a b → c.Reaches s .scalarLoad 8 (scalAd (c.s a) (c.s b)) p → s.Sane p →
    s1 = loadReady c (s.touch c.bez c.core [scalAd (c.s a) (c.s b)]) [p] →
    exec i s = .next (c.past (loadLater c (c.opA s1 [.scal (sdstNum d) (BitVec.ofNat 64 (leNat
      (s1.loadBytes c.g ((s1.group? c.g).getD c.grp) c.core p 8)))] .ready false) 8 [(0, p)])))

/-- R169 to R171, R361: of a leader's load that passes its checks, the lanes that read a poisoned sector are killed and receive nothing;
a poisoned scalar load ends the team with UNCORR. -/
def Obligations.Loads : Prop := ∀ (s s0 s1 s2 : State) (c : Ctx) (d a b : BitVec 8) (ps : List (Nat × Place)) (kills bad : List Nat)
    (ad : Nat → W64) (i : Instr) (n : Nat) (uni : Bool), c.g.sh = false → Issuing i c s → c.RoomA s →
  (c.em ≠ 0 → i = .ld d a b ∧ n = 4 ∧ ad = laneAd (c.s a) (c.v b) ∧ uni = ((c.v b).tag == .u) ∨
      i = .ld16 d a b ∧ n = 2 ∧ ad = laneAd (c.s a) (c.v b) ∧ uni = ((c.v b).tag == .u) ∨
      i = .ld8 d a b ∧ n = 1 ∧ ad = laneAd (c.s a) (c.v b) ∧ uni = ((c.v b).tag == .u) ∨
      i = .ldb d a b ∧ n = 4 ∧ ad = blockAd (scalAd (c.s a) (c.s b)) ∧ uni = false ∧ (scalAd (c.s a) (c.s b)).toNat < 2 ^ 57 ∧
        (scalAd (c.s a) (c.s b)).toNat % 128 = 0 →
    checkLanes c s .load (lanesOf c.em) ad n = .ok (s0, ps, kills) → s1 = loadReady c s0 (ps.map (·.2)) →
    bad = kills ++ (ps.filter fun p => s1.placePoisoned p.2).map (·.1) → s2 = s1.killEach c.g (bad.map fun i => (i, ad i)) → c.RoomA s2 →
    ∃ (m : W32) (l : Lanes), exec i s = .next (c.past (loadLater c (c.opA s2 [.vec d m l (if uni then .u else .g)] .ready false) n
        (ps.filter fun p => m.getLsbD p.1))) ∧
      ∀ k < 32, (m.getLsbD k = true ↔ c.em.getLsbD k = true ∧ k ∉ bad) ∧
        (uni = false → ∀ p, (ps.find? fun x => x.1 == k) = some (k, p) →
          l.lane k = BitVec.ofNat 32 (leNat (s1.loadBytes c.g ((s1.group? c.g).getD c.grp) c.core p n)))) ∧
  (∀ (p : Place) (q : List (Nat × Place)) (v : W64), i = .lds d a b →
    checkLanes c s .scalarLoad [0] (fun _ => scalAd (c.s a) (c.s b)) 8 = .ok (s0, (0, p) :: q, kills) →
    s1 = loadReady c s0 [p] → v = BitVec.ofNat 64 (leNat (s1.loadBytes c.g ((s1.group? c.g).getD c.grp) c.core p 8)) →
    (s1.placePoisoned p = true → exec i s = .next (s1.terminate c.g 19 12 (scalAd (c.s a) (c.s b)))) ∧
    (s1.placePoisoned p = false → c.RoomA s1 →
      exec i s = .next (c.past (loadLater c (c.opA s1 [.scal (sdstNum d) v] .ready false) 8 [(0, p)]))))

/-- R169 to R171, R221, R285: a leader's store, its addresses writable and aligned and its units within the bound, is held with the
version, or takes effect at once where every store of the kernel is its own task; a shadow counts the units and signs, and stores
nothing (R97, R98). -/
def Obligations.Stores : Prop := ∀ (s s1 s2 : State) (c : Ctx) (d a b : BitVec 8) (pl : Nat → Place) (ps : List (Nat × Place)) (kills : List Nat)
    (ad : Nat → W64) (i : Instr) (n : Nat), Issuing i c s →
  (c.em ≠ 0 → i = .st d a b ∧ n = 4 ∧ ad = laneAd (c.s a) (c.v b) ∨ i = .st16 d a b ∧ n = 2 ∧ ad = laneAd (c.s a) (c.v b) ∨
      i = .st8 d a b ∧ n = 1 ∧ ad = laneAd (c.s a) (c.v b) ∨
      i = .stb d a b ∧ n = 4 ∧ ad = blockAd (scalAd (c.s a) (c.s b)) ∧ (scalAd (c.s a) (c.s b)).toNat < 2 ^ 57 ∧
        (scalAd (c.s a) (c.s b)).toNat % 128 = 0 →
    (c.g.sh = false → c.RoomB s → (∀ k ∈ lanesOf c.em, c.Reaches s .store n (ad k) (pl k)) → c.UnitsFit s ((lanesOf c.em).map pl) →
      s2 = c.counted (s.touch c.bez c.core ((lanesOf c.em).map ad)) ((lanesOf c.em).map pl) →
      exec i s = .next (c.past (c.signedLanes ad (fun k => leBytes ((c.v d).l.lane k).toNat n)
        (holdStores c (s2.fillPlaces ((lanesOf c.em).map pl)) ((lanesOf c.em).map fun k => (pl k, leBytes ((c.v d).l.lane k).toNat n)))))) ∧
    (c.g.sh = false → c.RoomB s → checkLanes c s .store (lanesOf c.em) ad n = .ok (s1, ps, kills) →
      countUnits c s1 (ps.map (·.2)) = .ok s2 → exec i s = .next (c.past (c.signedLanes ad (fun k => leBytes ((c.v d).l.lane k).toNat n)
        (holdStores c (s2.fillPlaces (ps.map (·.2))) (ps.map fun p => (p.2, leBytes ((c.v d).l.lane p.1).toNat n)))))) ∧
    (c.g.sh = true → (c.UnitsFit s (shadowPlaces c s (lanesOf c.em) ad) ∧ s2 = c.counted s (shadowPlaces c s (lanesOf c.em) ad) ∨
        countUnits c s (shadowPlaces c s (lanesOf c.em) ad) = .ok s2) →
      exec i s = .next (c.past (c.signedLanes ad (fun k => leBytes ((c.v d).l.lane k).toNat n) s2)))) ∧
  (i = .sts d a b → ad = (fun _ => scalAd (c.s a) (c.s b)) →
    (c.g.sh = false → c.RoomB s → c.Reaches s .store 8 (ad 0) (pl 0) → c.UnitsFit s [pl 0] →
      exec i s = .next (c.past (sign c (holdStores c ((c.counted (s.touch c.bez c.core [ad 0]) [pl 0]).fillPlaces [pl 0])
        [(pl 0, leBytes (c.s d).toNat 8)]) [c.s d, c.s a, c.s b]))) ∧
    (c.g.sh = false → c.RoomB s → checkLanes c s .store [0] ad 8 = .ok (s1, ps, kills) → countUnits c s1 (ps.map (·.2)) = .ok s2 →
      exec i s = .next (c.past (sign c (holdStores c (s2.fillPlaces (ps.map (·.2))) (ps.map fun p => (p.2, leBytes (c.s d).toNat 8)))
        [c.s d, c.s a, c.s b]))) ∧
    (c.g.sh = true → (c.UnitsFit s (shadowPlaces c s [0] ad) ∧ s2 = c.counted s (shadowPlaces c s [0] ad) ∨
        countUnits c s (shadowPlaces c s [0] ad) = .ok s2) →
      exec i s = .next (c.past (sign c s2 [c.s d, c.s a, c.s b]))))

/-- The bytes that some stores write and no others (R169, R217, R219, R221, R224, R317). Held with a version, they leave memory and the
stores in flight alone, and the last of them reads back from its place, in the group's own loads of a fabric address and in a stash.
Where every store is its own task, a store to a stash writes its own bytes there; one to memory outside mailbox fields and mapped
blocks, of a SYNC page or not, enters the stores in flight with its own bytes, which the group's loads return from then on, and leaves
memory alone until it arrives (the posted form of stores within this module is the model's, log entry 11); one to a sector that a block
maps writes its own bytes at the home; one to a channel that the bezel has released writes nothing. No store changes another byte of a
stash. -/
def Obligations.StoreFrame : Prop := ∀ (s u : State) (c : Ctx) (l : List (Place × List Byte)), u = holdStores c s l →
  (recOwnTask c.kern.record = false → u.posted = s.posted ∧ (∀ a, memByte u.mem a = memByte s.mem a) ∧
    (∀ (q : List (Place × List Byte)) (pa : Nat) (sync : Bool) (ow : Nat) (va : W64) (x : List Byte) (g : Group),
      l = q ++ [(.glob pa sync ow va, x)] → s.group? c.g = some g → ∃ h : Group, u.group? c.g = some h ∧
        ∀ i < x.length, u.loadByte c.g h c.core (.glob pa sync ow va) i = x[i]?.getD 0) ∧
    (∀ (q : List (Place × List Byte)) (sid off : Nat) (va : W64) (x : List Byte) (t : Team),
      l = q ++ [(.stash sid off va, x)] → s.team? sid = some t → Memory.wf t.stash = true → ∃ t' : Team, u.team? sid = some t' ∧
        ∀ i < x.length, memByte t'.stash (off + i) = x[i]?.getD 0)) ∧
  (recOwnTask c.kern.record = true →
    (∀ (sid off : Nat) (va : W64) (x : List Byte) (t : Team), l = [(.stash sid off va, x)] → s.team? sid = some t →
      Memory.wf t.stash = true → ∃ t' : Team, u.team? sid = some t' ∧ ∀ i < x.length, memByte t'.stash (off + i) = x[i]?.getD 0) ∧
    (∀ (pa : Nat) (sync : Bool) (ow : Nat) (va : W64) (x : List Byte), l = [(.glob pa sync ow va, x)] →
      (s.closedTo c.team.bezel pa = true → u.mem = s.mem ∧ u.posted = s.posted) ∧
      (s.closedTo c.team.bezel pa = false → pa / 2 ^ 43 ≠ s.devId ∨ s.mailboxAt pa = none ∧ s.mappedBlock (pa / 256) = none →
        u.mem = s.mem ∧ (∃ p : Posted, u.posted = s.posted ++ [p] ∧ p.cells = cellsAt pa x ∧ p.src = c.g.leader ∧ p.sync = sync) ∧
        ∀ h : Group, h.ver.held = [] → ∀ i < x.length, u.loadByte c.g h c.core (.glob pa sync ow va) i = x[i]?.getD 0) ∧
      (s.closedTo c.team.bezel pa = false → pa / 2 ^ 43 = s.devId → s.mailboxAt pa = none → s.mappedBlock (pa / 256) ≠ none → s.MemOk →
        ∀ i < x.length, memByte u.mem (pa + i) = x[i]?.getD 0))) ∧
  (∀ sid t t', s.team? sid = some t → u.team? sid = some t' →
    (recOwnTask c.kern.record = true → ∀ p ∈ l, ∃ x off va, p.1 = .stash x off va) →
    ∀ o, (∀ off va x, (.stash sid off va, x) ∈ l → o < off ∨ off + x.length ≤ o) → memByte t'.stash o = memByte t.stash o)

/-- R155, R160, R163, R165, R169: the checks of the lanes of one access, in order: an address beyond the map traps PROT, then a misaligned
one traps ALIGN, then the windows are checked, then the pages trap, whichever pages are not present, then a page that is not present
parks the group; each reports the lowest lane that fails. -/
def Obligations.AccessChecks : Prop := ∀ (s : State) (c : Ctx) (k : Acc) (lanes : List Nat) (ad : Nat → W64) (al i : Nat) (l1 l2 : List Nat),
  lanes = l1 ++ i :: l2 →
  (2 ^ 57 ≤ (ad i).toNat → (∀ j ∈ l1, (ad j).toNat < 2 ^ 57) → checkLanes c s k lanes ad al = .error (.trap PROT (ad i))) ∧
  ((∀ j ∈ lanes, (ad j).toNat < 2 ^ 57) →
    ((ad i).toNat % al ≠ 0 → (∀ j ∈ l1, (ad j).toNat % al = 0) → checkLanes c s k lanes ad al = .error (.trap ALIGN (ad i))) ∧
    ((∀ j ∈ lanes, (ad j).toNat % al = 0) →
      (∀ code, isWindow (ad i) = true → s.place c.team c.kern c.bez k (ad i) = .trap code →
        (∀ j ∈ l1, ∀ x, isWindow (ad j) = true → s.place c.team c.kern c.bez k (ad j) ≠ .trap x) →
        checkLanes c s k lanes ad al = .error (.trap code (ad i))) ∧
      ((∀ j ∈ lanes, ∀ x, isWindow (ad j) = true → s.place c.team c.kern c.bez k (ad j) ≠ .trap x) → ∀ code,
        s.place c.team c.kern c.bez k (ad i) = .trap code → (∀ j ∈ l1, ∀ x, s.place c.team c.kern c.bez k (ad j) ≠ .trap x) →
        checkLanes c s k lanes ad al = .error (.trap code (ad i))) ∧
      ((∀ j ∈ lanes, ∀ x, s.place c.team c.kern c.bez k (ad j) ≠ .trap x) → ∀ ca lv, s.place c.team c.kern c.bez k (ad i) = .park ca lv →
        (∀ j ∈ l1, ∀ x y, s.place c.team c.kern c.bez k (ad j) ≠ .park x y) →
        checkLanes c s k lanes ad al = .error (.done (s.parkGroup c (ad i) ca lv k.writes false))) ∧
      ((∀ j ∈ lanes, ∃ p, s.place c.team c.kern c.bez k (ad j) = .ok p ∧ s.heldBlock c.g p = none) →
        ∃ ps, checkLanes c s k lanes ad al = .ok (s.touch c.bez c.core (lanes.map ad), ps, []) ∧
          ps.map (·.1) = lanes ∧ ∀ p ∈ ps, s.place c.team c.kern c.bez k (ad p.1) = .ok p.2)))

/-- R166, R167, R224: `sunmap` and `sflush` write the mapped blocks of their range back after the task has committed, and `sunmap`
unmaps them; `smap` maps n blocks, unfilled, onto n sectors, whose stores in flight reach their homes first, which is the model's
choice (log entry 36); a shadow only commits and
signs (R97, R98), as it does for `cpy`; a recall writes a dirty block back, and a block that no other group's open
task holds any more lets the access that waited for it issue again. -/
def Obligations.MappedBlocks : Prop := ∀ (s s1 : State) (c : Ctx) (d a b : BitVec 8) (off n : Nat) (t : Team),
  (c.em ≠ 0 → c.RoomB s → blockRange c (c.s a) = .ok (off, n) → c.MayCommit s → s1 = c.commit s false → s1.team? c.g.team = some t → c.g.sh = false →
    t.heldIn c.g off n = none →
    (Issuing (.sflush a) c s → exec (.sflush a) s = .next (c.past (sign c ((t.mappedIn off n).foldl
      (fun s m => s.writeBack c.g.team m.off) s1) [c.s a]))) ∧
    (Issuing (.sunmap a) c s → exec (.sunmap a) s = .next (c.past (sign c ((t.mappedIn off n).foldl (fun s m =>
      (s.writeBack c.g.team m.off).modTeam c.g.team fun t => { t with mapped := t.mapped.filter fun x => x.off != m.off }) s1) [c.s a])))) ∧
  (∀ (secs : List (W64 × Nat × Nat)), c.em ≠ 0 → c.RoomB s → c.g.sh = false → Issuing (.smap d a b) c s → n = (c.s b).toNat → 0 < n → n ≤ 4096 →
    (c.s d).toNat % 256 = 0 → (c.s d).toNat < 2 ^ 57 → isWindow (c.s d) = false → isWindow (c.s d + BitVec.ofNat 64 (256 * n - 1)) = false →
    off = (c.s a).toNat → off % 256 = 0 → off + 256 * n ≤ recStash c.kern.record → c.team.mappedIn off n = [] →
    secs.length = n → (∀ j < n, ∃ pa ow, smapSector s c (c.s d + BitVec.ofNat 64 (256 * j)) = .ok (.glob pa false ow (c.s d + BitVec.ofNat 64 (256 * j))) ∧
      secs[j]? = some (c.s d + BitVec.ofNat 64 (256 * j), pa / 256, ow)) →
    c.MayCommit s → s1 = c.commit s false → (∀ p ∈ secs, s1.mappedBlock p.2.1 = none) →
    exec (.smap d a b) s = .next (c.past (sign c (((secs.foldl (fun s p => s.drainSector p.2.1) s1).touch c.bez c.core (secs.map (·.1))).modTeam c.g.team fun t =>
      { t with mapped := t.mapped ++ secs.zipIdx.map fun p => { off := off + 256 * p.2, va := p.1.1, sector := p.1.2.1, owner := p.1.2.2, filled := false, dirty := false } })
      [c.s d, c.s a, c.s b]))) ∧
  (∀ i ops, c.em ≠ 0 → c.g.sh = true → c.MayCommit s → i = .sunmap a ∧ ops = [c.s a] ∨ i = .sflush a ∧ ops = [c.s a] ∨
      i = .smap d a b ∧ ops = [c.s d, c.s a, c.s b] ∨ i = .cpy d a b ∧ ops = [c.s d, c.s a, c.s b] → Issuing i c s →
    exec i s = .next (c.past (sign c (c.commit s false) ops))) ∧
  (∀ (sid : Nat) (un : Bool) (m : Mapped), s.input = some (.stashRecall sid off un) → s.team? sid = some t → m ∈ t.mapped → m.off = off →
    (∀ u ∈ t.undo, u.blk ≠ off / 256) →
    exec .stashRecall s = .next ((s.recall sid off un).wakeAll fun w => w == .recall sid off)) ∧
  (∀ (r : GRef) (g : Group) (sid blk : Nat), s.input = some (.blockedAccessResume r) → s.group? r = some g → g.wait = .block sid blk →
    s.team? sid = some t → (t.blockHeld r blk = false → exec .blockedAccessResume s = .next (s.modGroup r fun g => g.wake s.stepNo)) ∧
    (t.blockHeld r blk = true → exec .blockedAccessResume s = .refused (.notEnabled "BLOCKED_ACCESS_RESUME")))

/-- R172, R173, R228: `pref` has no effect but its place in the signature; a `fence` that releases commits the task first and makes the
stores that its group has observed visible at its scope, one that acquires performs every load before it and uses no lease begun
before it, and one with FLUSH waits until
the stores of its group to other devices have arrived; a shadow's `fence` completes when its leader's has (log entry 50). -/
def Obligations.PrefetchAndFences : Prop := ∀ (s s1 s2 : State) (c : Ctx) (a b : BitVec 8) (l : BitVec 1) (k : BitVec 2) (f : BitVec 3),
  (c.RoomB s → Issuing (.pref a b) c s → exec (.pref a b) s = .next (c.past (c.signedLanes (laneAd (c.s a) (c.v b)) (fun _ => []) s))) ∧
  (Issuing (.fence l k f) c s → (k.getLsbD 0 = true → c.MayCommit s) → s1 = (if k.getLsbD 0 then c.commit s false else s) →
    s2 = (if k.getLsbD 0 then s1.publish c.g c.core f.toNat else s1) →
    (l = 1 → c.g.sh = false → s2.hasPosted c.g f.toNat = true → exec (.fence l k f) s = .next (c.waits s2 (.posted f.toNat))) ∧
    (c.g.sh = false → l = 0 ∨ s2.hasPosted c.g f.toNat = false → ∀ u, u = (if k.getLsbD 1 then c.mod s2 fun g => { g.fixAll with acquire := max g.acquire s2.stepNo } else s2) →
      exec (.fence l k f) s = .next (c.past (if c.shadowed then c.mod u fun g => { g with side := g.side ++ [0] } else u))) ∧
    (∀ (ld : Group) (x : W64) (rest : List W64), c.g.sh = true → s1.group? c.g.leader = some ld → ld.side = x :: rest →
      exec (.fence l k f) s = .next (c.past (s1.modGroup c.g.leader fun g => { g with side := g.side.drop 1 }))))

/-- R174 to R176, R185, R228: a leader's `cpy` commits the task and gives its command to the copy engine; the command moves every element
of its box that it has not moved, each destination sector in one instant, subtracts the box bytes from PENDING of the object it names,
ends its operation and leaves its batch; an element on a page that is not present parks the command, and one that traps stops it with a
deferred trap. -/
def Obligations.Copies : Prop := ∀ (s s1 s2 : State) (c : Ctx) (d a b : BitVec 8) (r : List Byte) (o : Option Obj) (h : Shape),
  h = shapeRec r →
  (c.em ≠ 0 → c.g.sh = false → c.RoomB s → Issuing (.cpy d a b) c s → (c.s a).toNat % 64 = 0 → c.Reads s .copy (c.s a) 64 r s1 →
    shapeBad r (c.s b) = false → h.count * h.esize ≤ 1048576 →
    h.src.toNat % h.esize = 0 → h.dst.toNat % h.esize = 0 → (h.str 1).toNat % h.esize = 0 → (h.str 2).toNat % h.esize = 0 →
    cpyObject c s1 (c.s d) = .ok o → c.MayCommit s1 → s2 = (c.commit s1 false).publish c.g c.core 3 → c.RoomB s2 →
    ∀ u, u = c.opB s2 (.engine s2.nextCmd) →
    exec (.cpy d a b) s = .next (c.past (sign c (c.mod { u with
        cmds := u.cmds ++ [{ id := u.nextCmd, by_ := c.issuer (some (c.nextOp s2)) none, what := .copy r (c.s b) o }], nextCmd := u.nextCmd + 1 } fun g =>
      { (g.modClause fun cl => { cl with issuedC := true }) with copies := g.copies ++ [(u.nextCmd, none)] }) [c.s d, c.s a, c.s b]))) ∧
  (∀ (id : Nat) (cmd : Cmd) (x : W64) (t : Team) (k : Kernel) (z : Bezel), s.input = some (.copyEngineComplete id) → s.cmd? id = some cmd →
    cmd.what = .copy r x o → s.owner? cmd.by_ = some (t, k, z) → cmd.fault = none → cmd.migr = false → cmd.stopped = false → s.objHeld o = false →
    (∀ moves, (cmd.openMoves r x).mapM (fun m => s.copyElem t k z cmd.by_.since m.1 m.2 h.esize) = .ok moves →
      s1 = s.copyMoved cmd t k z (cmd.openMoves r x) moves →
      s2 = (match o with | some o => s1.arrive o 0 (BitVec.ofInt 32 (-((h.count * h.esize : Nat) : Int))) cmd.by_.handle cmd.by_.core | none => s1) →
      exec .copyEngineComplete s = .next ((s2.endCmd cmd).modGroup cmd.by_.g fun g => g.copyDone id)) ∧
    (∀ code va, (cmd.openMoves r x).mapM (fun m => s.copyElem t k z cmd.by_.since m.1 m.2 h.esize) = .error (.prot code va) →
      exec .copyEngineComplete s = .next ((s.trapCmd cmd code va).modGroup cmd.by_.g fun g => g.copyDone id)) ∧
    (∀ va ca l w, (cmd.openMoves r x).mapM (fun m => s.copyElem t k z cmd.by_.since m.1 m.2 h.esize) = .error (.park va ca l w) →
      exec .copyEngineComplete s = .next (s.parkCmd cmd va ca l w (placeWord t cmd.by_.g.grp))))

/-- R161, R162, R164, R226, R231, R232: a walk that finds a leaf leaves it in the TLBs; the oldest waiting record is sealed into the
fault mailbox; a lease ends; a store in flight within this module takes effect at its home once none ahead of it goes to one of its
sectors. -/
def Obligations.MemoryEvents : Prop := ∀ (s : State) (b core n : Nat) (va : VA) (z : Bezel),
  (s.input = some (.pageWalkComplete b core va) → s.bezel? b = some z → exec .pageWalkComplete s = .next (s.refillTlb z core va.toNat) ∧
    ∀ l, core < 1000000 → s.walk z va.toNat = .leaf l → (s.refillTlb z core va.toNat).lookup z core va.toNat = .leaf l) ∧
  (∀ (tag : W32) (body : List Byte) (rest : List (W32 × List Byte)) (t : State), s.input = some (.faultRecordDelivery b) → s.bezel? b = some z →
    z.msgs = (tag, body) :: rest → (∀ f ∈ z.faults, f.fid ≠ tag) → s.mbPost z z.faultMb tag body = some t →
    exec .faultRecordDelivery s = .next (t.modBezel b fun x => { x with msgs := rest })) ∧
  (∀ (f : FaultEntry) (rest : List (W32 × List Byte)) (t : State), s.input = some (.faultRecordDelivery b) → s.bezel? b = some z →
    z.msgs = (f.fid, f.body) :: rest → (z.faults.filter fun x => x.fid == f.fid) = [f] → s.mbPost z z.faultMb f.fid f.body = some t →
    exec .faultRecordDelivery s = .next (t.modBezel b fun x => { x with msgs := rest })) ∧
  (∀ l ∈ s.leases, s.input = some (.leaseExpiry l.core l.sector) → exec .leaseExpiry s =
    .next { s with leases := s.leases.filter fun x => !(x.core == l.core && x.sector == l.sector) }) ∧
  (∀ p : Posted, s.input = some (.postedStoreArrival (.own n)) → s.posted[n]? = some p → p.acked = false → p.inside s.devId = true →
    (∀ q ∈ s.posted.take n, ∀ x ∈ q.sectors, x ∉ p.sectors) → (∀ x ∈ p.sectors, s.recallWaits x = false) → ∃ u : State,
      exec .postedStoreArrival s = .next u.signalsDue ∧ u.posted = s.posted.eraseIdx n ∧
      u.mem = (s.homeCells p.cells p.owner (some p.sync)).mem)

/-! ### Barriers, timelines and atomics (R179 to R195) -/

/-- R180, R183, R184, R186, R187, R228: the home's test completes a phase when ARRIVALS has reached EXPECTED and PENDING is zero; `binit`
is held; `barr` and `barx` commit the task, release at the object's scope and then arrive with the lanes of the slot's mask, or one, or
send the arrival to another device's object; `bwait` commits, begins the new task at itself, and goes on at once when the phase has
reached the target, else waits, and BWAIT_SATISFIED lets it go on, once the object's page has moved if it is MIGRATING; an arrival there is
held (R316, log entry 58). Its acquire reaches back to the last release of the object that it observes, whose scope holds the group
(R229; the model's form of it is log entry 11). A shadow arrives nowhere; it commits and signs (R97, R98). -/
def Obligations.Barriers : Prop := ∀ (s s1 s2 : State) (c : Ctx) (d a b f : BitVec 8) (o : Obj),
  (∀ ph arr ex pend : W32, barrierTest ph arr ex pend = if ex.toNat ≤ arr.toNat ∧ pend = 0 then (ph + 1, arr - ex, true) else (ph, arr, false)) ∧
  (Issuing (.binit d a b) c s → 8 ≤ (c.s b).toNat → exec (.binit d a b) s = .next (c.traps s ILLOPERAND 0)) ∧
  (c.g.sh = false → c.RoomB s → Issuing (.binit d a b) c s → (c.s b).toNat < 8 → c.Object s .store (c.s d) o s1 →
    exec (.binit d a b) s = .next (c.past (sign c (c.held s1 (.binit o ((c.s a).setWidth 32) ((c.s b).setWidth 3))) [c.s d, c.s a, c.s b]))) ∧
  (∀ (i : Instr) (n x : W32) (ops : List W64), i = .barr a f ∧ n = (if f = 0 then BitVec.ofNat 32 c.nominal else 1) ∧ x = 0 ∧ ops = [c.s a] ∨
      i = .barx a b ∧ n = BitVec.ofNat 32 c.nominal ∧ x = (c.s b).setWidth 32 ∧ (c.s b).getLsbD 31 = false ∧ ops = [c.s a, c.s b] → Issuing i c s →
    (c.g.sh = false → c.RoomB s → c.Object s .store (c.s a) o s1 → c.MayCommit s1 → s2 = c.commit s1 false →
      (o.away s2.devId = false → exec i s = .next (c.past (sign c
        ((s2.publish c.g c.core (s2.objScope c.kern.record o)).arrive o n x c.handle c.core) ops))) ∧
      (∀ (u v : State) (p : Posted), o.away s2.devId = true → u = s2.publish c.g c.core (s2.objScope c.kern.record o) → c.RoomB u → v = c.opB u .event →
        p = { src := c.g, kernel := (c.bez.num, c.kern.slot), core := c.core, instr := v.stepNo, cells := [], arrive := some (o, n, x, c.nextOp u), owner := 0 } →
        exec i s = .next (c.past (sign c { v with posted := v.posted ++ [p] } ops)))) ∧
    (c.g.sh = true → c.MayCommit s → exec i s = .next (c.past (sign c (c.commit s false) ops)))) ∧
  (Issuing (.barx a b) c s → (c.s b).getLsbD 31 = true → exec (.barx a b) s = .next (c.traps s ILLOPERAND 0)) ∧
  (∀ w : WaitOn, c.g.sh = false → Issuing (.bwait a b) c s →
    (a = 0xF4 ∧ w = .mbat ∧ s1 = s ∨ a = 0xF5 ∧ w = .cbat ∧ s1 = s ∨
      a ≠ 0xF4 ∧ a ≠ 0xF5 ∧ c.Object s .syncRead (c.s a) o s1 ∧ w = .obj o) → c.MayCommit s1 → s2 = (c.commit s1 true).atWait w →
    (s2.phaseOf c.grp w - (c.s b).setWidth 32 < 0x80000000 →
      exec (.bwait a b) s = .next (c.past (c.mod s2 fun g => g.acquireAt (s2.waitFloor c.core ((c.s b).setWidth 32) w)))) ∧
    (0x80000000 ≤ s2.phaseOf c.grp w - (c.s b).setWidth 32 → exec (.bwait a b) s = .next (c.waits s2 (w.wait ((c.s b).setWidth 32))))) ∧
  (∀ (r : GRef) (g : Group) (t : Team) (n : W32) (sy : W64) (pa ow : Nat) (h : Obj), s.input = some (.bwaitSatisfied r) → s.group? r = some g →
    s.team? r.team = some t → t.ended = false → t.ctx = .running → g.wait = .phase (.glob pa sy ow) n → h = s.homeOf (.glob pa sy ow) →
    (s.objMoving h = false → phaseReached (s.objPhase h) n = true →
      exec .bwaitSatisfied s = .next (s.modGroup r fun g => ((g.wake s.stepNo).acquireAt (s.releasedAt h t.core (s.observes h n))).advance)) ∧
    (s.objMoving h = true ∨ phaseReached (s.objPhase h) n = false → exec .bwaitSatisfied s = .refused (.notEnabled "BWAIT_SATISFIED"))) ∧
  (∀ (n x : W32) (h : W64) (ag : Nat), s1 = s.atHome (s.homeOf o) → s1.objMoving (s.homeOf o) = true →
    s.arrive o n x h ag = { s1 with heldOps := s1.heldOps ++ [.arrive (s.homeOf o) n x h ag] })

/-- R189 to R191: a draw on an object of KIND 0 that is no mailbox creates the counter and answers 1, on a counter with room answers NEXT
and raises it, and on a full one, or one of a MIGRATING page (R316, log entry 58), waits; the stores that have committed to the counter's
sector reach it first. A group's draws on one counter stay in their order (R236): while an operation of the group still waits to draw
on a counter, a later draw of the group there waits too, and one on another counter does not. `tlinc` 0 commits the task first and completes its
ticket once the group's posted stores have arrived, `tlinc` 1 only draws, `tlinc` 2 commits and completes the ticket in D; `tlrd` reads
DONE, NEXT or BITMAP; a waiting draw takes its ticket when there is room. -/
def Obligations.Timelines : Prop := ∀ (s s1 s2 t : State) (c : Ctx) (d a f : BitVec 8) (o : Obj) (n : W64),
  (∀ g, s.group? c.g = some g →
    ((∀ x ∈ g.ops, ∀ k w e, x.what = .draw k w e → k.place ≠ o.place) → s.drawInTurn c.g o c.handle = s.draw o c.handle) ∧
    (∀ x ∈ g.ops, ∀ k w e, x.what = .draw k w e → k.place = o.place → s.drawInTurn c.g o c.handle = .wait)) ∧
  (∀ (h : W64) (u : State), u = s.atHome o → (u.objMoving o = true → s.draw o h = .wait) ∧
    (u.objMoving o = false → (u.objKind o = 0 → (∀ pa va ow, o = .glob pa va ow → u.mailboxAt pa = none) → ∃ v, s.draw o h = .ticket 1 v) ∧
      (∀ pa va ow, o = .glob pa va ow → u.mailboxAt pa ≠ none → ∃ v, s.draw o h = .ticket 0 v) ∧
      (u.objKind o = 2 → (u.objD o 8).toNat ≤ (u.objD o 0).toNat + 64 →
        s.draw o h = .ticket (u.objD o 8) (u.objWrite o 8 (leBytes ((u.objD o 8).toNat + 1) 8))) ∧
      (u.objKind o = 2 → (u.objD o 0).toNat + 64 < (u.objD o 8).toNat → s.draw o h = .wait) ∧
      (u.objKind o ≠ 0 → u.objKind o ≠ 2 → ∃ v, s.draw o h = .ticket 0 v))) ∧
  (c.g.sh = false → c.RoomA s → c.Counter s .sync (c.s a) o s1 →
    (Issuing (.tlincReserve d a) c s → s1.drawInTurn c.g o c.handle = .ticket n t → c.RoomA t →
      exec (.tlincReserve d a) s = .next (c.past (c.opA t [.scal (sdstNum d) n] .ready false))) ∧
    (Issuing (.tlincReserve d a) c s → s1.drawInTurn c.g o c.handle = .wait →
      exec (.tlincReserve d a) s = .next (c.past (c.opA s1 [.scal (sdstNum d) 0] (.draw o (.tlinc false) (sdstNum d)) false))) ∧
    (c.MayCommit s1 → s2 = (c.commit s1 false).publish c.g c.core 3 →
      (Issuing (.tlincSignal d a) c s → s2.drawInTurn c.g o c.handle = .ticket n t → c.RoomA t →
        exec (.tlincSignal d a) s = .next (c.past ((c.opA t [.scal (sdstNum d) n] .ready true).signal c.g o n))) ∧
      (Issuing (.tlincSignal d a) c s → s2.drawInTurn c.g o c.handle = .wait → c.RoomA s2 →
        exec (.tlincSignal d a) s = .next (c.past (c.opA s2 [.scal (sdstNum d) 0] (.draw o (.tlinc true) (sdstNum d)) true))) ∧
      (∀ ok held, Issuing (.tlincComplete d a) c s → s2.complete o (c.s d).toNat c.core = (t, ok, held) → c.RoomA t →
        exec (.tlincComplete d a) s = .next (c.past (c.opA t [.scal (sdstNum d) (if ok then 0 else 1)]
          (if held then .tlcomplete o (c.s d).toNat else .ready) true))))) ∧
  (c.g.sh = false → c.RoomA s → c.Counter s .syncRead (c.s a) o s1 → Issuing (.tlrd d a f) c s →
    exec (.tlrd d a f) s = .next (c.past (c.opA s1 [.scal (sdstNum d) (s1.objD o (8 * f.toNat))] .ready false))) ∧
  (∀ (r : GRef) (g : Group) (tm : Team) (x : Op) (rest : List Op), s.input = some (.ticketDrawResume r) → s.team? r.team = some tm →
    s.group? r = some g → g.ops = x :: rest → s.draw (s.homeOf o) (handleOf tm.bezel tm.kslot tm.kseq) = .ticket n t →
    (∀ why dst, x.what = .draw o why dst → exec .ticketDrawResume s = .next (t.drawn r x.id o why dst n)) ∧
    (x.what = .draw o (.tlinc false) (sdstNum d) →
      exec .ticketDrawResume s = .next (t.modGroup r fun g => g.setDraw x.id (sdstNum d) n .ready)) ∧
    (x.what = .draw o (.tlinc true) (sdstNum d) →
      exec .ticketDrawResume s = .next ((t.modGroup r fun g => g.setDraw x.id (sdstNum d) n .ready).signal r o n)))

/-- R192 to R195: the new value of a location, and a leader's atomic: it commits the task, acts lane by lane in ascending order at the
homes of its addresses, kills the lanes whose location is poisoned, and in its returning form delivers the old values; with EM zero it
commits and changes nothing (log entry 16). -/
def Obligations.Atomics : Prop := ∀ (s s1 s2 s3 s4 : State) (c : Ctx) (d a b : BitVec 8) (pl : Nat → Place) (ps : List (Nat × Place)) (kills : List Nat)
    (olds : List (Nat × W32)) (i : Instr) (op : BitVec 8) (ret : Bool) (e : Nat → W32),
  (∀ (m : Nat) (old x y : W32), atomicNew 0xA4 0 old x y = old + x ∧
    (m < 5 → etype (BitVec.ofNat 16 m) = m ∧ rnd (BitVec.ofNat 16 m) = 0 ∧ satBit (BitVec.ofNat 16 m) = false ∧ ftzBit (BitVec.ofNat 16 m) = false ∧
      atomicNew 0xA4 m old x y = lane2 m (fun p q => arith .add (BitVec.ofNat 16 m) p q 0) old x ∧
      atomicNew 0xA5 m old x y = lane2 m (minMax false (BitVec.ofNat 16 m)) old x ∧
      atomicNew 0xA6 m old x y = lane2 m (minMax true (BitVec.ofNat 16 m)) old x) ∧
    atomicNew 0xA5 0 old x y = (if old.toInt ≤ x.toInt then old else x) ∧ atomicNew 0xA6 0 old x y = (if old.toInt ≤ x.toInt then x else old) ∧
    atomicNew 0xA5 1 old x y = (if old.toNat ≤ x.toNat then old else x) ∧ atomicNew 0xA6 1 old x y = (if old.toNat ≤ x.toNat then x else old) ∧
    atomicNew 0xA7 m old x y = old &&& x ∧ atomicNew 0xA8 m old x y = old ||| x ∧
    atomicNew 0xA9 m old x y = old ^^^ x ∧ atomicNew 0xAA m old x y = x ∧ atomicNew 0xAB m old x y = if old = y then x else old) ∧
  (i = .atadd d a b ∧ op = 0xA4 ∨ i = .atmin d a b ∧ op = 0xA5 ∨ i = .atmax d a b ∧ op = 0xA6 ∨ i = .atand d a b ∧ op = 0xA7 ∨
      i = .ator d a b ∧ op = 0xA8 ∨ i = .atxor d a b ∧ op = 0xA9 ∨ i = .atxch d a b ∧ op = 0xAA ∨ i = .atcas d a b ∧ op = 0xAB → Issuing i c s →
    (op.toNat ≤ 0xA6 → 5 ≤ etype c.grp.gmode → exec i s = .next (c.traps s ILLOP 0)) ∧
    ((op.toNat ≤ 0xA6 → etype c.grp.gmode < 5) → c.em = 0 → c.g.sh = false → c.MayCommit s → s2 = c.commit s false →
      (d = 0xF0 → c.RoomB s → c.RoomB s2 → exec i s = .next (c.past (c.signedLanes (atomAd c a) (fun k => leBytes ((c.v b).l.lane k).toNat 4) s2))) ∧
      (d ≠ 0xF0 → c.RoomA s → c.RoomA s2 → exec i s = .next (c.past (c.noneA s2)))) ∧
    ((op.toNat ≤ 0xA6 → etype c.grp.gmode < 5) → c.em ≠ 0 → c.g.sh = false → ret = (d != 0xF0) →
      e = (if op = 0xAB ∧ ret = true then (c.v d).l.lane else fun _ => 0) → (ret = true → c.RoomA s) → (ret = false → c.RoomB s) →
      (∀ k ∈ lanesOf c.em, c.Reaches s .store 4 (atomAd c a k) (pl k)) → ps = (lanesOf c.em).map (fun k => (k, pl k)) →
      s1 = s.touch c.bez c.core ((lanesOf c.em).map (atomAd c a)) → c.MayCommit s1 → s2 = c.commit s1 false →
      atomLanes c op (etype c.grp.gmode) ret (c.v b).l.lane e ps (c.mod s2 fun g => g.fixLoads (ps.map (·.2))) = (s3, olds, kills) →
      s4 = s3.killEach c.g (kills.map fun k => (k, atomAd c a k)) →
      (ret = false → exec i s = .next (c.past (c.signedLanes (atomAd c a) (fun k => leBytes ((c.v b).l.lane k).toNat 4) s4))) ∧
      (ret = true → c.RoomA s4 → ∃ (m : W32) (l : Lanes), exec i s = .next (c.past (c.opA s4 [.vec d m l .g] .ready true)) ∧
        ∀ k < 32, (m.getLsbD k = true ↔ c.em.getLsbD k = true ∧ k ∉ kills) ∧ ∀ old, olds.find? (fun p => p.1 == k) = some (k, old) → l.lane k = old)))

/-! ### Tiles and the matrix unit (R196 to R214) -/

/-- R197 to R202, R205, R207 to R212: the tile instructions of a leader with EM nonzero check their descriptors and their words and
enter the matrix queue, in which a full queue makes them wait; with EM zero, and in a shadow, they have no effect; `tcolr` is an
operation of class a; `mfence` waits for an empty queue and acquires; `rprd` reads the progress, which a shadow takes from its leader
(log entry 50). -/
def Obligations.TileInstructions : Prop := ∀ (s s1 : State) (c : Ctx) (t u f g : BitVec 4) (d a b col : BitVec 8) (i : Instr) (w : MWhat),
  ((i = .tzero t ∧ w = .tzero t.toNat ∨ i = .tcvt t u f g ∧ w = .tcvt t.toNat u.toNat f.toNat g.toNat c.grp.gmode ∨
      i = .tcolw t a col ∧ w = .tcolw t.toNat col.toNat (c.v a).l ∨ i = .tscale t a col ∧ w = .tscale t.toNat (col == 1) (c.v a).l ∨
      i = .tld t a ∧ w = .tld t.toNat (c.desc a) ∧ checkDescs c [a] = .ok () ∧
        (c.em ≠ 0 → c.g.sh = false → checkWords c s .load ((tileRows (c.desc a) c.em).flatMap (rangeWords (c.desc a))) = .ok ()) ∨
      i = .mma t a b ∧ w = .mma t.toNat (c.desc a) (c.desc b) ∧ checkDescs c [a, b] = .ok () ∧ (pairing (c.desc a).fslot (c.desc b).fslot).isSome = true ∧
        (c.em ≠ 0 → c.g.sh = false → checkWords c s .load ((blockA (c.desc a) c.em 0).flatMap (rangeWords (c.desc a)) ++
          (blockB (c.desc b) 0).flatMap (rangeWords (c.desc b))) = .ok ())) → Issuing i c s →
    (c.g.sh = true ∨ c.em = 0 → exec i s = .next (c.past s)) ∧
    (c.g.sh = false → c.em ≠ 0 → 8 ≤ c.grp.mq.length → exec i s = .next (c.waits s .queue)) ∧
    (c.g.sh = false → c.em ≠ 0 → c.grp.mq.length < 8 → exec i s = .next (c.past (c.queued s w c.em)))) ∧
  (Issuing (.mma t a b) c s → checkDescs c [a, b] = .ok () → pairing (c.desc a).fslot (c.desc b).fslot = none →
    exec (.mma t a b) s = .next (c.traps s ILLOP 0)) ∧
  (Issuing (.tst t a) c s → checkDescs c [a] = .ok () → c.em ≠ 0 →
    (c.UnitsFit s (tstPlaces c s (c.desc a)) ∧ s1 = c.counted s (tstPlaces c s (c.desc a)) ∨ countUnits c s (tstPlaces c s (c.desc a)) = .ok s1) →
    (c.g.sh = false → c.grp.mq.length < 8 →
      checkWords c s .store (((tileRows (c.desc a) c.em).flatMap (tstWords (c.desc a) c.em)).map (·.2)) = .ok () →
      exec (.tst t a) s = .next (c.past (c.queued s1 (.tst t.toNat (c.desc a) (rnd c.grp.gmode) (ftzBit c.grp.gmode)) c.em))) ∧
    (c.g.sh = true → exec (.tst t a) s = .next (c.past s1))) ∧
  (Issuing (.tst t a) c s → checkDescs c [a] = .ok () → c.em = 0 → exec (.tst t a) s = .next (c.past s)) ∧
  (Issuing (.stest t) c s → (c.g.sh = true → exec (.stest t) s = .next (c.past s)) ∧
    (c.g.sh = false → 8 ≤ c.grp.mq.length → exec (.stest t) s = .next (c.waits s .queue)) ∧
    (c.g.sh = false → c.grp.mq.length < 8 → exec (.stest t) s = .next (c.past (c.mod
      (enqueue c s c.grp.nextOp (.stest t.toNat) 0xFFFFFFFF none (c.em != 0)) fun g => { g with nextOp := g.nextOp + 1 })))) ∧
  (Issuing (.tcolr d u col) c s → c.g.sh = false → (c.em = 0 → c.RoomA s → exec (.tcolr d u col) s = .next (c.past (c.noneA s))) ∧
    (c.em ≠ 0 → c.grp.mq.length < 8 → c.RoomA s → exec (.tcolr d u col) s = .next (c.past (enqueue c
      (c.opA s [.vec d c.em (Lanes.splat 0) .g] (.matrix c.grp.nextOp) false) c.grp.nextOp (.tcolr u.toNat col.toNat) c.em (some c.grp.nextOp) false)))) ∧
  (Issuing .mfence c s → (c.g.sh = true → exec .mfence s = .next (c.past s)) ∧
    (c.g.sh = false → c.grp.mq ≠ [] → exec .mfence s = .next (c.waits s .mfence)) ∧
    (c.g.sh = false → c.grp.mq = [] → exec .mfence s = .next (c.past (c.mod s fun g =>
      ({ g with lastBatch := g.lastBatch + (if c.cl.issuedM then 1 else 0), mbat := g.lastBatch + (if c.cl.issuedM then 1 else 0),
                acquire := max g.acquire s.stepNo } : Group).modClause fun cl => { cl with issuedM := false })))) ∧
  (Issuing (.rprd d col) c s → col.toNat ≤ 4 →
    (∀ v : W64, c.g.sh = false → v = (if col = 0 then BitVec.ofNat 64 c.grp.rp else if col = 1 then BitVec.ofNat 64 (popc (s.fenced c.core (c.g.grp % 4)).toNat 16)
        else if col = 2 then BitVec.ofNat 64 c.grp.mq.length else if col = 3 then c.grp.lastBatch.setWidth 64 else c.grp.mbat.setWidth 64) →
      exec (.rprd d col) s = .next (c.scal (if c.shadowed then c.mod s fun g => { g with side := g.side ++ [v] } else s) d v)) ∧
    (∀ (ld : Group) (v : W64) (rest : List W64), c.g.sh = true → s.group? c.g.leader = some ld → ld.side = v :: rest →
      exec (.rprd d col) s = .next (c.scal (s.modGroup c.g.leader fun g => { g with side := g.side.drop 1 }) d v)))

/-- R196, R197, R207 to R210, R361: MATRIX_OP_COMPLETE carries out the operation at the head of a group's queue: what each tile operation
that reads no memory writes to the rows of its row set, in the buffer that CUR does not name; rows of a failed tile that it reads kill
their lanes and are left out; the entry then leaves the queue. -/
def Obligations.TileOperations : Prop := ∀ (s s0 s1 : State) (r : GRef) (c : Ctx) (m : MOp) (rest : List MOp) (bad rows : W32),
  s.input = some (.matrixOpComplete r 0 none) → s.ctxAt r 0 = some c → c.grp.mq = m :: rest → m.fault = none → m.migr = false → c.team.ended = false →
  c.team.ctx = .running → (s.subFence c.core (r.grp % 4)).whole = false → bad = c.grp.badRows m → rows = m.rows &&& ~~~ bad →
  s0 = (if bad = 0 then s else s.killLanes r bad 0) →
  ((∃ n k : Nat, m.what = .coll n k) → exec .matrixOpComplete s = .refused (.notEnabled "MATRIX_OP_COMPLETE")) ∧
  (∀ t : Nat, m.what = .tzero t → exec .matrixOpComplete s = .next ((s0.modGroup r fun g =>
    g.setTile t ((g.tile t).withRows rows fun _ => Lanes.splat 0) rows).modGroup r Group.popMatrix)) ∧
  (∀ (t n : Nat) (l : Lanes), m.what = .tcolw t n l → exec .matrixOpComplete s = .next ((s0.modGroup r fun g =>
    g.setTile t ((g.tile t).withRows rows fun i => Lanes.of fun j => if j = n then l.lane i else ((c.grp.tile t).row i).lane j) rows).modGroup r Group.popMatrix)) ∧
  (∀ (t : Nat) (col : Bool) (l : Lanes), m.what = .tscale t col l → exec .matrixOpComplete s = .next ((s0.modGroup r fun g =>
    g.setTile t ((g.tile t).withRows rows fun i => Lanes.of fun j => BitVec.ofNat 32 (f32.round 0 false false
      (Flo.mul (f32.dec false (((c.grp.tile t).row i).lane j).toNat) (f32.dec false (l.lane (if col then j else i)).toNat)))) rows).modGroup r Group.popMatrix)) ∧
  (∀ (t u f g : Nat) (gm : BitVec 16), m.what = .tcvt t u f g gm → exec .matrixOpComplete s = .next ((s0.modGroup r fun x =>
    x.setTile t ((x.tile t).withRows rows fun i => Lanes.of fun j =>
      BitVec.ofNat 32 (convertE gm f g (((c.grp.tileFor { m with rows := rows } u).row i).lane j).toNat)) rows).modGroup r Group.popMatrix)) ∧
  (∀ (t : Nat) (d : Desc), m.what = .tld t d → runTld c s0 { m with rows := rows } t d = .ok s1 →
    exec .matrixOpComplete s = .next (s1.modGroup r Group.popMatrix)) ∧
  (∀ (t : Nat) (d : Desc) (q : Nat) (z : Bool), m.what = .tst t d q z → runTst c s0 { m with rows := rows } t d q z = .ok s1 →
    exec .matrixOpComplete s = .next (s1.modGroup r Group.popMatrix)) ∧
  (∀ (t : Nat) (d : Desc) (code : Nat) (va : W64), m.what = .tld t d → runTld c s0 { m with rows := rows } t d = .error (.prot code va) →
    exec .matrixOpComplete s = .next (s0.trapMatrix c m code va)) ∧
  (∀ (x : Tile) (b : TileBuf), (x.store b).val = b ∧ (x.store b).committed = x.committed ∧ (x.store b).flip.committed = b ∧ (x.store b).undo.committed = x.committed)

/-! ### Flows (R241 to R264) -/

/-- R260: a leader's `fopen`, its record read and its areas writable, answers 2^63 + 1 for a bad record, the flow number again for the
end that the launch has opened with the same record, 2^63 + 2 for another's, and else opens the end and answers its number; a misaligned
record traps ALIGN, and a poisoned table of members ends the team with UNCORR (R361). That an end which is still CLOSING counts as open
is the model's choice (log entry 60). -/
def Obligations.FlowOpens : Prop := ∀ (s s1 s2 t : State) (c : Ctx) (d a : BitVec 8) (r : List Byte) (pl : Nat → Place) (e : FlowEnd) (rx : Bool)
    (mem : List W32) (po : W64 → Option Place), c.g.sh = false → Issuing (.fopen d a) c s →
  ((c.s a).toNat % 128 ≠ 0 → exec (.fopen d a) s = .next (c.traps s ALIGN (c.s a))) ∧
  (c.RoomA s → (c.s a).toNat % 128 = 0 → c.Reads s .scalarLoad (c.s a) 128 r s1 → (∀ x ∈ flowAreas r, isWindow x = false) →
    (∀ k < (flowAreas r).length, c.Reaches s1 .store 1 ((flowAreas r)[k]?.getD 0) (pl k)) → s2 = s1.touch c.bez c.core (flowAreas r) →
    po = (fun va => (List.range (flowAreas r).length).findSome? fun k => if (flowAreas r)[k]? == some va then some (pl k) else none) →
    rx = (match po (frRxobj r) with | some (.glob _ y _ _) => y | _ => false) →
    mem = (if frMcast r = true ∧ frMembers r ≠ 0 then (match po (frMembers r) with
      | some p => (List.range (frNmem r + 1)).map fun m => BitVec.ofNat 32 (leNat (s2.loadBytes c.g c.grp c.core (p.at (4 * m)) 4))
      | none => []) else []) →
    (∀ p, frMcast r = true → frMembers r ≠ 0 → po (frMembers r) = some p → s2.placePoisoned p = true →
      exec (.fopen d a) s = .next ((s2.checkPlaces c.handle [p]).terminate c.g 19 12 (frMembers r))) ∧
    ((∀ p, frMcast r = true → frMembers r ≠ 0 → po (frMembers r) = some p → s2.placePoisoned p = false) →
    (flowRecordBad r rx mem = true → exec (.fopen d a) s = .next (c.past (c.opA s2 [.scal (sdstNum d) (2 ^ 63 + 1)] .ready false))) ∧
    (flowRecordBad r rx mem = false → s2.flow? (frFlow r) = some e → exec (.fopen d a) s = .next (c.past (c.opA s2
      [.scal (sdstNum d) (if e.record = r ∧ e.handle = c.handle then BitVec.ofNat 64 (frFlow r) else 2 ^ 63 + 2)] .ready false))) ∧
    (flowRecordBad r rx mem = false → s2.flow? (frFlow r) = none → t = { s2 with flows := s2.flows ++ [{ num := frFlow r, bezel := c.bez.num, kslot := c.kern.slot, handle := c.handle, team := c.team.sid, tid := c.team.tid, key := c.key, record := r, members := mem, die := c.die }] } →
      exec (.fopen d a) s = .next (c.past (c.opA t [.scal (sdstNum d) (BitVec.ofNat 64 (frFlow r))] .ready false)))))

/-- R257, R261: a leader's `fsend` and `fmcast` name a send end of the launch, commit the task, draw their ticket and queue their command
at the end; where the counter is full the command waits for its ticket; with EM zero, and in a shadow, nothing is sent. -/
def Obligations.FlowSends : Prop := ∀ (s s1 s2 s3 t : State) (c : Ctx) (d a b : BitVec 8) (r : List Byte) (e : FlowEnd) (i : Instr) (ops : List W64)
    (m n : Nat) (o : Obj) (oc : Option Obj), i = .fsend d a b ∧ ops = [c.s d, c.s a, c.s b] ∨ i = .fmcast d a b ∧ ops = [c.s d, c.s (d + 1), c.s a, c.s b] →
  Issuing i c s →
  (c.em = 0 → c.g.sh = true ∨ c.RoomB s → exec i s = .next (c.past (sign c s ops))) ∧
  (c.em ≠ 0 → c.g.sh = true → c.MayCommit s → exec i s = .next (c.past (sign c (c.commit s false) ops))) ∧
  (c.em ≠ 0 → c.g.sh = false → (c.s a).toNat % 64 ≠ 0 → exec i s = .next (c.traps s ALIGN (c.s a))) ∧
  (c.em ≠ 0 → c.g.sh = false → c.RoomB s → (c.s a).toNat % 64 = 0 → c.Reads s .scalarLoad (c.s a) 64 r s1 →
    n = bits (dword r 24).toNat 47 32 → c.myFlow s1 (BitVec.ofNat 64 n) = some e → e.isRecv = false → e.live = true → shapeBad r (c.s b) = false →
    (shapeRec r).scatter = false → (shapeRec r).count * (shapeRec r).esize % widthBytes (frWidth e.record) = 0 →
    (shapeRec r).count * (shapeRec r).esize ≤ 256 * frWin e.record → bits (dword r 24).toNat 59 48 < frWin e.record →
    (shapeRec r).src.toNat % (shapeRec r).esize = 0 → ((shapeRec r).str 1).toNat % (shapeRec r).esize = 0 →
    ((shapeRec r).str 2).toNat % (shapeRec r).esize = 0 →
    (i = .fsend d a b ∧ m = e.memberNos.foldl (fun x k => x + 2 ^ k) 0 ∨ i = .fmcast d a b ∧ m = (c.s (d + 1)).toNat ∧ frMcast e.record = true ∧
      0 < m ∧ m < 2 ^ 16 ∧ m < 2 ^ (frNmem e.record + 1)) →
    (c.s d = 0 ∧ s2 = s1 ∧ oc = none ∨ c.s d ≠ 0 ∧ c.Counter s1 .sync (c.s d) o s2 ∧ oc = some o) →
    c.MayCommit s2 → s3 = (c.commit s2 false).publish c.g c.core 3 → c.RoomB s3 →
    (∀ y, oc = none ∧ t = c.opB s3 .event ∧ y = c.issuer (some (c.nextOp s3)) none ∨
        (∃ k, oc = some o ∧ (c.opB s3 .event).drawInTurn c.g o c.handle = .ticket k t ∧ y = c.issuer (some (c.nextOp s3)) (some (o, k))) →
      exec i s = .next (c.past (sign c (t.modFlow n fun x => { x with queue := x.queue ++ [.send r (c.s b) m y] }) ops))) ∧
    (oc = some o → (c.opB s3 .event).drawInTurn c.g o c.handle = .wait → ∃ y : Issuer, y.drawn = false ∧ y.ctr = some (o, 0) ∧ y.op = some (c.nextOp s3) ∧
      exec i s = .next (c.past (sign c (c.mod ((c.opB s3 .event).modFlow n fun x => { x with queue := x.queue ++ [.send r (c.s b) m y] })
        fun g => g.resolve (c.nextOp s3) id (.draw o (.flow n) 33)) ops))))

/-- R262, R264: `freseed` and `fclose` of an end of the launch are held with the task, and trap PROT where the launch has no such end, or one that is not in the state that they require (R245, R259);
with EM zero, for an end that is closing or that the launch has closed, they complete at once; `fstat` reads the end, and 0 where the
launch has none. A shadow only signs (R97, R98). -/
def Obligations.FlowControl : Prop := ∀ (s : State) (c : Ctx) (d a f : BitVec 8) (e : FlowEnd),
  (Issuing (.freseed a) c s → (c.g.sh = true → exec (.freseed a) s = .next (c.past (sign c s [c.s a]))) ∧
    (c.g.sh = false → c.RoomB s → (c.em = 0 → exec (.freseed a) s = .next (c.past (sign c s [c.s a]))) ∧
      (c.em ≠ 0 → c.myFlow s (c.s a) = some e → e.isRecv = false → e.live = true →
        exec (.freseed a) s = .next (c.past (sign c (c.held s (.freseed e.num c.handle)) [c.s a]))) ∧
      (c.em ≠ 0 → c.myFlow s (c.s a) = some e → e.isRecv = true ∨ e.live = false → exec (.freseed a) s = .next (c.traps s PROT (c.s a))) ∧
      (c.em ≠ 0 → c.myFlow s (c.s a) = none → exec (.freseed a) s = .next (c.traps s PROT (c.s a))))) ∧
  (Issuing (.fclose a) c s → (c.g.sh = true → exec (.fclose a) s = .next (c.past (sign c s [c.s a]))) ∧
    (c.g.sh = false → c.RoomB s → (c.em = 0 → exec (.fclose a) s = .next (c.past (sign c s [c.s a]))) ∧
      (c.em ≠ 0 → c.myFlow s (c.s a) = some e → exec (.fclose a) s = .next
        (if e.st = .closing then c.past (sign c s [c.s a]) else if e.live then c.past (sign c (c.held s (.fclose e.num c.handle)) [c.s a])
         else c.traps s PROT (c.s a))) ∧
      (c.em ≠ 0 → c.myFlow s (c.s a) = none → exec (.fclose a) s = .next
        (if c.kern.closed.contains (c.s a).toNat then c.past (sign c s [c.s a]) else c.traps s PROT (c.s a))))) ∧
  (Issuing (.fstat d a f) c s → c.g.sh = false → c.RoomA s → exec (.fstat d a f) s = .next (c.past (c.opA s [.scal (sdstNum d)
    (match c.myFlow s (c.s a) with | some e => e.stat f.toNat | none => 0)] .ready false)))

/-- R245, R253, R255, R256, R258, R261, R262: the steps of the link engines at a send end: the next command begins, each chunk of a transfer
is read and sent to the members that the transfer has not ended for, its trailer follows, and an end that was stopped at a chunk boundary goes on from there; an acknowledgement of its last
member ends it; a NACK is acted on; the backoff of ABSENT resends; a closing end with nothing outstanding goes. -/
def Obligations.FlowSendEvents : Prop := ∀ (s : State) (n m : Nat) (f : FlowEnd) (t : Transfer) (q : W32) (r : List Byte) (x : W64) (k : Nat) (y : Issuer),
  s.flow? n = some f →
  (∀ op g rest, s.input = some (.transferStart n) → f.isRecv = false → f.cur = none → f.st = .opened →
    f.queue = .reseed op g :: rest → ∃ u, exec .transferStart s = .next u ∧
      ∀ m ∈ f.memberNos, .reseed (f.peer m).1 (f.peer m).2.1 (f.peer m).2.2 s.devId n ∈ u.net) ∧
  (∀ rest p, s.input = some (.transferStart n) → f.isRecv = false → f.cur = none → f.st = .opened →
    f.queue = .send r x k y :: rest → y.drawn = true → p = (shapeRec r).count * (shapeRec r).esize →
    exec .transferStart s = .next (State.sendAll n ((p + 255) / 256 + 1) (s.modFlow n fun f => { f with queue := rest, cur := some { cmd := .send r x k y, seq := f.lastSeq + 1, waiting := f.memberNos.filter k.testBit, payload := p } }))) ∧
  (f.cur = some t → t.cmd = .send r x k y → t.trailer = false → f.st ≠ .suspended → s.flowParked f (fun _ => true) = false →
    (∀ data slot, slot = (bits (dword r 24).toNat 59 48 + t.sent) % frWin f.record → 256 * t.sent < t.payload → (f.repeat_ = true → (f.slot slot).bad = false) →
      s.gatherChunk f y (shapeRec r) ((((shapeRec r).elems x).drop (256 / (shapeRec r).esize * t.sent)).take (256 / (shapeRec r).esize)) = .ok (.ok data) →
      s.sendNext n = some (s.sendChunk n t.waiting slot data)) ∧
    (s.input = some (.transferStart n) → t.payload ≤ 256 * t.sent → t.nacks = [] → ∃ u, exec .transferStart s = .next u ∧
      (∃ e, u.flow? n = some e ∧ e.cur = some { t with trailer := true, nacks := [] }) ∧
      ∀ m ∈ t.waiting, .trailer (f.peer m).1 (f.peer m).2.1 (f.peer m).2.2 s.devId n t.check t.seq ∈ u.net)) ∧
  (s.input = some (.ackArrival n m q false) → f.isRecv = false → m ∈ f.memberNos → (f.peer m).1 ≠ s.devId →
    (∀ x ∈ s.net, ∀ d i l a b p r, x ≠ .ack d i l a b p r) → f.cur = some t → t.cmd = .send r x k y → t.seq = q → t.waiting = [m] →
    exec .ackArrival s = .next ((s.modFlow n fun f => { f with cur := some { t with waiting := [], nacks := t.nacks.filter fun x => x.1 != m, backoff := t.backoff.filter fun x => x.1 != m } }).finishSend n)) ∧
  (∀ slots all, s.input = some (.nackArrival n m q slots all) → f.isRecv = false → m ∈ f.memberNos → (f.peer m).1 ≠ s.devId →
    (∀ x ∈ s.net, ∀ d i l a b p r v, x ≠ .nack d i l a b p r v) → f.cur = some t → m ∈ t.waiting → t.seq = q → f.st = .opened → t.trailer = true →
    exec .nackArrival s = .next (s.takeNack n m slots all)) ∧
  (∀ slots d, s.input = some (.absentRetryTimer n m) → f.cur = some t → f.st = .opened →
    t.backoff.find? (fun b => b.1 == m) = some (m, some slots, d) → exec .absentRetryTimer s = .next ((s.modFlow n fun f => { f with cur := some { t with backoff := (m, none, d) :: t.backoff.filter fun b => b.1 != m } }).resend n m slots)) ∧
  (s.input = some (.flowCloseComplete n) → f.st = .closing → f.cur = none → f.queue = [] →
    ∃ u, exec .flowCloseComplete s = .next u ∧ u.flow? n = none)

/-- R243, R244, R254 to R256, R260, R262: the steps of the link engines at a receive end: a chunk or a trailer for a number that is no
receive end answers GONE; one of a wrong source is recorded and discarded, and one whose header check fails is discarded; a chunk of the
expected generation lands whole in its sector; a trailer that agrees completes the transfer; RESEED empties the mirror. -/
def Obligations.FlowReceiveEvents : Prop := ∀ (s : State) (n sd sf : Nat) (f : FlowEnd) (hdr : W64) (body : List Byte) (q ck : W32),
  sd ≠ s.devId → (∀ x ∈ s.net, (∀ d i l p h y, x ≠ .chunk d i l sd p h y) ∧ (∀ d i l p h y, x ≠ .trailer d i l sd p h y) ∧
      ∀ d i l p, x ≠ .reseed d i l sd p) →
  (s.input = some (.chunkArrival n sd sf hdr body) → (∀ f, s.flow? n = some f → f.isRecv = false) →
    exec .chunkArrival s = .next (s.answerGone n sd sf 0)) ∧
  (s.input = some (.trailerArrival n sd sf ck q) → (∀ f, s.flow? n = some f → f.isRecv = false) →
    exec .trailerArrival s = .next (s.answerGone n sd sf q)) ∧
  (s.flow? n = some f → f.isRecv = true →
    (s.input = some (.chunkArrival n sd sf hdr body) → headerCrc hdr ≠ hdr.setWidth 8 → exec .chunkArrival s = .next s) ∧
    (s.input = some (.trailerArrival n sd sf ck q) → sd ≠ frPdev f.record → exec .trailerArrival s = .next (s.wrongSource f 0x0300 sd sf)) ∧
    (s.input = some (.trailerArrival n sd sf ck q) → sd = frPdev f.record → sf = frPflow f.record → f.st ≠ .suspended → f.dead = true →
      exec .trailerArrival s = .next ((s.modFlow n fun f => { f with coded := f.coded + 8 }).deadGone f q)) ∧
    (s.input = some (.trailerArrival n sd sf ck q) → sd = frPdev f.record → sf = frPflow f.record → f.st = .opened → f.dead = false →
      f.completes ck = true → frRxobj f.record = 0 → s.flowParked f (· == 0) = false → ∃ u e, exec .trailerArrival s = .next u ∧ u.flow? n = some e ∧ e.ackDue = some q ∧
        e.lastSeq = q ∧ e.accepted = [] ∧ e.st = .opened) ∧
    (s.input = some (.chunkArrival n sd sf hdr body) → headerCrc hdr = hdr.setWidth 8 → bits hdr.toNat 19 18 < 3 → bits hdr.toNat 17 16 < 3 →
      sd = frPdev f.record → sf = frPflow f.record → f.st = .opened → f.dead = false → bits hdr.toNat 47 36 < frWin f.record → f.repeat_ = false →
      s.flowParked f (· == f.landVa (bits hdr.toNat 47 36)) = false →
      (∀ s1, s.landFault f (f.landVa (bits hdr.toNat 47 36)) (.chunk s.devId 0 n sd sf hdr body) = none →
        (s.modFlow n fun f => { f with coded := f.coded + BitVec.ofNat 64 (8 + body.length) }).acceptChunk f hdr body = some s1 →
        exec .chunkArrival s = .next s1) ∧
      (∀ pa ow sy len, s.flowTr f .store (f.landVa (bits hdr.toNat 47 36)) = .ok pa sy ow → s.recallWaits (pa / 256) = false →
        bits hdr.toNat 19 18 = 1 → len = bits hdr.toNat 15 8 + 1 → s.MemOk → ∃ u, exec .chunkArrival s = .next u ∧ ∀ j < 256,
          memByte u.mem (256 * (pa / 256) + j) = ((body ++ List.replicate len 0).take len)[j]?.getD 0)) ∧
    (s.input = some (.reseedArrival n sd sf) → f.dead = false → sd = frPdev f.record → sf = frPflow f.record → f.st ≠ .suspended →
      exec .reseedArrival s = .next ((s.modFlow n fun f => { f with slots := [], spoiled := false, st := .reseeding }).post
        (.ack (frPdev f.record) (frPdie f.record) (frPflow f.record) s.devId f.num 0 true))))

/-! ### Rings, the collective and expert routing (R265 to R280) -/

/-- R270, R271, R277: `cring` and `xtable` are held with the version once their records have passed, `xtable` with the image read at the
issue (log entry 55); `cring` of a ring that is not configured traps PROT; `tcopy` commits and queues its line with the engine, waits for
the stores of its group to other devices, and traps RANK on a rank that the ring does not have. A shadow only signs, and commits where
its leader does (R97, R98). -/
def Obligations.RingInstructions : Prop := ∀ (s s1 s2 s3 t : State) (c : Ctx) (d a b : BitVec 8) (n : BitVec 3) (r image : List Byte)
    (pages : List W64) (pl : Nat → Place) (o : Obj) (ring : Ring),
  (c.g.sh = false → c.RoomB s → Issuing (.cringCfg a n) c s → (c.s a).toNat % 64 = 0 → c.Reads s .scalarLoad (c.s a) 64 r s1 →
    (dword r 8).toNat % 1024 = 0 → (dword r 24).toNat % 32 = 0 → (dword r 16).toNat % 16 = 0 → ringRecordBad r = false →
    pages = areaPages (dword r 8) (1024 * (bits (dword r 0).toNat 7 0 + 1)) → (∀ x ∈ pages, isWindow x = false) →
    (∀ k < pages.length, c.Reaches s1 .store 1 (pages[k]?.getD 0) (pl k)) → s2 = s1.touch c.bez c.core pages →
    (∀ x ∈ pages, plainPage s2 c x = true) → c.Counter s2 .sync (dword r 24) o s3 →
    (c.team.ring? n.toNat = none → ∀ pas, pas = (List.range (4 * (bits (dword r 0).toNat 7 0 + 1))).map
        (fun i => s3.paOf c.bez c.core c.key (dword r 8 + BitVec.ofNat 64 (256 * i)).toNat) →
      exec (.cringCfg a n) s = .next (c.past (sign c (c.held s3 (.cring 0 n.toNat (c.s a) r o pas)) [c.s a]))) ∧
    (c.team.ring? n.toNat = some ring → exec (.cringCfg a n) s = .next (c.traps s PROT o.va))) ∧
  (∀ i k, i = .cringRel a n ∧ k = 1 ∨ i = .cringClose a n ∧ k = 2 → c.g.sh = false → Issuing i c s →
    (c.team.ring? n.toNat = none → exec i s = .next (c.traps s PROT 0)) ∧
    (c.team.ring? n.toNat = some ring → c.RoomB s → exec i s = .next (c.past (sign c (c.held s (.cring k n.toNat (c.s a) [] (.stash 0 0 0) [])) [c.s a])))) ∧
  (c.g.sh = false → c.RoomB s → Issuing (.xtable a) c s → (c.s a).toNat % 64 = 0 → c.Reads s .scalarLoad (c.s a) 64 r s1 →
    bits (dword r 0).toNat 15 12 = 0 → bits (dword r 0).toNat 63 28 = 0 → (∀ x ∈ slice r 8 56, x = 0) →
    bits (dword r 0).toNat 11 0 + bits (dword r 0).toNat 27 16 + 1 ≤ 4096 → c.Pieces s1 (c.s a + 64) (bits (dword r 0).toNat 27 16 + 1) image s2 →
    exec (.xtable a) s = .next (c.past (sign c (c.held s2 (.xtable image (dword r 0))) [c.s a]))) ∧
  (Issuing (.tcopy d a b) c s → c.em = 0 → c.g.sh = true ∨ c.RoomB s → exec (.tcopy d a b) s = .next (c.past (sign c s [c.s d, c.s a, c.s b]))) ∧
  (Issuing (.tcopy d a b) c s → c.em ≠ 0 → (c.s a).toNat < 2 ^ 15 → 0 < (c.s b).toNat → (c.s b).toNat < 2 ^ 32 → (c.s d).toNat % 256 = 0 →
    c.team.ring? ((c.s a).toNat / 2 ^ 12) = some ring → ring.mode = false →
    (ring.ranks ≤ (c.s a).toNat % 2 ^ 12 → exec (.tcopy d a b) s = .next (c.traps s RANK 0)) ∧
    ((c.s a).toNat % 2 ^ 12 < ring.ranks → c.MayCommit s → s1 = c.commit s false → c.g.sh = true →
      exec (.tcopy d a b) s = .next (c.past (sign c s1 [c.s d, c.s a, c.s b]))) ∧
    ((c.s a).toNat % 2 ^ 12 < ring.ranks → c.MayCommit s → c.RoomB s → s1 = (c.commit s false).publish c.g c.core 3 → c.g.sh = false →
      (s1.hasPosted c.g ring.scope = true → exec (.tcopy d a b) s = .next (c.waits s1 (.posted ring.scope))) ∧
      (s1.hasPosted c.g ring.scope = false → c.RoomB s1 → t = c.opB s1 (.engine s1.nextCmd) →
        exec (.tcopy d a b) s = .next (c.past (sign c { t with cmds := t.cmds ++ [{ id := t.nextCmd, by_ := c.issuer (some (c.nextOp s1)) none, what := .tcopy (c.s d) ((c.s a).toNat / 2 ^ 12) ((c.s a).toNat % 2 ^ 12) (c.s b).toNat }], nextCmd := t.nextCmd + 1 }
          [c.s d, c.s a, c.s b]))))) ∧
  (∀ i ops, c.g.sh = true → i = .cringCfg a n ∧ ops = [c.s a] ∨ i = .cringRel a n ∧ ops = [c.s a] ∨ i = .cringClose a n ∧ ops = [c.s a] ∨
    i = .xtable a ∧ ops = [c.s a] → Issuing i c s → exec i s = .next (c.past (sign c s ops)))

/-- R267, R272 to R274, R278, R279: `coll` of a contributing group is an entry of its matrix queue, and waits where the queue is full; of
the communication group (log entry 54) it waits while the ring's collective object is not idle, and else starts the ring's collective and
posts its descriptor to every rank of this device; `xroute` draws its ticket, commits and queues its command, which waits where the
counter is full. A shadow commits and signs (R97, R98). -/
def Obligations.CollectiveInstructions : Prop := ∀ (s s1 s2 s3 s4 t : State) (c : Ctx) (d a b : BitVec 8) (r : List Byte) (pl : Nat → Place)
    (o : Obj) (ring : Ring) (pas : List Nat) (areas : List W64) (desc : CollDesc),
  (Issuing (.coll d a b) c s → c.g.sh = true → c.MayCommit s → exec (.coll d a b) s = .next (c.past (sign c (c.commit s false) [c.s a, c.s b]))) ∧
  (∀ g : Group, Issuing (.coll d a b) c s → c.g.sh = false → isComm s c d (c.s a) = false → d.toNat < c.grp.t.length → c.RoomB s → c.MayCommit s →
    s1 = c.commit s false → s1.group? c.g = some g →
    (8 ≤ g.mq.length → exec (.coll d a b) s = .next (c.waits s1 .queue)) ∧
    (g.mq.length < 8 → s2 = s1.publish c.g c.core 3 → c.RoomB s2 →
      exec (.coll d a b) s = .next (c.past (sign c (c.mod (enqueue c (c.opB s2 .event) (c.nextOp s2) (.coll d.toNat (g.colls + 1)) 0xFFFFFFFF
        (some (c.nextOp s2)) false) fun x => { x with colls := x.colls + 1 }) [c.s a, c.s b])))) ∧
  (Issuing (.coll d a b) c s → c.g.sh = false → isComm s c d (c.s a) = true → c.RoomB s → d = 0 → (c.s a).toNat % 64 = 0 → c.Reads s .scalarLoad (c.s a) 64 r s1 →
    crRole r = c.grp.role → (crStat r).toNat % 8 = 0 → (crOut r).toNat % 4096 = 0 → bits (dword r 0).toNat 63 28 = 0 → bits (dword r 0).toNat 15 10 = 0 →
    dword r 8 = 0 → (∀ x ∈ slice r 32 32, x = 0) → crFunc r < 5 → roleGroups (recRole c.kern.record c.grp.role) = 1 → c.team.ring? (crRing r) = some ring →
    crRoot r < ring.ranks → (crFunc r = 1 ∨ crFunc r = 4 → (recGroups c.kern.record - 1) % ring.ranks = 0) → ring.mode = true →
    areas = (if crFunc r = 2 ∧ ring.ranks * (recGroups c.kern.record - 1) ≠ 0 then areaPages (crOut r) (ring.ranks * (recGroups c.kern.record - 1) * 4096) ++
        [crOut r + BitVec.ofNat 64 (ring.ranks * (recGroups c.kern.record - 1) * 4096 - 1)] else []) ++ (if crStat r = 0 then [] else [crStat r]) →
    (∀ k < areas.length, c.Reaches s1 .store 1 (areas[k]?.getD 0) (pl k)) → c.Peers (s1.touch c.bez c.core areas) ring pas s2 → c.Object s2 .store (c.s b) o s3 →
    (ring.coll.st ≠ .idle → exec (.coll d a b) s = .next (c.waits s3 .none)) ∧
    (ring.coll.st = .idle → c.MayCommit s3 → s4 = (c.commit s3 false).publish c.g c.core 3 → c.RoomB s4 →
      desc = { seq := ring.coll.seq + 1, func := crFunc r, int := crInt r, root := crRoot r, groups := recGroups c.kern.record - 1, ranks := ring.ranks } →
      t = ((c.opB s4 .event).modTeam c.team.sid fun x => x.modRing (crRing r) fun y =>
        { y with coll := { y.coll with st := .matching, seq := ring.coll.seq + 1, order := c.grp.colls + 1, commGrp := c.grp.num, own := desc, tiles := [], out := crOut r, stat := crStat r, done := some o, pas := pas } }) →
      exec (.coll d a b) s = .next (c.past (sign c (c.mod (pas.foldl (fun s pa => if pa / 2 ^ 43 = s.devId then s.post (.desc pa ring.rank desc) else s) t)
        fun g => { g with colls := g.colls + 1, collOp := c.nextOp s4, life := .collective, inSet := false }) [c.s a, c.s b])))) ∧
  (Issuing (.xroute d a b) c s → c.em = 0 → c.g.sh = true ∨ c.RoomB s → exec (.xroute d a b) s = .next (c.past (sign c s [c.s d, c.s a, c.s b]))) ∧
  (Issuing (.xroute d a b) c s → c.em ≠ 0 → c.g.sh = true → c.MayCommit s →
    exec (.xroute d a b) s = .next (c.past (sign c (c.commit s false) [c.s d, c.s a, c.s b]))) ∧
  (∀ (p : Place) (oc : Option Obj), Issuing (.xroute d a b) c s → c.em ≠ 0 → c.g.sh = false → (c.s a).toNat % 64 = 0 → c.RoomB s → c.Reads s .scalarLoad (c.s a) 64 r s1 →
    (rrSrc r).toNat % 256 = 0 → (rrExperts r).toNat % 2 = 0 → (rrTokens r).toNat % 4 = 0 → (rrSpill r).toNat % 32 = 0 → (c.s b).toNat % 8 = 0 →
    routeRecordBad r = false → c.Reaches s1 .store 8 (c.s b) p → s2 = s1.touch c.bez c.core [c.s b] →
    (d = 0xF0 ∧ s3 = s2 ∧ oc = none ∨ d ≠ 0xF0 ∧ c.Counter s2 .sync (c.s d) o s3 ∧ oc = some o) →
    c.MayCommit s3 → s4 = (c.commit s3 false).publish c.g c.core 3 → c.RoomB s4 →
    (∀ y, oc = none ∧ t = c.opB s4 (.engine s4.nextCmd) ∧ y = c.issuer (some (c.nextOp s4)) none ∨
        (∃ k, oc = some o ∧ (c.opB s4 (.engine s4.nextCmd)).drawInTurn c.g o c.handle = .ticket k t ∧ y = c.issuer (some (c.nextOp s4)) (some (o, k))) →
      exec (.xroute d a b) s = .next (c.past (sign c { t with cmds := t.cmds ++ [{ id := t.nextCmd, by_ := y, what := .xroute r (c.s b) {} }], nextCmd := t.nextCmd + 1 } [c.s d, c.s a, c.s b]))) ∧
    (oc = some o → t = c.opB s4 (.engine s4.nextCmd) → t.drawInTurn c.g o c.handle = .wait →
      ∃ y : Issuer, y.drawn = false ∧ y.ctr = some (o, 0) ∧ y.op = some (c.nextOp s4) ∧
        exec (.xroute d a b) s = .next (c.past (sign c (c.mod { t with cmds := t.cmds ++ [{ id := t.nextCmd, by_ := y, what := .xroute r (c.s b) {} }], nextCmd := t.nextCmd + 1 }
          fun g => g.resolve (c.nextOp s4) id (.draw o (.cmd t.nextCmd) 33)) [c.s d, c.s a, c.s b]))))

/-- R235, R269, R271, R273, R274, R279: a line with credit is written by its engine with its tag, as far as its sectors have not been
written one by one before, an engine command that lacks credit is not;
RING_LINE_REPORT counts the lines that have arrived in order; a descriptor is recorded for its rank, and the last one starts the collective
where all agree; the entry at the head of a group's queue reads its tile, and leaves where its collective ended with MISMATCH; a completed
collective puts its result in the tile of every contributing group and ends with status 0 at its rank; a claim takes a row of the capacity
object or answers FULL, and the reply delivers the row, tries the next replica, or drops the packet. -/
def Obligations.CollectiveEvents : Prop := ∀ (s s1 t : State) (id sid n rank pa dep : Nat) (ring : Ring) (tm : Team) (g : GRef) (gr : Group) (k : Kernel)
    (b : Bezel) (cmd : Cmd) (va : W64) (u : Nat) (bad : Bool),
  (∀ (src dst : W64) (e : List Byte) (sync : Bool) (ow : Nat) (x : W64) (sp dp : Nat → Place), s.input = some (.tcopyCreditGrant id) → s.cmd? id = some cmd →
    cmd.what = .tcopy src n rank u → s.owner? cmd.by_ = some (tm, k, b) → cmd.fault = none → cmd.migr = false → cmd.stopped = false → tm.ring? n = some ring →
    s.engineRead tm k b cmd.by_.since (ring.peers + BitVec.ofNat 64 (16 * rank)) 16 = .ok (e, false) →
    s.enginePlace tm k b .sync (dword e 8) = .ok (.glob pa sync ow x) → s.ringOpen pa = true → dep = (memByte s.mem (pa + 12)).toNat + 1 →
    dst = dword e 0 + BitVec.ofNat 64 (1024 * ((u - 1) % dep)) →
    ((BitVec.ofNat 32 (leNat (memBytes s.mem (pa + 4) 4)) - (BitVec.ofNat 32 u - BitVec.ofNat 32 dep)).getLsbD 31 = false →
      (∀ i < 4, s.enginePlace tm k b .engine (src + BitVec.ofNat 64 (256 * i)) = .ok (sp i) ∧ isWindow (dst + BitVec.ofNat 64 (256 * i)) = false ∧
        s.enginePlace tm k b .store (dst + BitVec.ofNat 64 (256 * i)) = .ok (dp i)) →
      exec .tcopyCreditGrant s = .next ((s.writeLine cmd u ((List.range 4).map fun i => (sp i, dp i))).endLine cmd n) ∧
      (cmd.written = [] → s.writeLine cmd u ((List.range 4).map fun i => (sp i, dp i)) =
        (List.range 4).foldl (fun s i => s.writeLineSector cmd.by_ (lineTag u) (sp i, dp i)) s)) ∧
    ((BitVec.ofNat 32 (leNat (memBytes s.mem (pa + 4) 4)) - (BitVec.ofNat 32 u - BitVec.ofNat 32 dep)).getLsbD 31 = true →
      exec .tcopyCreditGrant s = .refused (.notEnabled "TCOPY_CREDIT_GRANT"))) ∧
  (s.input = some (.ringLineReport sid n) → s.team? sid = some tm → tm.ring? n = some ring → s.objMoving ring.ctrl = false →
    (s.lineHere ring ((s.objPhase ring.ctrl).toNat + 1) = true → exec .ringLineReport s = .next (State.countLines tm.core ring ring.depth s)) ∧
    (s.lineHere ring ((s.objPhase ring.ctrl).toNat + 1) = false → exec .ringLineReport s = .refused (.notEnabled "RING_LINE_REPORT"))) ∧
  (∀ (desc : CollDesc) (own ow from_ : Nat) (x : W64), s.input = some (.descriptorReceive sid n rank desc) → s.team? sid = some tm → tm.ctx = .running → tm.ended = false →
    tm.ring? n = some ring → s.kernel? tm.bezel tm.kslot = some k → s.bezel? tm.bezel = some b → ring.mode = true → rank < ring.ranks → b.collJoined sid n = false → ring.coll.migr = false →
    ring.ctrl = .glob own x ow →
    ring.coll.pas[rank]? = some from_ ∨ ring.coll.pas[rank]? = none ∧ s.peerPa tm k b ring rank = some from_ → s.takeMsg (from_ / 2 ^ 43 == s.devId) (· == .desc own rank desc) = some s1 →
    (ring.coll.st ≠ .matching → exec .descriptorReceive s = .next (s1.modTeam sid fun x => x.modRing n fun y => { y with coll := { y.coll with descs := y.coll.descs ++ [(rank, desc)] } })) ∧
    (∀ l, ring.coll.st = .matching → ({ ring.coll with descs := ring.coll.descs ++ [(rank, desc)] } : Coll).descSet ring.ranks = some l → (∀ d ∈ l, d = ring.coll.own) →
      exec .descriptorReceive s = .next (s1.modTeam sid fun x => x.modRing n fun y =>
        { y with coll := { y.coll with descs := dropFirsts (y.coll.descs ++ [(rank, desc)]), st := .running } }))) ∧
  (∀ ti order m rest, s.input = some (.contribEntryHead g) → s.team? g.team = some tm → s.group? g = some gr → gr.mq = m :: rest → m.what = .coll ti order →
    m.read = false → tm.ctx = .running → tm.ended = false →
    (tm.collSkip.contains order = true → m.op = some id → exec .contribEntryHead s = .next (s.modGroup g fun x => x.popMatrix.dropOp id)) ∧
    (tm.collSkip.contains order = false → (tm.rings.find? fun r => r.coll.st == .running && r.coll.order == order) = some ring →
      ((gr.t[ti]?.getD {}).bad ≠ 0 → exec .contribEntryHead s = .next (s.terminate g 19 12 0)) ∧
      ((gr.t[ti]?.getD {}).bad = 0 → exec .contribEntryHead s = .next ((s.modTeam tm.sid fun x => x.modRing ring.n fun y =>
        { y with coll := { y.coll with tiles := y.coll.tiles ++ [(g.grp, (gr.t[ti]?.getD {}).committed)] } }).modGroup g fun x =>
          { x with mq := modAt x.mq 0 fun h => { h with read := true } }))) ∧
    (tm.collSkip.contains order = false → (tm.rings.find? fun r => r.coll.st == .running && r.coll.order == order) = none →
      exec .contribEntryHead s = .refused (.notEnabled "CONTRIB_ENTRY_HEAD"))) ∧
  (∀ given mine all stat, s.input = some (.collectiveComplete sid n given) → s.team? sid = some tm → tm.ctx = .running → tm.ended = false → tm.ring? n = some ring →
    s.kernel? tm.bezel tm.kslot = some k → s.bezel? tm.bezel = some b → b.collJoined sid n = false → ownTiles tm ring.coll = some mine → ring.coll.st = .running → ring.coll.migr = false →
    s.objHeld ring.coll.done = false → ring.coll.own.func ≠ 2 →
    (ring.coll.stat = 0 ∧ stat = none ∨ ring.coll.stat ≠ 0 ∧ ∃ p, s.enginePlace tm k b .store ring.coll.stat = .ok p ∧ stat = some p) →
    ring.coll.pas.zipIdx.mapM (fun (p : Nat × Nat) => if p.2 = ring.rank then some mine else peerTiles s ring given p.2 p.1) = some all →
    ∃ v : State, exec .collectiveComplete s = .next (v.collFinish tm k n 0 ring stat) ∧ v.mem = s.mem ∧
      ∀ j h x, (contributors tm ring.coll)[j]? = some h → s.group? { team := sid, grp := h } = some x → v.group? { team := sid, grp := h } = some
        (match collResult ring.coll.own ring.rank j fun q h => (all[q]?.getD [])[h]?.getD TileBuf.zero with
          | some res => x.putResult ring.coll.order res
          | none => x)) ∧
  (∀ e t' x, collResult { seq := 0, func := 0, int := e, root := 0, groups := 1, ranks := 2 } x 0 t' =
    some (reduceTiles e [t' 0 0, t' 1 0])) ∧
  (∀ (o : Obj) (v : State) (claimed cap : Nat) (h : W64) (rep : Option Nat), v = s.atHome o → v.objKind o = 4 → claimed = (v.objW o 0).toNat →
    cap = (v.objW o 4).toNat →
    (claimed < cap → (s.claimAt o rep h).1 = v.objWrite o 0 (leBytes (claimed + 1) 4) ∧ (s.claimAt o rep h).2.row = some claimed ∧
      (s.claimAt o rep h).2.load = min 65535 ((claimed + 1) * 65536 / cap)) ∧
    (cap ≤ claimed → (s.claimAt o rep h).1 = v ∧ (s.claimAt o rep h).2.row = none ∧ (s.claimAt o rep h).2.load = 65535)) ∧
  (∀ r stat x w, s.route? id = some (cmd, r, stat, x, tm, k, b) → x.packet < rrCount r → s.expertWord tm k b cmd.by_.since r x.packet = .ok (w, bad) → bad = false →
    (∀ rep p po, s.input = some (.capacityClaim id) → x.claim = none → w < 2 ^ 12 → rep = nextReplica b.switch (x.entry.getD (b.switch.filter fun e => e.expert == w)) x.tried →
      va = (match rep with | some e => e.ctr | none => rrSpill r) → isWindow va = false → s.enginePlace tm k b .store va = .ok p → s.homePlace p = (s1, pa, po) →
      exec .capacityClaim s = .next ((s1.claimAt (.glob pa va po) (rep.map (·.k)) cmd.by_.handle).1.setRoute id fun y =>
        { y with entry := some (x.entry.getD (b.switch.filter fun e => e.expert == w)), tried := (match rep with | some e => e.k :: x.tried | none => x.tried),
                 claim := some (s1.claimAt (.glob pa va po) (rep.map (·.k)) cmd.by_.handle).2 })) ∧
    (∀ cl, s.input = some (.claimReply id) → x.claim = some cl →
      (∀ rp, cl.row = none → cl.replica = some rp → exec .claimReply s = .next ((s.takeLoad b.num (w % 4096) cl).setRoute id fun y => { y with claim := none })) ∧
      (∀ row ws, cl.row = some row → cmd.stopped = false → cmd.written = [] → (s.takeLoad b.num (w % 4096) cl).routeRow tm k b cmd.by_.since r x cl row = .ok (ws, false) →
        (((ws.foldl (fun s p => s.engineSector cmd.by_ [p] false) (s.takeLoad b.num (w % 4096) cl)).modCmd id fun y => { y with written := [] }).setRoute id fun y =>
          if cl.replica.isSome then { y.next with delivered := y.delivered + 1 } else { y.next with spilled := y.spilled + 1 }).routeEnd id = some t →
        exec .claimReply s = .next t)) ∧
    (s.input = some (.claimReply id) → x.claim = none → w < 2 ^ 12 → exec .claimReply s = .refused (.notEnabled "CLAIM_REPLY")))

/-! ### Tasks, traps and contexts (R281 to R303) -/

/-- R281, R286, R294 to R296: `task` reads its entry, commits, and gives the new task its recipe and bound, and after a commit that it
waited for goes on from there; a shadow takes the entry that its leader has read and passed (log entry 50) and waits for the commit of
the pair; it traps ILLOP in a kernel without recipes, on a bound above VBOUND and on a recipe that the table does not
have; `trap` goes on when its scalar is 0 and else delivers SWTRAP with the next clause as the resume point; `tret` outside a handler and
recompute code traps ILLOP, ends recompute code, and in a handler returns by flashback or to TRESUME; `tmask`, `tunmask` and `lkill`. -/
def Obligations.TasksAndMasks : Prop := ∀ (s s1 s2 : State) (c c1 : Ctx) (n r d : BitVec 8) (i : BitVec 16) (e : List Byte) (u : Nat → State)
    (w : Nat → List Byte) (bound : Nat),
  (Issuing (.task n r) c s → bound = (if n = 0 then recVbound c.kern.record else n.toNat) →
    (recRecipes c.kern.record = 0 ∨ recVbound c.kern.record < n.toNat ∨ bits (dword c.kern.recipe0 0).toNat 8 0 ≤ r.toNat →
      exec (.task n r) s = .next (c.traps s ILLOP 0)) ∧
    (recRecipes c.kern.record ≠ 0 → n.toNat ≤ recVbound c.kern.record → r.toNat < bits (dword c.kern.recipe0 0).toNat 8 0 →
      (c.grp.bnd = .passed → exec (.task n r) s = .next (c.past (c.mod s fun g => { g with recipe := r, bound := bound, explicit := true }))) ∧
      (c.grp.bnd ≠ .passed → c.g.sh = false → u 0 = s → (∀ k < 4, c.Reads (u k) .scalarLoad (recRecipes c.kern.record + BitVec.ofNat 64 (32 + 32 * r.toNat + 8 * k)) 8 (w k) (u (k + 1))) →
        e = w 0 ++ w 1 ++ w 2 ++ w 3 →
        (recipeBad e = true → exec (.task n r) s = .next (c.traps s ILLOP 0)) ∧
        (recipeBad e = false → (∃ m ∈ vlistOf e, c.grp.v.length ≤ m) → exec (.task n r) s = .next (c.traps s ILLOPERAND 0)) ∧
        (recipeBad e = false → (∀ m ∈ vlistOf e, m < c.grp.v.length) → c1 = { c with grp := { c.grp with nextEntry := some e } } →
          s1 = c.mod (passSide c (u 4) ((List.range 4).map fun i => dword e (8 * i))) (fun g => { g with nextEntry := some e }) → c1.MayCommit s1 →
          exec (.task n r) s = .next (c.past (c.mod (c1.commit s1 false) fun g => { g with recipe := r, bound := bound, explicit := true })))) ∧
      (∀ (ld : Group) (x : List W64) (rest : List W64), c.grp.bnd ≠ .passed → c.g.sh = true → c.shadowed = true → s.group? c.g.leader = some ld →
        x.length = 4 → ld.side = x ++ rest → e = x.flatMap (fun y => leBytes y.toNat 8) → recipeBad e = false → (∀ m ∈ vlistOf e, m < c.grp.v.length) →
        exec (.task n r) s = .next (c.waits (c.mod (c.mod (s.modGroup c.g.leader fun g => { g with side := g.side.drop 4 })
          fun g => { g with nextEntry := some e }) fun g => { g with bnd := .waiting, bndHere := false }) .boundary)))) ∧
  (Issuing (.trap d i) c s →
    (c.s d = 0 → exec (.trap d i) s = .next (c.past s)) ∧
    (c.s d ≠ 0 → exec (.trap d i) s = .next ((c.mod s fun g => (g.closeBatches c.cl).modClause fun cl => { cl with issuedM := false, issuedC := false }).raise c
      SWTRAP 0 i { hdr := c.cl.next }))) ∧
  (Issuing .tret c s →
    (c.grp.mode = .normal → exec .tret s = .next (c.traps s ILLOP 0)) ∧
    (c.grp.mode = .recompute → exec .tret s = .next (c.past (c.mod s fun g => ({ g with mode := .normal }).modClause fun cl => { cl with close := false }))) ∧
    (c.grp.mode = .handler → c.MayCommit s → s2 = c.commit s false →
      (flashesBack c.kern.record = false → exec .tret s = .next (c.mod s2 fun g => (g.closeBatches c.cl).handlerReturn)) ∧
      (flashesBack c.kern.record = true → (∀ g, s2.group? c.g = some g → ∀ o ∈ g.ops, o.ck = false) →
        exec .tret s = .next ((c.mod s2 fun g => { g.closeBatches c.cl with masked := false, life := .active }).flashbackPair c.g)) ∧
      (flashesBack c.kern.record = true → (∃ g, s2.group? c.g = some g ∧ ∃ o ∈ g.ops, o.ck = true) → exec .tret s = .next (c.waits s2 .ckpt)))) ∧
  (∀ g : Group, g.handlerReturn.masked = false ∧ g.handlerReturn.mode = .normal ∧ g.handlerReturn.gmode = g.report.tgmode.setWidth 16 ∧
    (if g.report.tem.getLsbD 32 then g.handlerReturn.pcB.hdr else g.handlerReturn.pcA.hdr) = g.report.tresume.setWidth 57) ∧
  (Issuing .tmask c s → exec .tmask s = .next (c.past (c.mod s fun g => { g with masked := true }))) ∧
  (Issuing .tunmask c s → (c.grp.life = .trapped → exec .tunmask s = .next (c.traps s ILLOP 0)) ∧
    (c.grp.life ≠ .trapped → exec .tunmask s = .next (c.past (c.mod s fun g => { g with masked := false })))) ∧
  (Issuing .lkill c s → exec .lkill s = .next (c.past (s.deadLanes c.g c.em)))

/-- R82, R292, R293: a trap ends the team with error 16, and the kernel records its report, where the kernel has no handler, the group is masked or recompute code runs; a kernel
that flashes back discards the version, and any other waits for its operations and for what its task has deferred; then the report is written and the handler starts at
HANDLER, masked and TRAPPED. -/
def Obligations.TrapEntry : Prop := ∀ (s : State) (r : GRef) (p : Pend) (t : Team) (g : Group) (k : Kernel), s.team? r.team = some t → s.group? r = some g →
  s.kernel? t.bezel t.kslot = some k → r.sh = false →
  (recHandler k.record = 0 ∨ g.masked = true ∨ g.mode = .recompute → s.takeTrap r p = (s.modKernel t.bezel t.kslot fun x => { x with report := x.report.or (some (g.reportOf t k p)) }).terminate r 16 p.code p.pc) ∧
  (recHandler k.record ≠ 0 → g.masked = false → g.mode ≠ .recompute →
    (flashesBack k.record = true → s.takeTrap r p = (s.discardTask r).modGroup r fun x => { x.enterHandler t k p with mbat := x.lastBatch }) ∧
    (flashesBack k.record = false → p.matrix = false → (∃ o ∈ g.ops, o.classA = true) ∨ g.mq ≠ [] ∨ g.ver.deferred ≠ [] →
      s.takeTrap r p = s.modGroup r fun x => { x.cut with mq := g.mq, ops := g.ops, pend := some p, wait := .drain }) ∧
    (flashesBack k.record = false → g.ver.deferred = [] → p.matrix = false ∧ g.mq = [] ∧ (∀ o ∈ g.ops, o.classA = false) ∨
        p.matrix = true ∧ (∀ o ∈ g.ops, o.classA = true → ∃ n, o.what = .matrix n) → ∃ x : Group,
      (s.takeTrap r p).group? r = some x ∧ x.mq = [] ∧ x.v = g.v ∧ x.s = g.s ∧ x.t = g.t.map Tile.flip ∧ x.pcA = g.pcA ∧ x.pcB = g.pcB)) ∧
  (∀ x : Group, (x.enterHandler t k p).masked = true ∧ (x.enterHandler t k p).life = .trapped ∧ (x.enterHandler t k p).mode = .handler ∧
    (x.enterHandler t k p).pcH = { hdr := (recHandler k.record).setWidth 57 } ∧ (x.enterHandler t k p).clause = none ∧
    (x.enterHandler t k p).report.tpc = p.pc ∧ (x.enterHandler t k p).report.taddr = p.addr ∧ (x.enterHandler t k p).report.tgmode = x.gmode.setWidth 64 ∧
    (x.enterHandler t k p).report.tkernel = handleOf t.bezel t.kslot t.kseq ∧ (p.code < 256 → (x.enterHandler t k p).report.tcode.setWidth 8 = BitVec.ofNat 8 p.code) ∧
    (x.enterHandler t k p).report.tem.setWidth 32 = p.em ∧ (x.enterHandler t k p).report.tem.getLsbD 32 = p.slotB ∧
    (x.enterHandler t k p).report.tresume.setWidth 57 = p.resume.hdr ∧ (x.enterHandler t k p).report.ttask.setWidth 32 = x.taskSeq)

/-- R287, R292, R297 to R300, R375: TASK_COMMIT of a leader that waits at its boundary with everything drained, TRAP_DELIVERY once the
operations have drained, with what the task has deferred delivered first, DEFERRED_TRAP_TAKE where the group goes on or as a fatal trap, STOP_COMPLETE when every group has stopped, the
hold of a masked group at its timeout, counted in arithmetic cycles through the clocks of R373, which is the model's choice (log entry
41), and the restore that the dispatcher chooses. -/
def Obligations.TaskEvents : Prop := ∀ (s : State) (r : GRef) (g : Group) (t : Team) (k : Kernel) (p : Pend), s.team? r.team = some t → s.group? r = some g →
  s.kernel? t.bezel t.kslot = some k →
  (s.input = some (.taskCommit r) → r.sh = false → g.bnd = .waiting → s.goesOn t g true = true → g.drained = true → s.commitHeldUp r g = false → g.deferredTrap = none →
    (recShadow k.record = false ∨ g.mode = .handler → exec .taskCommit s = .next (s.commitOne r k)) ∧
    (∀ h, recShadow k.record = true → g.mode ≠ .handler → s.group? r.shadow = some h → h.bnd = .waiting → h.drained = true → h.deferredTrap = none →
      ((g.finalSig k).sig = (h.finalSig k).sig → exec .taskCommit s = .next ((s.commitOne r k).commitOne r.shadow k)) ∧
      ((g.finalSig k).sig ≠ (h.finalSig k).sig → exec .taskCommit s = .next (((s.modGroup r fun _ => g.finalSig k).modGroup r.shadow fun _ => h.finalSig k).mismatch r)))) ∧
  (s.input = some (.taskCommit r) → g.bnd = .waiting → g.drained = false → exec .taskCommit s = .refused (.notEnabled "TASK_COMMIT")) ∧
  (s.input = some (.trapDelivery r) → g.pend = some p → t.ended = false → t.ctx = .running →
    ((∀ o ∈ g.ops, o.classA = false) → g.mq = [] → s.commitHeldUp r g = false → exec .trapDelivery s = .next ((s.deliverHeld r).takeTrap r p)) ∧
    ((∃ o ∈ g.ops, o.classA = true) ∨ g.mq ≠ [] ∨ s.commitHeldUp r g = true → exec .trapDelivery s = .refused (.notEnabled "TRAP_DELIVERY"))) ∧
  (s.input = some (.deferredTrapTake r) → g.deferredTrap = some p → t.ended = false → t.ctx = .running → g.life ≠ .pending → g.life ≠ .collective → g.life ≠ .exited →
      g.pend = none →
    (g.alive = false → g.blive = false → exec .deferredTrapTake s = .next ((s.modKernel t.bezel t.kslot fun x => { x with report := x.report.or (some (g.reportOf t k p)) }).terminate r 16 p.code p.pc)) ∧
    (g.alive = true ∨ g.blive = true → exec .deferredTrapTake s = .next (((s.modTeam r.team fun t => { t with requests := t.requests.filter fun q => q.grp != r.grp }).modGroup r
      fun x => { (x.wake s.stepNo) with deferredTrap := none, bnd := .idle, nextEntry := none }).takeTrap r
        { p with em := g.em g.nextPoint.1, slotB := g.nextPoint.1 == .b, resume := g.nextPoint.2 }))) ∧
  (s.input = some (.stopComplete r.team) → t.ctx = .stopping → t.ended = false →
    ((∀ x ∈ t.groups, x.stopped k.nonRewindable false = true) → (∀ x ∈ t.shadows, x.stopped k.nonRewindable true = true) →
      (∀ c ∈ s.cmds, c.by_.g.team = r.team → ∀ q v y, c.what ≠ .xroute q v y) → k.nonRewindable = false ∨ recShadow k.record = false →
      exec .stopComplete s = .next (s.saveTeam t k)) ∧
    (∀ x ∈ t.groups, x.stopped k.nonRewindable false = false → exec .stopComplete s = .refused (.notEnabled "STOP_COMPLETE"))) ∧
  (s.input = some (.maskedHoldTimeout r) → r.sh = false → t.ctx = .stopping → t.ended = false → g.masked = true → g.halted = false → g.life ≠ .exited →
    (k.nonRewindable = true → 2 ^ 20 ≤ (s.arith - g.stopAt) / 720 → exec .maskedHoldTimeout s = .next (s.terminate r 18 18 g.report.tpc)) ∧
    (k.nonRewindable = false → 65536 ≤ (s.arith - g.stopAt) / 720 → (∀ o ∈ g.ops, o.ck = false) →
      exec .maskedHoldTimeout s = .next ((((s.modGroup r fun g => { g with life := if g.life == .trapped then .active else g.life }).flashbackPair r).modGroup r
        fun g => { g with halted := true }).modGroup r.shadow fun g => { g with halted := true })) ∧
    (k.nonRewindable = false → (s.arith - g.stopAt) / 720 < 65536 → exec .maskedHoldTimeout s = .refused (.notEnabled "MASKED_HOLD_TIMEOUT"))) ∧
  (∀ core b pr q, s.input = some (.contextRestore r.team core) → t.ctx = .saved → t.ended = false → t.moving = false →
    s.dispatchChoice (core / 64) = some (b, pr, q, .restore r.team core) →
    exec .contextRestore s = .next ((s.restoreTeam t core).served (core / 64) b.num pr q.slot))

/-! ### Mailboxes, kernels and activities (R64 to R87, R320 to R338) -/

/-- R65, R67, R68, R70 to R73: a seal with the next number and in its slot is written and PHASE advances over it, any other is rejected and a
host write that misses the seal word is recorded; `mbrecv` commits, takes one message as one operation and answers status and slot, and
acquires where it took one; `mbsend` is held with the bodies of lanes 0 to 13, which enter the signature (R288); `mbpeek` reads; with EM zero
they complete at once; an address that is misaligned or outside the mailbox block traps; a host write reaches only HEAD of an outbound mailbox;
the oldest outbound message of a mailbox raises PHASE and lowers the flag of its `mbsend`. That a rejected seal leaves the whole slot
unwritten, and that the outbound messages of one mailbox complete in order, are the model's choices (log entry 20); so is ALIGN, and not
PROT, for an address that is misaligned and beyond the map as well (log entry 35). -/
def Obligations.Mailboxes : Prop := ∀ (s s1 s2 s3 t : State) (c : Ctx) (d a b f : BitVec 8) (o : Obj) (bn m slot off : Nat) (data msg : List Byte) (bz : Bezel),
  (∀ h : W32, h = s.mbHead o → (s.mbDir o = true ∨ s.mbEnable o = false → s.mbTake bz o = (s, 2, 0, [], false)) ∧
    (s.mbDir o = false → s.mbEnable o = true → s.objPhase o = h → s.mbTake bz o = (s, 1, 0, [], false)) ∧
    (∀ pa, s.mbDir o = false → s.mbEnable o = true → s.objPhase o ≠ h → s.mbSlot bz o (h.toNat % 256) = some pa →
      s.mbTake bz o = (s.objWrite o 4 (leBytes (h + 1).toNat 4), 0, h.toNat % 256, s.homeBytes pa 64, s.poisoned (pa / 256)))) ∧
  (∀ i kind, i = .mbrecv d a ∧ kind = Acc.sync ∨ i = .mbsend d a b ∧ kind = Acc.sync ∧ bits (c.s b).toNat 63 33 = 0 ∧ c.RoomB s ∨ i = .mbpeek d a f ∧ kind = Acc.syncRead →
    Issuing i c s → c.em ≠ 0 → c.g.sh = false → c.RoomA s →
    ((c.s a).toNat % 32 ≠ 0 → exec i s = .next (c.traps s ALIGN (c.s a))) ∧
    ((c.s a).toNat % 32 = 0 → (c.s a).toNat < c.bez.mbox.toNat ∨ c.bez.mbox.toNat + 2048 ≤ (c.s a).toNat → exec i s = .next (c.traps s PROT (c.s a)))) ∧
  (Issuing (.mbrecv d a) c s → c.em = 0 → c.g.sh = false → c.RoomA s → exec (.mbrecv d a) s = .next (c.past (c.noneA s))) ∧
  (Issuing (.mbpeek d a f) c s → c.em = 0 → c.g.sh = false → c.RoomA s → exec (.mbpeek d a f) s = .next (c.past (c.noneA s))) ∧
  (Issuing (.mbsend d a b) c s → c.em = 0 ∨ c.g.sh = true → c.g.sh = true ∨ c.RoomB s → exec (.mbsend d a b) s = .next (c.past (signData c (sign c s [c.s a, c.s b]) (if c.em = 0 then 0 else 0x3FFF) (c.v d)))) ∧
  ((c.s a).toNat % 32 = 0 → c.bez.mbox.toNat ≤ (c.s a).toNat → (c.s a).toNat < c.bez.mbox.toNat + 2048 → c.em ≠ 0 → c.g.sh = false →
    (∀ st, Issuing (.mbrecv d a) c s → c.RoomA s → c.Counter s .sync (c.s a) o s1 → c.MayCommit s1 → s2 = (c.commit s1 false).publish c.g c.core 3 →
      s2.mbTake c.bez o = (s3, st, slot, msg, false) → t = (if st = 0 then c.mod s3 fun g => g.acquireAt (s2.releasedAt o c.core fun _ => true) else s3) → c.RoomA t →
      exec (.mbrecv d a) s = .next (c.past (c.opA t [.vec d c.em (recvLanes msg st slot) .g] .ready true))) ∧
    (Issuing (.mbsend d a b) c s → bits (c.s b).toNat 63 33 ≠ 0 → exec (.mbsend d a b) s = .next (c.traps s ILLOPERAND 0)) ∧
    (Issuing (.mbsend d a b) c s → bits (c.s b).toNat 63 33 = 0 → c.RoomB s → c.Counter s .sync (c.s a) o s1 →
      exec (.mbsend d a b) s = .next (c.past (signData c (sign c (c.held s1 (.mbsend o ((List.range 14).flatMap fun i => leBytes ((c.v d).l.lane i).toNat 4)
        ((c.s b).setWidth 32) ((c.s b).toNat.testBit 32))) [c.s a, c.s b]) 0x3FFF (c.v d)))) ∧
    (Issuing (.mbpeek d a f) c s → c.RoomA s → c.Counter s .syncRead (c.s a) o s1 →
      exec (.mbpeek d a f) s = .next (c.past (c.opA s1 [.scal (sdstNum d) (s1.mbPeek o f.toNat)] .ready false)))) ∧
  (s.mbPeek o 0 = BitVec.ofNat 64 (s.objPhase o - s.mbHead o).toNat ∧ s.mbPeek o 1 = 256 - s.mbPeek o 0 ∧ s.mbPeek o 2 = (s.objPhase o).setWidth 64 ∧
    s.mbPeek o 3 = (s.mbHead o).setWidth 64) ∧
  (s.bezel? bn = some bz → m < 64 → s.mailbox bz m = some o → s.objMoving o = false → data ≠ [] → s.host.entropy = false →
    (∀ (pa : Nat) (q : W32), s.input = some (.sealArrival bn m slot data off) → slot < 256 → 56 < off + data.length → off + data.length ≤ 64 → s.mbDir o = false →
      s.mbEnable o = true → s.mbSlot bz o slot = some pa → (s.sidecar (pa / 256)).owner = 0 → q = BitVec.ofNat 32 (leNat (slice (slice data (56 - off) 8) 4 4)) →
      (56 < off ∨ off + data.length < 64 → exec .sealArrival s = .next (s.locket o.die 9 0x0502 0 (s.mbRing o + BitVec.ofNat 64 (64 * slot)))) ∧
      (off ≤ 56 → off + data.length = 64 →
        (slot = (q - 1).toNat % 256 → q ≠ s.mbHead o → (q - s.mbHead o).toNat ≤ 256 → q ≠ s.objPhase o → (q - s.objPhase o).toNat ≤ 2 ^ 31 →
          exec .sealArrival s = .next (State.mbAdvance bz o 256 (s.landSector [(pa + off, data)] 0 none 0))) ∧
        (slot ≠ (q - 1).toNat % 256 ∨ q = s.mbHead o ∨ 256 < (q - s.mbHead o).toNat ∨ q = s.objPhase o ∨ 2 ^ 31 < (q - s.objPhase o).toNat →
          exec .sealArrival s = .next (s.mbReject o)))) ∧
    (∀ h, s.input = some (.mailboxFieldStore bn m off data h) → off + data.length ≤ 32 → exec .mailboxFieldStore s = .next (s.mailboxStore bz o off data h)) ∧
    (∀ pa x ow, s.input = some (.hostMailboxWrite bn m off data) → off + data.length ≤ 32 → o = .glob pa x ow → (s.sidecar (pa / 256)).owner = 0 →
      (s.mbDir o = true → 4 ≤ off → off + data.length ≤ 8 → exec .hostMailboxWrite s = .next (s.objWrite o off data)) ∧
      (s.mbDir o = false ∨ off < 4 ∨ 8 < off + data.length → exec .hostMailboxWrite s = .next (s.locket o.die 9 0x0501 0 o.va))) ∧
    (∀ x n irq r op, s.input = some (.outboundPhaseAdvance bn m) → (s.host.outbound.find? fun p => (s.homeOf p.1).place == o.place) = some (x, n, irq, r, op) → ∃ u : State,
      exec .outboundPhaseAdvance s = .next (u.modGroup r fun g => g.dropOp op) ∧ u.mem = ((s.objWrite o 0 (leBytes n.toNat 4)).noteRelease o 0 0 3).mem ∧
        u.host.outbound = s.host.outbound.erase (x, n, irq, r, op) ∧ (irq = true → HostOut.msix (s.mbVector o) ∈ u.host.out)))

/-- R81, R85 to R87, R377: `launch` commits and answers the refusal of the first failing check, or creates the kernel, draws its ticket,
and answers handle and ticket, which it gives when the counter has room; `kquery` reads whatever EM holds (log entry 53); `kcancel` and
`kpreempt` commit and deliver their event, or record one without effect; with EM zero they complete at once, and a shadow commits and signs. -/
def Obligations.KernelInstructions : Prop := ∀ (s s1 s2 s3 t u : State) (c : Ctx) (d a f : BitVec 8) (r tab : List Byte) (slot : Nat) (seq : W32) (o : Obj) (n : W64)
    (k : Kernel) (b : Bezel) (x : Nat → State) (w : Nat → List Byte),
  (Issuing (.launch d a) c s → c.em = 0 → c.g.sh = false → c.RoomA s → exec (.launch d a) s = .next (c.past (c.noneA s))) ∧
  (Issuing (.launch d a) c s → c.em ≠ 0 → c.g.sh = false → (c.s a).toNat % 256 ≠ 0 → exec (.launch d a) s = .next (c.traps s ALIGN (c.s a))) ∧
  (Issuing (.launch d a) c s → c.em ≠ 0 → c.g.sh = false → (c.s a).toNat % 256 = 0 → c.RoomA s → c.Reads s .scalarLoad (c.s a) 256 r s1 →
    (recRecipes r = 0 ∨ (recRecipes r).toNat % 8 ≠ 0) ∧ tab = [] ∧ s2 = s1 ∨
      recRecipes r ≠ 0 ∧ (recRecipes r).toNat % 8 = 0 ∧ c.Reads s1 .scalarLoad (recRecipes r) 8 (w 0) (x 0) ∧
        (∀ k < 4, c.Reads (x k) .scalarLoad (recRecipes r + BitVec.ofNat 64 (32 + 8 * k)) 8 (w (k + 1)) (x (k + 1))) ∧
        tab = w 0 ++ (w 1 ++ w 2 ++ w 3 ++ w 4) ∧ s2 = x 4 →
    (recDepCtr r = 0 ∨ ∀ y z, s2.ctrUse c.bez (recKey r % 4096) (recDepCtr r) false ≠ .wait y z ∧ s2.ctrUse c.bez (recKey r % 4096) (recDepCtr r) false ≠ .migrating) →
    (recDoneCtr r = 0 ∨ ∀ y z, s2.ctrUse c.bez (recKey r % 4096) (recDoneCtr r) true ≠ .wait y z ∧ s2.ctrUse c.bez (recKey r % 4096) (recDoneCtr r) true ≠ .migrating) →
    c.MayCommit s2 → s3 = (c.commit s2 false).publish c.g c.core 3 → c.RoomA s3 →
    (s3.refusal c.bez r tab (recSuper c.kern.record) ≠ 0 → exec (.launch d a) s = .next (c.past (c.opA s3
      [.scal (sdstNum d) (BitVec.ofNat 64 (2 ^ 63 + s3.refusal c.bez r tab (recSuper c.kern.record))), .scal (sdstNum d + 1) 0] .ready true))) ∧
    (s3.refusal c.bez r tab (recSuper c.kern.record) = 0 → s3.newKernel c.bez r tab (c.s a) none = (t, slot, seq) →
      (recDoneCtr r = 0 → exec (.launch d a) s = .next (c.past ((c.opA t [.scal (sdstNum d) (handleOf c.bez.num slot seq), .scal (sdstNum d + 1) 0]
        .ready true).tryAdmit c.bez.num slot))) ∧
      (recDoneCtr r ≠ 0 → t.ctrUse c.bez (recKey r % 4096) (recDoneCtr r) true = .ok o →
        (t.draw o (handleOf c.bez.num slot seq) = .ticket n u → c.RoomA u → exec (.launch d a) s = .next (c.past ((c.opA
          (u.modKernel c.bez.num slot fun x => { x with ticket := n })
          [.scal (sdstNum d) (handleOf c.bez.num slot seq), .scal (sdstNum d + 1) n] .ready true).tryAdmit c.bez.num slot))) ∧
        (t.draw o (handleOf c.bez.num slot seq) = .wait → exec (.launch d a) s = .next (c.past ((c.opA
          (t.modKernel c.bez.num slot fun x => { x with drawn := false }) [.scal (sdstNum d) (handleOf c.bez.num slot seq), .scal (sdstNum d + 1) 0]
          (.draw o (.kernel c.bez.num slot seq) (sdstNum d + 1)) true).tryAdmit c.bez.num slot)))))) ∧
  (∀ sup, (b.hasSlot = false → s.refusal b r tab sup = 10) ∧ (b.hasSlot = true → recordBad r = true → s.refusal b r tab sup = 1) ∧
    (b.hasSlot = true → recordBad r = false → recipe0Bad r tab = false → s.ctrBad b r = false → recSuper r = true → sup = false → s.refusal b r tab sup = 9)) ∧
  (Issuing (.kquery d a f) c s → c.g.sh = false → c.RoomA s →
    exec (.kquery d a f) s = .next (c.past (c.opA s [.scal (sdstNum d) (s.kqueryWord c.bez (c.s a) f.toNat)] .ready false))) ∧
  (∀ i op (eff : Kernel → State → State), i = .kcancel a ∧ op = 0xDE ∧ eff = (fun k s => s.cancelKernel c.bez.num k.slot) ∨
      i = .kpreemptSave a ∧ op = 0xDF ∧ eff = (fun k s => s.preemptSave c.bez.num k) ∨ i = .kpreemptDiscard a ∧ op = 0xDF ∧ eff = (fun k s => s.preemptDiscard c.bez.num k) →
    Issuing i c s →
    (c.em = 0 → c.g.sh = true ∨ c.RoomB s → exec i s = .next (c.past (sign c s [c.s a]))) ∧
    (c.em ≠ 0 → c.g.sh = true → c.MayCommit s → exec i s = .next (c.past (sign c (c.commit s false) [c.s a]))) ∧
    (c.em ≠ 0 → c.g.sh = false → c.RoomB s → c.MayCommit s → s1 = (c.commit s false).publish c.g c.core 3 → s1.bezel? c.bez.num = some b →
      (({ c with bez := b } : Ctx).target (c.s a) = some k → exec i s = .next (c.past (sign c (eff k s1) [c.s a]))) ∧
      (({ c with bez := b } : Ctx).target (c.s a) = none → exec i s = .next (c.past (sign c (s1.locket c.bez.die 9 (0x0100 + op) c.handle (c.s a)) [c.s a])))))

/-- R74 to R76, R82 to R84, R89, R90: the dispatcher places the teams it chooses; a group starts at CODE with s30 all ones and its role's
registers; a kernel retires once everything of it has drained, in the state that its error, its cancellation and its lost lanes give. -/
def Obligations.KernelEvents : Prop := ∀ (s : State) (slot : Nat) (k : Kernel) (b : Bezel),
  (∀ die pr l, s.input = some (.teamDispatch die) →
    (s.drawKernels.dispatchChoice die = some (b, pr, k, .fresh l) → exec .teamDispatch s = .next (((((l.foldl (fun s p => s.placeTeam b.num k p.1 p.2) s.drawKernels).modKernel b.num k.slot
      fun x => x.claim (l.map (·.1))).formed b.num).served die b.num pr k.slot))) ∧
    (s.drawKernels.dispatchChoice die = none → s.drawKernels = s → exec .teamDispatch s = .refused (.notEnabled "TEAM_DISPATCH"))) ∧
  (∀ tid g now, (startGroup k tid g now).sreg 30 = 0xFFFFFFFF ∧ (startGroup k tid g now).sreg 31 = 0 ∧ (startGroup k tid g now).pcA.hdr = (recCode k.record).setWidth 57 ∧
    (startGroup k tid g now).v.length = roleVregs (recRole k.record (roleOf k.record g).1) ∧ (startGroup k tid g now).life = .pending ∧
    ((recPreload k.record).getLsbD 7 = true → (startGroup k tid g now).sreg 7 = recArgs k.record)) ∧
  (∀ bn, s.input = some (.retirementComplete bn slot) → s.kernel? bn slot = some k →
    (k.st = .draining → s.drainedKernel bn k = true → exec .retirementComplete s = .next (s.endKernel bn slot)) ∧
    (k.st ≠ .draining ∨ s.drainedKernel bn k = false → exec .retirementComplete s = .refused (.notEnabled "RETIREMENT_COMPLETE"))) ∧
  (k.err = 0 → k.cancel = false → k.lost = 0 → k.ending = .complete) ∧ (k.err ≠ 8 → k.cancel = true → k.ending = .cancelled)

/-- R320 to R326, R333 to R338: `aopen` answers a refusal or the handle and ticket of a new activity; `astep` traps on a bad record, a handle
it may not name and a full stack, and else draws its ticket, which holds it back while the draw waits (R189, R334), commits, and puts the entry
on top of the stack with the next timestamp; `aclose` and
`aabandon` commit and end or abandon an OPEN activity; `aquery` reads, `aresolve` acts on a BROKEN one, `acret` gives a compensator's
status once and exits. -/
def Obligations.ActivityInstructions : Prop := ∀ (s s1 s2 s3 s4 s5 s6 t u : State) (c : Ctx) (d a b f : BitVec 8) (r : List Byte) (o : Obj) (n : W64) (act : Activity),
  (Issuing (.aopen d a) c s → c.g.sh = false → (c.s a).toNat % 64 = 0 → c.RoomA s → c.Reads s .scalarLoad (c.s a) 64 r s1 →
    (actRecordBad r = true → exec (.aopen d a) s = .next (c.past (c.opA s1 [.scal (sdstNum d) (2 ^ 63 + 1), .scal (sdstNum d + 1) 0] .ready false))) ∧
    (∀ p, actRecordBad r = false → s1.place c.team c.kern c.bez .store (arStage r) = .ok p → s2 = s1.touch c.bez c.core [arStage r] →
      (∀ e, arDone r = 0 → s2.actNext < 4096 → e = ({ slot := s2.actNext, seq := s2.actSeq, bezel := c.bez.num, key := recKey c.kern.record, kslot := c.kern.slot, kseq := c.kern.seq, record := r, task := some (c.g, c.grp.taskSeq) } : Activity) →
        t = { s2 with acts := s2.acts.filter (fun x => x.slot != s2.actNext) ++ [e], actSeq := s2.actSeq + 1, actNext := s2.actNext + 1 } →
        exec (.aopen d a) s = .next (c.past (c.opA t [.scal (sdstNum d) e.handle, .scal (sdstNum d + 1) 0] .ready false))) ∧
      (arDone r = 0 → 4096 ≤ s2.actNext → s2.actFreed = [] →
        exec (.aopen d a) s = .next (c.past (c.opA s2 [.scal (sdstNum d) (2 ^ 63 + 2), .scal (sdstNum d + 1) 0] .ready false))) ∧
      (∀ e q pa ow va, arDone r ≠ 0 → badVa (arDone r) = false → isWindow (arDone r) = false → s2.place c.team c.kern c.bez .sync (arDone r) = .ok (.glob pa true ow va) → o = .glob pa va ow →
        s3 = s2.touch c.bez c.core [arDone r] → s3.actNext < 4096 →
        e = ({ slot := s3.actNext, seq := s3.actSeq, bezel := c.bez.num, key := recKey c.kern.record, kslot := c.kern.slot, kseq := c.kern.seq, record := r, ctr := some o, task := some (c.g, c.grp.taskSeq) } : Activity) →
        (s3.draw o c.handle = .ticket q u → t = { u with acts := u.acts.filter (fun x => x.slot != s3.actNext) ++ [{ e with ticket := q }], actSeq := u.actSeq + 1, actNext := u.actNext + 1 } → c.RoomA t →
          exec (.aopen d a) s = .next (c.past (c.opA t [.scal (sdstNum d) e.handle, .scal (sdstNum d + 1) q] .ready false))) ∧
        (s3.draw o c.handle = .wait → t = { s3 with acts := s3.acts.filter (fun x => x.slot != s3.actNext) ++ [{ e with drawn := false }], actSeq := s3.actSeq + 1, actNext := s3.actNext + 1 } →
          exec (.aopen d a) s = .next (c.past (c.opA t [.scal (sdstNum d) e.handle, .scal (sdstNum d + 1) 0] (.draw o (.act e.slot e.seq) (sdstNum d + 1)) false)))))) ∧
  (∀ r0 r1 r2, Issuing (.astep d a b) c s → c.g.sh = false → (c.s a).toNat % 64 = 0 → c.RoomB s → c.Reads s .scalarLoad (c.s a) 64 r0 s1 →
    c.Reads s1 .scalarLoad (c.s a + 64) 64 r1 s2 → c.Reads s2 .scalarLoad (c.s a + 128) 64 r2 s3 → r = r0 ++ r1 ++ r2 →
    (stepRecordBad r = true → exec (.astep d a b) s = .next (c.traps s ILLOP 0)) ∧
    (stepRecordBad r = false → c.activity s3 (c.s d) = none → exec (.astep d a b) s = .next (c.traps s PROT (c.s d))) ∧
    (stepRecordBad r = false → c.activity s3 (c.s d) = some act → act.st ≠ .opened ∨ arMax act.record ≤ act.stack.length →
      exec (.astep d a b) s = .next (c.traps s PROT (c.s d))) ∧
    (stepRecordBad r = false → c.activity s3 (c.s d) = some act → act.st = .opened → act.stack.length < arMax act.record →
      (∀ q : Option (Obj × W64), c.s b = 0 ∧ s5 = s3 ∧ q = none ∨ c.s b ≠ 0 ∧ c.Counter s3 .sync (c.s b) o s4 ∧
          (c.grp.ticket = none ∧ s4.drawInTurn c.g o c.handle = .ticket n u ∧ s5 = (c.mod u fun g => { g with ticket := some (o, n) }) ∧ q = some (o, n) ∨
            c.grp.ticket ≠ none ∧ s5 = s4 ∧ q = c.grp.ticket) → c.MayCommit s5 → s6 = (c.commit s5 false).publish c.g c.core 3 →
        t = { (s6.modAct act.slot fun x => { x with stack := s6.entryOf c.bez r :: x.stack }) with stamp := s6.stamp + 1 }.settleActs →
        exec (.astep d a b) s = .next (c.past (sign c ((c.mod t fun g => { g with ticket := none }).completeTicket q) [c.s d, c.s a, c.s b]))) ∧
      (c.s b ≠ 0 → c.Counter s3 .sync (c.s b) o s4 → c.grp.ticket = none → s4.drawInTurn c.g o c.handle = .wait →
        exec (.astep d a b) s = .next (c.waits s4 (.draw o))))) ∧
  (∀ i op (eff : State → State), i = .aclose a ∧ op = 0xE2 ∧ eff = (fun s => s.finishAct act.slot .closed) ∨
      i = .aabandon a ∧ op = 0xE3 ∧ eff = (fun s => s.modAct act.slot fun x => { x with st := .abandoning, task := none }) → Issuing i c s →
    (c.g.sh = true → c.MayCommit s → exec i s = .next (c.past (sign c (c.commit s false) [c.s a]))) ∧
    (c.g.sh = false → c.RoomB s → c.activity s (c.s a) = none → exec i s = .next (c.traps s PROT (c.s a))) ∧
    (∀ x, c.g.sh = false → c.RoomB s → c.activity s (c.s a) = some x → c.MayCommit s → s1 = (c.commit s false).publish c.g c.core 3 → c.activity s1 (c.s a) = some act →
      (act.st = .opened → exec i s = .next (c.past (sign c (eff s1).settleActs [c.s a]))) ∧
      (act.st ≠ .opened → exec i s = .next (c.past (sign c (s1.locket c.die 9 (0x0100 + op) c.handle (c.s a)) [c.s a]))))) ∧
  (Issuing (.astep d a b) c s → c.g.sh = true → c.MayCommit s → exec (.astep d a b) s = .next (c.past (sign c (c.commit s false) [c.s d, c.s a, c.s b]))) ∧
  (Issuing (.aquery d a f) c s → c.g.sh = false → c.RoomA s →
    exec (.aquery d a f) s = .next (c.past (c.opA s [.scal (sdstNum d) (aqueryWord (c.activity s (c.s a)) f.toNat)] .ready false))) ∧
  (Issuing (.aresolve a b) c s → 3 ≤ (c.s b).toNat → exec (.aresolve a b) s = .next (c.traps s ILLOPERAND 0)) ∧
  (Issuing (.aresolve a b) c s → (c.s b).toNat < 3 → c.g.sh = true → exec (.aresolve a b) s = .next (c.past (sign c s [c.s a, c.s b]))) ∧
  (Issuing (.aresolve a b) c s → (c.s b).toNat < 3 → c.g.sh = false → c.RoomB s → c.activity s (c.s a) = some act →
    (act.st ≠ .broken ∨ (c.s b).toNat = 0 ∧ (∃ e ∈ act.stack.head?, e.damaged = true) →
      exec (.aresolve a b) s = .next (c.past (sign c (s.locket c.die 9 0x01E5 c.handle (c.s a)) [c.s a, c.s b]))) ∧
    (act.st = .broken → (c.s b).toNat = 0 → (∀ e ∈ act.stack.head?, e.damaged = false) → exec (.aresolve a b) s = .next (c.past (sign c
      (s.modAct act.slot fun x => { x with st := .abandoning }).settleActs [c.s a, c.s b]))) ∧
    (act.st = .broken → (c.s b).toNat = 1 → exec (.aresolve a b) s = .next (c.past (sign c
      (s.modAct act.slot fun x => { x with st := .abandoning, stack := x.stack.tail }).settleActs [c.s a, c.s b]))) ∧
    (act.st = .broken → (c.s b).toNat = 2 → exec (.aresolve a b) s = .next (c.past (sign c (s.finishAct act.slot .abandoned).settleActs [c.s a, c.s b])))) ∧
  (Issuing (.acret a) c s → (c.kern.comp = none → exec (.acret a) s = .next (c.traps s ILLOP 0)) ∧
    (c.kern.comp ≠ none → c.em = 0 → exec (.acret a) s = .next (c.past s)) ∧
    (c.kern.comp ≠ none → c.em ≠ 0 → c.MayCommit s → exec (.acret a) s = .next (c.past (c.mod
      ((c.commit s false).modTeam c.team.sid fun t => { t with acret := t.acret.or (some ((c.s a).setWidth 32)) }) fun g => { g with exited := g.exited ||| c.em }))))

/-- R323, R324, R327 to R330: the clasp unit writes the top entry's arguments to STAGE and launches its compensator from TEMPLATE, or breaks
the activity where the entry is damaged; a status of 0 pops the entry, and any other breaks the activity. -/
def Obligations.ActivityEvents : Prop := ∀ (s s1 s2 : State) (r : List Byte) (act : Activity) (bz : Bezel) (slot : Nat), s.act? slot = some act →
  (∀ e rest pa ow kslot q, s.input = some (.compensatorLaunch slot) → act.stack = e :: rest → s.bezel? act.bezel = some bz → act.st = .abandoning → act.running = none → act.ended = none →
    act.fault = none → act.migr = false → (∀ t ∈ s.teams, t.bezel = bz.num → t.ctx = .stopping → t.ended = true) → s.waitsFor act e = none →
    (e.damaged = true → exec .compensatorLaunch s = .next (s.compFail act 0 0x80000013)) ∧
    (e.damaged = false → s.claspAccess bz (act.key % 4096) true (arStage act.record) = .ok pa ow →
      s1 = s.landHome pa e.args ow (some false) → s1.claspRead act bz (arTemplate act.record) 256 = .ok r → recRecipes r = 0 →
      s1.refusal bz (compRecord r e.code (arStage act.record)) [] false = 0 → recGridX (compRecord r e.code (arStage act.record)) = 1 →
      recGridY (compRecord r e.code (arStage act.record)) = 1 → recGridZ (compRecord r e.code (arStage act.record)) = 1 →
      s1.newKernel bz (compRecord r e.code (arStage act.record)) [] (arTemplate act.record) (some slot) = (s2, kslot, q) →
      exec .compensatorLaunch s = .next ((s2.modAct slot fun x => { x with running := some kslot, lastComp := handleOf bz.num kslot q }).tryAdmit bz.num kslot)) ∧
    (∀ k, e.damaged = false → s.claspAccess bz (act.key % 4096) true (arStage act.record) = .ok pa ow →
      s1 = s.landHome pa e.args ow (some false) → s1.claspRead act bz (arTemplate act.record) 256 = .ok r → recRecipes r = 0 →
      k = s1.refusal bz (compRecord r e.code (arStage act.record)) [] false → k ≠ 0 → k = 10 ∨ recGridX (compRecord r e.code (arStage act.record)) = 1 ∧
        recGridY (compRecord r e.code (arStage act.record)) = 1 ∧ recGridZ (compRecord r e.code (arStage act.record)) = 1 →
      exec .compensatorLaunch s = .next (s1.compFail act 0 (0x80000100 + BitVec.ofNat 32 k)))) ∧
  (s.input = some (.compensatorRetire slot) →
    (act.ended = some 0 → exec .compensatorRetire s = .next (s.modAct slot fun x => { x with running := none, ended := none, lastStatus := 0, stack := x.stack.tail }).settleActs) ∧
    (∀ st, act.ended = some st → st ≠ 0 → exec .compensatorRetire s = .next (s.compFail act act.lastComp st)) ∧
    (act.ended = none → exec .compensatorRetire s = .refused (.notEnabled "COMPENSATOR_RETIRE")))

/-! ### Pavé engines (R341 to R350) -/

/-- R344, R347, R350: `pvfill` and `pvsub` check their records and pages, commit, draw their ticket and queue their command, which waits where
the counter is full; with EM zero they complete at once, and a shadow commits and signs; `pvstat` reads an engine or a page. -/
def Obligations.PaveInstructions : Prop := ∀ (s s1 s2 s3 s4 s5 t : State) (c : Ctx) (d a b f : BitVec 8) (r : List Byte) (l : Leaf) (o : Obj) (oc : Option Obj)
    (pl : Nat → Place),
  (∀ i ops, i = .pvfill d a ∧ ops = [c.s d, c.s a] ∨ i = .pvsub d a b ∧ ops = [c.s d, c.s a, c.s b] → Issuing i c s →
    (c.em = 0 → c.g.sh = true ∨ c.RoomB s → exec i s = .next (c.past (sign c s ops))) ∧
    (c.em ≠ 0 → (c.s b).toNat < 2 ^ 20 → c.g.sh = true → c.MayCommit s → exec i s = .next (c.past (sign c (c.commit s false) ops)))) ∧
  (c.g.sh = false → c.em ≠ 0 → c.RoomB s → (c.s a).toNat % 64 = 0 → c.Reads s .scalarLoad (c.s a) 64 r s1 →
    (∀ page, Issuing (.pvfill d a) c s → page = dword r 0 → page.toNat % 2 ^ 23 = 0 → (dword r 8).toNat % 256 = 0 → bits (dword r 16).toNat 63 3 = 0 → (∀ x ∈ slice r 24 40, x = 0) →
      badVa page = false → isWindow page = false → s1.lookup c.bez c.core page.toNat = .leaf l → leafKind l.raw = 4 → l.level = 2 →
      (dword r 16).toNat % 8 ≤ descStripe (s1.idesc c.bez (leafIdesc l.raw)) →
      (leafW l.raw = false ∨ paveOwned c s1 l = false → exec (.pvfill d a) s = .next (c.traps s PROT page)) ∧
      (leafW l.raw = true → paveOwned c s1 l = true → (∀ x, s1.leafDesc c.bez l = some x → x.gen ≠ 0xFFFFFFFF) →
        (s1.leafDesc c.bez l = none → s1.descsFull (s1.leafPa c.bez l 0) = false) →
        (c.s d = 0 ∧ s2 = s1 ∧ oc = none ∨ c.s d ≠ 0 ∧ c.Counter s1 .sync (c.s d) o s2 ∧ oc = some o) →
        c.MayCommit s2 → s3 = (c.commit s2 false).publish c.g c.core 3 → c.RoomB s3 →
        (∀ y, oc = none ∧ t = c.opB s3 (.engine s3.nextCmd) ∧ y = c.issuer (some (c.nextOp s3)) none ∨
            (∃ q, oc = some o ∧ (c.opB s3 (.engine s3.nextCmd)).drawInTurn c.g o c.handle = .ticket q t ∧ y = c.issuer (some (c.nextOp s3)) (some (o, q))) →
          exec (.pvfill d a) s = .next (c.past (sign c { t with cmds := t.cmds ++ [{ id := t.nextCmd, by_ := y, what := .fill (s1.leafPa c.bez l 0) page l (dword r 8) ((dword r 16).toNat % 8) }], nextCmd := t.nextCmd + 1 } [c.s d, c.s a]))) ∧
        (oc = some o → t = c.opB s3 (.engine s3.nextCmd) → t.drawInTurn c.g o c.handle = .wait →
          ∃ y : Issuer, y.drawn = false ∧ y.ctr = some (o, 0) ∧ y.op = some (c.nextOp s3) ∧
            exec (.pvfill d a) s = .next (c.past (sign c (c.mod { t with cmds := t.cmds ++ [{ id := t.nextCmd, by_ := y, what := .fill (s1.leafPa c.bez l 0) page l (dword r 8) ((dword r 16).toNat % 8) }], nextCmd := t.nextCmd + 1 }
              fun g => g.resolve (c.nextOp s3) id (.draw o (.cmd t.nextCmd) 33)) [c.s d, c.s a]))))) ∧
    (∀ (first count : Nat) (fs : W64) (esize : Nat) (ads : List W64) (vec : List (BitVec 16)) (bad : Bool) (cmd : Issuer → PvCmd), Issuing (.pvsub d a b) c s → (c.s b).toNat < 2 ^ 20 →
      first = bits (c.s b).toNat 9 0 → count = bits (c.s b).toNat 19 10 + 1 → fs = recFslot c.kern.record (prSlot r) → esize = (if prF32 r then 4 else 2) →
      (prPage r).toNat % 2 ^ 23 = 0 → (prVec r).toNat % esize = 0 → (prProg r).toNat % 4 = 0 → (prOut r).toNat % 4 = 0 → (prStat r).toNat % 8 = 0 → progMbz r = false →
      fsFormat fs = 0 ∨ fsFormat fs = 2 ∨ fsFormat fs = 3 → prKrow r ≠ 0 → first + count ≤ 768 → badVa (prPage r) = false → isWindow (prPage r) = false →
      s1.lookup c.bez c.core (prPage r).toNat = .leaf l → leafKind l.raw = 4 → l.level = 2 →
      (∀ x, s1.leafDesc c.bez l = some x → krowFits fs (prKrow r) x.rb = true) → paveOwned c s1 l = true →
      (∀ i < count, s1.memberOf (.chan (first + i)) c.bez.num = true ∧ descFirst (s1.idesc c.bez (leafIdesc l.raw)) ≤ first + i ∧
        first + i < descFirst (s1.idesc c.bez (leafIdesc l.raw)) + descCount (s1.idesc c.bez (leafIdesc l.raw))) →
      ads = vecAds (prVec r) (prVlen r) esize → (∀ k < ads.length, c.Reaches s1 .engine 1 (ads[k]?.getD 0) (pl k)) → s2 = s1.touch c.bez c.core ads →
      (c.s d = 0 ∧ s3 = s2 ∧ oc = none ∨ c.s d ≠ 0 ∧ c.Counter s2 .sync (c.s d) o s3 ∧ oc = some o) → c.MayCommit s3 → s4 = (c.commit s3 false).publish c.g c.core 3 →
      s5 = (s4.fillPlaces ((List.range ads.length).map pl)).checkPlaces c.handle ((List.range ads.length).map pl) → readVec c s5 r ((List.range ads.length).map fun k => (k, pl k)) = (vec, bad) → c.RoomB s5 →
      (∀ y, oc = none ∧ t = c.opB s5 (.engine s5.nextCmd) ∧ y = c.issuer (some (c.nextOp s5)) none ∨
          (∃ q, oc = some o ∧ (c.opB s5 (.engine s5.nextCmd)).drawInTurn c.g o c.handle = .ticket q t ∧ y = c.issuer (some (c.nextOp s5)) (some (o, q))) →
        cmd = (fun y => { id := t.nextCmd, by_ := y, record := r, fslot := fs, vec := vec, first := first, count := count, pagePa := t.leafPa c.bez l 0, leaf := l, vecPoison := bad, waitAt := (List.range count).map (first + ·) }) →
        exec (.pvsub d a b) s = .next (c.past (sign c { t with pvCmds := t.pvCmds ++ [cmd y], nextCmd := t.nextCmd + 1 }
          [c.s d, c.s a, c.s b]))) ∧
      (oc = some o → t = c.opB s5 (.engine s5.nextCmd) → t.drawInTurn c.g o c.handle = .wait →
        cmd = (fun y => { id := t.nextCmd, by_ := y, record := r, fslot := fs, vec := vec, first := first, count := count, pagePa := t.leafPa c.bez l 0, leaf := l, vecPoison := bad, waitAt := (List.range count).map (first + ·) }) →
        ∃ y : Issuer, y.drawn = false ∧ y.ctr = some (o, 0) ∧ y.op = some (c.nextOp s5) ∧
          exec (.pvsub d a b) s = .next (c.past (sign c (c.mod { t with pvCmds := t.pvCmds ++ [cmd y], nextCmd := t.nextCmd + 1 }
            fun g => g.resolve (c.nextOp s5) id (.draw o (.pv t.nextCmd) 33)) [c.s d, c.s a, c.s b]))))) ∧
  (Issuing (.pvsub d a b) c s → c.em ≠ 0 → 2 ^ 20 ≤ (c.s b).toNat → exec (.pvsub d a b) s = .next (c.traps s ILLOPERAND 0)) ∧
  (Issuing (.pvstat d a f) c s → c.g.sh = false → c.RoomA s →
    (f = 0 → exec (.pvstat d a f) s = .next (c.past (c.opA s [.scal (sdstNum d) (if 767 < (c.s a).toNat ∨ s.memberOf (.chan (c.s a).toNat) c.bez.num = false then 0 else
      BitVec.ofNat 64 ((s.pvState (c.s a).toNat).code + (s.engine (c.s a).toNat).lastErr * 2 ^ 8 + min 64 (s.pvWaiting (c.s a).toNat).length * 2 ^ 16 +
        (s.engine (c.s a).toNat).completed.toNat * 2 ^ 32))] .ready false))) ∧
    (f ≠ 0 → badVa (c.s a) = false → (c.s a).toNat % 2 ^ 23 = 0 →
      (isWindow (c.s a) = true → exec (.pvstat d a f) s = .next (c.past (c.opA s [.scal (sdstNum d) 0] .ready false))) ∧
      (isWindow (c.s a) = false → s.lookup c.bez c.core (c.s a).toNat = .leaf l → exec (.pvstat d a f) s = .next (c.past (c.opA (s.touch c.bez c.core [c.s a])
        [.scal (sdstNum d) (if leafKind l.raw = 4 then (match s.leafDesc c.bez l with | some x => BitVec.ofNat 64 (x.gen.toNat + x.rb * 2 ^ 32) | none => 0) else 0)] .ready false))) ∧
      (∀ n, isWindow (c.s a) = false → s.lookup c.bez c.core (c.s a).toNat = .notPresent n → exec (.pvstat d a f) s = .next (s.parkGroup c (c.s a) 1 n false false))))

/-- R341, R345, R346, R348: each program word does its work on the engine and the engine goes on, or ends with the code of its error; what an
engine writes of its own rows goes to each sector of OUT in one instant, and to each sector at an instant of its own (R235). That `pv.sync`
waits for nothing, that `pv.out` writes none of the words left to it while one of them cannot be written, and that the first `pv.rows` or
`pv.mac` fixes the generation, are the model's choices (log entry 23). -/
def Obligations.PaveWords : Prop := ∀ (s s1 : State) (ch : Nat) (e : PvEngine) (p : PvCmd) (tm : Team) (k : Kernel) (z : Bezel), s.PvAt ch e p →
  exec .pvNop s = .next (s.pvOn ch) ∧ exec .pvSync s = .next (s.pvOn ch) ∧ exec .pvEnd s = .next (s.pvEnd ch p.id 0) ∧ paveIllword s = .next (s.pvEnd ch p.id 1) ∧
  (∀ u n : BitVec 14, (prVlen p.record < u.toNat + n.toNat + 1 → exec (.pvVec u n) s = .next (s.pvEnd ch p.id 2)) ∧
    (u.toNat + n.toNat < prVlen p.record → p.vecPoison = true → exec (.pvVec u n) s = .next (s.pvEnd ch p.id 4)) ∧
    (u.toNat + n.toNat < prVlen p.record → p.vecPoison = false → exec (.pvVec u n) s =
      .next ((s.modEngine ch fun x => { x with buf := (p.vec.drop u.toNat).take (n.toNat + 1), vcnt := n.toNat + 1 }).pvOn ch))) ∧
  (∀ (u : BitVec 15) (n : BitVec 10) (g : W32) (rb : Nat), s.filling p.pagePa = false → (s.pvGen p = none → exec (.pvRows u n) s = .next (s.pvEnd ch p.id 6)) ∧
    (s.pvGen p = some (g, rb) → krowFits p.fslot (prKrow p.record) rb = true → s1 = s.modPv p.id (fun x => { x with gen := some (g, rb) }) →
      exec (.pvRows u n) s = .next (if 2 ^ 15 / 2 ^ rb < u.toNat + (n.toNat + 1) then s1.pvEnd ch p.id 2
        else (s1.modEngine ch fun x => { x with rbase := u.toNat, nr := n.toNat + 1, acc := [] }).pvOn ch))) ∧
  (∀ (u n : BitVec 14) (g : W32) (rb : Nat) (w : Nat → List Nat) (ds : W64),
    (prKrow p.record < 16 * u.toNat + (n.toNat + 1) ∨ e.vcnt < n.toNat + 1 → exec (.pvMac u n) s = .next (s.pvEnd ch p.id 2)) ∧
    (16 * u.toNat + (n.toNat + 1) ≤ prKrow p.record → n.toNat + 1 ≤ e.vcnt → s.filling p.pagePa = false → s.pvGen p = some (g, rb) → krowFits p.fslot (prKrow p.record) rb = true →
      s.bezel? p.by_.bezel = some z → s1 = s.modPv p.id (fun x => { x with gen := some (g, rb) }) → ds = s1.idesc z (leafIdesc p.leaf.raw) →
      (∀ j ∈ ownRows e ds rb, s1.weights z p rb (e.rbase + j) (16 * u.toNat) (n.toNat + 1) = some (w j)) →
      exec (.pvMac u n) s = .next ((s1.modEngine ch fun x => { x with acc := (ownRows e ds rb).foldl (fun acc j =>
        mapPut 0 acc j (macRow p.fslot (w j) x.buf ((n.toNat + 1 + 15) / 16) 0 (mapGet 0 acc j))) x.acc }).pvOn ch))) ∧
  (∀ x : BitVec 16, exec (.pvScale x) s = .next ((s.modEngine ch fun q => { q with acc := (s.pvOwn e p).foldl (fun acc j =>
    mapPut 0 acc j (BitVec.ofNat 32 (f32.round 0 false false (Flo.mul (f32.dec false (mapGet 0 acc j).toNat) (bf16.dec false x.toNat))))) q.acc }).pvOn ch)) ∧
  (s.owner? p.by_ = some (tm, k, z) → (∀ out, s.outPlaces tm k z (prOut p.record) e (s.openRows e p) = .ok out →
      exec .pvOut s = .next ((s.copyWrite p.by_ (out.map fun x => (x.1, some (leBytes x.2.toNat 4)))).pvOn ch)) ∧
    (∀ x, s.outPlaces tm k z (prOut p.record) e (s.openRows e p) = .error x → exec .pvOut s = .next (s.pvStop ch p tm x))) ∧
  (s.owner? p.by_ = none → exec .pvOut s = .next (s.pvOn ch)) ∧
  (∀ n js out, s.owner? p.by_ = some (tm, k, z) → e.st = .running → bits e.word.toNat 31 0 = 0x50000000 →
    js = (s.openRows e p).filter (fun j => outSector (prOut p.record) e j == n) → js ≠ [] → s.outPlaces tm k z (prOut p.record) e js = .ok out →
    s.paveSector ch n = some ((s.copyWrite p.by_ (out.map fun x => (x.1, some (leBytes x.2.toNat 4)))).modEngine ch fun x => { x with outs := n :: x.outs }))

/-- R341, R344, R347, R348: an idle engine takes the command that arrived first of those that wait for it, a fenced one answers FENCED; a
command whose engines have all ended writes its status and leaves; a fill writes its 32,768 sectors under the next generation, after the
fills of its frame that have drawn their tickets before it. One whose generation cannot rise any more traps PROT (log entry 23: the model's
choice); an engine takes no command while the status word of the last is open (log entry 23 as well). -/
def Obligations.PaveEvents : Prop := ∀ (s s1 : State) (ch : Nat) (e : PvEngine) (p : PvCmd) (tm : Team) (k : Kernel) (z : Bezel) (l : Leaf),
  (s.input = some (.paveCommandStart ch) → s.engine ch = e → e.cur = none →
    (∀ x, s.completing ch = some x → prStat x.record ≠ 0 → exec .paveCommandStart s = .refused (.notEnabled "PAVE_COMMAND_START")) ∧
    (∀ rest, (∀ x, s.completing ch = some x → prStat x.record = 0) → s.pvWaiting ch = p :: rest → s1 = s.pvTake ch p.id →
      (e.st = .fenced → exec .paveCommandStart s = .next (s1.pvEnd ch p.id 7)) ∧
      (e.st ≠ .fenced → p.saved = [] → exec .paveCommandStart s = .next ((s1.modEngine ch fun x =>
        { chan := ch, st := .running, cur := some p.id, lastErr := x.lastErr, completed := x.completed }).pvFetch ch)))) ∧
  (∀ id, s.input = some (.paveCommandComplete id) → s.pvCmd? id = some p →
    (p.ended.length < p.count → exec .paveCommandComplete s = .refused (.notEnabled "PAVE_COMMAND_COMPLETE")) ∧
    (p.count ≤ p.ended.length → p.stopped = false → p.fault = none → p.migr = false → prStat p.record = 0 → exec .paveCommandComplete s = .next (s.endPave p)) ∧
    (∀ q, p.count ≤ p.ended.length → p.stopped = false → p.fault = none → p.migr = false → prStat p.record ≠ 0 → s.owner? p.by_ = some (tm, k, z) →
      s.enginePlace tm k z .store (prStat p.record) = .ok q →
      exec .paveCommandComplete s = .next ((s.engineWrite p.by_ tm q (leBytes p.status.toNat 8) false).endPave p))) ∧
  ((∀ x ∈ p.ended, x.2.1 = 0) → p.status = 0) ∧ (∀ n er ix, p.ended = [(n, er, ix)] → er ≠ 0 → p.status = BitVec.ofNat 64 (er + n * 2 ^ 8 + 2 ^ 32 + ix * 2 ^ 48)) ∧
  (∀ (id frame : Nat) (page src : W64) (rb : Nat) (cmd : Cmd) (data : Nat → List Byte × Bool), s.input = some (.paveFillComplete id) → s.cmd? id = some cmd →
    cmd.what = .fill frame page l src rb → s.owner? cmd.by_ = some (tm, k, z) → cmd.fault = none → cmd.migr = false → cmd.stopped = false → cmd.by_.drawn = true →
    (∀ x ∈ s.cmds.takeWhile (fun c => c.id != id), x.by_.drawn = true → ∀ pg l' sr n, x.what ≠ .fill frame pg l' sr n) → (∀ x ∈ s.pvCmds, x.pagePa = frame → x.gen = none) →
    (cmd.begun = false → s.genBlocked frame (leafOwner l.raw) = true → exec .paveFillComplete s = .next (s.trapCmd cmd PROT page)) ∧
    (cmd.begun = true ∨ s.genBlocked frame (leafOwner l.raw) = false → (∀ i < 32768, s.fillSector tm k z cmd.by_.since page src l i = .ok (data i)) →
      s1 = (if cmd.begun then s else (s.raiseGen frame (leafOwner l.raw) rb).modCmd id fun c => { c with begun := true }) →
      exec .paveFillComplete s = .next (((List.range 32768).foldl (fun s i => s.putFill z l i (data i)) (s1.checkSources tm k z cmd.by_.handle
        (((List.range 32768).filter fun i => (data i).2).map fun i => src + BitVec.ofNat 64 (256 * i)))).endCmd cmd)))

/-! ### Bezels, keys and attestation (R306 to R319, R351 to R358) -/

/-- R307, R310 to R316, R354 to R358: `bzreq` commits and answers the code of its first failing check, or applies the request and answers its
ticket; the key instructions trap ILLOPERAND on a bad slot, and else commit, act on the slot and answer their status; `attest` commits, writes
the report and completes; a rehash sweep ends a grow or gives up the leaving slices, a scrubbed unit of QUARANTINE is FREE; a draw makes a
GENERATING slot READY, or EMPTY with its kernels refused; a retest that passes makes the generator HEALTHY. R363: a slice or pseudo-channel
that is fenced keeps its bezel, whose hash leaves the slice out, and the engine of the pseudo-channel ends its command with POISON and is
FENCED. That `keygen` answers DENIED for a sealed slot whatever its state, and BUSY whatever the generator is, is the model's choice (log
entry 26); so are a scrubbed channel that reads as memory that was never written (log entry 24), and the free bytes of a poisoned nonce (log
entry 5). -/
def Obligations.BezelsAndKeys : Prop := ∀ (s s1 s2 s3 s4 t : State) (c : Ctx) (d a b : BitVec 8) (r cfg : List Byte) (ctr : Option Obj) (n : Nat) (z : Bezel) (u : UnitId),
  (Issuing (.bzreq d a) c s → c.g.sh = false → badVa (c.s a) = false → (c.s a).toNat % 256 ≠ 0 → exec (.bzreq d a) s = .next (c.traps s ALIGN (c.s a))) ∧
  (Issuing (.bzreq d a) c s → c.g.sh = false → badVa (c.s a) = false → (c.s a).toNat % 256 = 0 → c.RoomA s → c.Reads s .scalarLoad (c.s a) 256 r s1 →
    ((bzOp r = 1 ∧ (bzConfig r).toNat % 64 = 0) ∧ c.Reads s1 .scalarLoad (bzConfig r) 64 cfg s2 ∨ ¬(bzOp r = 1 ∧ (bzConfig r).toNat % 64 = 0) ∧ s2 = s1 ∧ cfg = []) →
    ((bzDone r = 0 ∨ (bzDone r).toNat % 32 ≠ 0 ∨ badVa (bzDone r) = true ∨ isWindow (bzDone r) = true ∨ ∃ x, s2.place c.team c.kern c.bez .sync (bzDone r) = .trap x) ∧ s3 = s2 ∧ ctr = none ∨
      bzDone r ≠ 0 ∧ ∃ p, isWindow (bzDone r) = false ∧ (bzDone r).toNat < 2 ^ 57 ∧ (bzDone r).toNat % 32 = 0 ∧ s2.place c.team c.kern c.bez .sync (bzDone r) = .ok p ∧
        s3 = s2.touch c.bez c.core [bzDone r] ∧ ctr = Place.counter (some p)) →
    c.MayCommit s3 → s4 = c.commit s3 false → n = s4.bzStatus (some c.bez) r cfg (bzDone r != 0 && ctr.isNone) →
    (n ≠ 0 → c.RoomA s4 → exec (.bzreq d a) s = .next (c.past (c.opA s4 [.scal (sdstNum d) (BitVec.ofNat 64 n)] .ready true))) ∧
    (n = 0 → ctr = none → c.RoomA s4 → exec (.bzreq d a) s = .next (c.past ((c.opA s4 [.scal (sdstNum d) 0] .ready true).bzApply r cfg none))) ∧
    (∀ o k, n = 0 → ctr = some o → s4.draw o c.handle = .ticket k t → c.RoomA t →
      exec (.bzreq d a) s = .next (c.past ((c.opA t [.scal (sdstNum d) (k <<< 8)] .ready true).bzApply r cfg (some (o, k))))) ∧
    (∀ o, n = 0 → ctr = some o → s4.draw o c.handle = .wait → c.RoomA s4 →
      exec (.bzreq d a) s = .next (c.past ((c.opA s4 [.scal (sdstNum d) 0] (.draw o (.bezel (bzBezel r) s4.stepNo) (sdstNum d)) true).bzApply r cfg (some (o, 0)))))) ∧
  (∀ x : Bezel, bzMbz r = false → bzConfig r = 0 → (∀ u ∈ bzUnits r, s.unit u ≠ .gone) → bzOp r = 2 →
    (x.operator = false → s.bzStatus (some x) r cfg false = 7) ∧
    (x.operator = true → s.bezelState (bzBezel r) ≠ .active → s.bzStatus (some x) r cfg false = 2) ∧
    (x.operator = true → s.bezelState (bzBezel r) = .active → (∃ u ∈ bzUnits r, s.unit u ≠ .free) → s.bzStatus (some x) r cfg false = 3) ∧
    (x.operator = true → s.bezelState (bzBezel r) = .active → (∀ u ∈ bzUnits r, s.unit u = .free) → s.bzStatus (some x) r cfg false = 0)) ∧
  (∀ i, i = .keygenGenerate d a ∨ i = .keygenDestroy d a ∨ i = .keyseal d a b → Issuing i c s → (c.s a).toNat = 0 ∨ 4096 ≤ (c.s a).toNat →
    exec i s = .next (c.traps s ILLOPERAND 0)) ∧
  (Issuing (.keyseal d a b) c s → 16 ≤ (c.s b).toNat → exec (.keyseal d a b) s = .next (c.traps s ILLOPERAND 0)) ∧
  (n = (c.s a).toNat → 0 < n → n < 4096 → c.g.sh = false → c.RoomA s → c.MayCommit s → s1 = c.commit s false →
    (∀ x, Issuing (.keygenGenerate d a) c s → s1.keyBegin c.bez n c.handle = (t, some x) → c.RoomA t →
      exec (.keygenGenerate d a) s = .next (c.past (c.opA t [.scal (sdstNum d) x] .ready true))) ∧
    (Issuing (.keygenGenerate d a) c s → s1.keyBegin c.bez n c.handle = (t, none) → c.RoomA t →
      exec (.keygenGenerate d a) s = .next (c.past (c.opA t [.scal (sdstNum d) 0] (.keyDraw n) true))) ∧
    (∀ x, Issuing (.keygenDestroy d a) c s → s1.keyDestroy c.bez n = (t, x) → c.RoomA t →
      exec (.keygenDestroy d a) s = .next (c.past (c.opA t [.scal (sdstNum d) x] .ready true))) ∧
    (∀ x, Issuing (.keyseal d a b) c s → (c.s b).toNat < 16 → s1.keySealTo c.bez n (c.s b).toNat = (t, x) → c.RoomA t →
      exec (.keyseal d a b) s = .next (c.past (c.opA t [.scal (sdstNum d) x] .ready true)))) ∧
  (∀ h : W64, (keyDenied z (s.keySlot n) = true → s.keyBegin z n h = (s, some 4) ∧ s.keyDestroy z n = (s, 4)) ∧
    (keyDenied z (s.keySlot n) = false → (s.keySlot n).st ≠ .empty → s.keyBegin z n h = (s, some 2)) ∧
    (keyDenied z (s.keySlot n) = false → (s.keySlot n).st = .empty → s.gen = .healthy → s.keyBegin z n h = (s.putKey { s.keySlot n with st := .generating }, none)) ∧
    (keyDenied z (s.keySlot n) = false → (s.keySlot n).st = .generating ∨ (s.keySlot n).st = .ready ∧ s.keyInUse n = true → s.keyDestroy z n = (s, 2)) ∧
    (keyDenied z (s.keySlot n) = false → (s.keySlot n).st = .ready → s.keyInUse n = false → s.keyDestroy z n = (s.clearSlot n, 0)) ∧
    (∀ m, (s.keySlot n).sealed = none → m = z.num ∨ z.operator = true →
      s.keySealTo z n m = (s.putKey { s.keySlot n with sealed := some m }, BitVec.ofNat 64 (m * 4096 + n)))) ∧
  (∀ (out : Nat → Place) (q : Place) (nonce : List Byte), Issuing (.attest d a b) c s →
    (c.em = 0 → c.g.sh = true ∨ c.RoomB s → exec (.attest d a b) s = .next (c.past (sign c s [c.s d, c.s a, c.s b]))) ∧
    (c.em ≠ 0 → c.g.sh = true → c.MayCommit s → exec (.attest d a b) s = .next (c.past (sign c (c.commit s false) [c.s d, c.s a, c.s b]))) ∧
    (c.em ≠ 0 → c.g.sh = false → (c.s d).toNat % 4096 = 0 → c.RoomB s → (∀ k < 16, c.Reaches s .store 256 (c.s d + BitVec.ofNat 64 (256 * k)) (out k)) →
      s1 = s.touch c.bez c.core ((List.range 16).map fun k => c.s d + BitVec.ofNat 64 (256 * k)) → c.Reaches s1 .engine 64 (c.s a) q →
      s2 = s1.touch c.bez c.core [c.s a] → c.MayCommit s2 → s3 = ((c.commit s2 false).publish c.g c.core 3).checkPlaces c.handle [q] →
      nonce = (if s3.placePoisoned q then (List.range 64).map fun k => s3.freeAt (2 ^ 77 + k) else s3.engineBytes s3.stepNo q 64) →
      t = (List.range 16).foldl (fun s k => s.engineWrite (c.issuer none none) c.team (out k) (slice (s3.report c.bez nonce (c.s b)) (256 * k) 256) false) s3 →
      c.RoomB t → exec (.attest d a b) s = .next (c.past (sign c (c.opB t .ready) [c.s d, c.s a, c.s b])))) ∧
  (u ∉ s.fencedUnits → validUnit u = true → s.unit u = .member z.num → u ∈ (s.fenceUnit u).fencedUnits ∧ ((∀ m, u ≠ .core m) → (s.fenceUnit u).unit u = .member z.num) ∧
    (∀ m, u = .slice m → z ∈ s.bezels → ∃ x ∈ (s.fenceUnit u).bezels, x.num = z.num ∧ x.sweep = true ∧ m ∈ x.oldSlices) ∧
    (∀ m, u = .chan m → ((s.fenceUnit u).engine m).st = .fenced ∧ ∀ p ∈ s.pvCmds, (s.engine m).cur = some p.id →
      { p with ended := p.ended ++ [(m, 4, (s.engine m).idx)] } ∈ (s.fenceUnit u).pvCmds)) ∧
  (s.input = some (.rehashSweepComplete n) → s.bezel? n = some z →
    (z.sweep = false → exec .rehashSweepComplete s = .refused (.notEnabled "REHASH_SWEEP_COMPLETE")) ∧
    (z.sweep = true → z.st = .growing → exec .rehashSweepComplete s = .next (((((s.sweepLines z).modBezel n fun x => { x with sweep := false, oldSlices := [] }).modBezel n fun x =>
      { x with st := .active, ticket := none })).completeTicket z.ticket)) ∧
    (z.sweep = true → z.st = .active → exec .rehashSweepComplete s = .next ((s.sweepLines z).modBezel n fun x => { x with sweep := false, oldSlices := [] }))) ∧
  (∀ u, s.input = some (.unitScrubComplete u) →
    (s.unit u = .quarantine → exec .unitScrubComplete s = .next ((s.scrub u).setUnit u .free)) ∧
    (s.unit u ≠ .quarantine → exec .unitScrubComplete s = .refused (.notEnabled "UNIT_SCRUB_COMPLETE")) ∧
    (∀ ch x, u = .chan ch → s.inChan ch x = true → ∀ y ∈ (s.scrub u).mem, y.1 ≠ x)) ∧
  ((s.keySlot n).st = .generating → (s1 = (s.writeKeys n).keyStatus n 0 → s.input = some (.keyDrawComplete n true) →
      exec .keyDrawComplete s = .next ((s1.keyWaiters n).foldl (fun s p => s.tryAdmit p.1 p.2) s1)) ∧
    (s1 = ((s.genDraw false).putKey { slot := n, sealed := (s.keySlot n).sealed }).keyStatus n 1 → s.input = some (.keyDrawComplete n false) →
      exec .keyDrawComplete s = .next ((s1.keyWaiters n).foldl (fun s p => (s.modKernel p.1 p.2 fun k => { k with err := 8 }).endKernel p.1 p.2) s1))) ∧
  (∀ pass, s.input = some (.generatorRetest pass) → (s.gen ≠ .retesting → exec .generatorRetest s = .refused (.notEnabled "GENERATOR_RETEST")) ∧
    (s.gen = .retesting → pass = true → exec .generatorRetest s = .next ({ s with gen := .healthy, fails := 0 }.locket 0 6 0x100 0 0)) ∧
    (s.gen = .retesting → pass = false → s.fails < 2 → exec .generatorRetest s = .next ({ s with fails := s.fails + 1 }.locket 0 6 (0x100 + (s.fails + 1)) 0 0)) ∧
    (s.gen = .retesting → pass = false → 2 ≤ s.fails → exec .generatorRetest s = .next ({ s with gen := .fenced, fails := 3 }.locket 0 6 0x103 0 0)))

/-! ### The Locket, translations and the host (R163, R164, R352, R359, R364 to R374) -/

/-- R359, R364 to R374: `locketw` is held with the version, `caprd` reads the capability list; `tlbinv` and `fltret` commit, wait for the group's
stores, and invalidate a range of one bezel or free a fault entry and retry; the flag of a `tlbinv` stays raised while an access translated
before is under way (R366 step 3); an audit record is delivered when its mailbox takes it; a host
access reaches only open memory and waits for an open task's block (R224); BAR0 writes are applied whole or rejected, reads outside the
allow-list answer 0 in RUN; MCMD moves the management state; a throttle step goes to slower clocks only over a limit (R368, R373); a reset
leaves the module in CONFIG_OPEN without bezels, a warm one with its Locket. Where the capabilities of the list stand and in what order, and
that Locket window, is the model's choice (log entry 9); so are the outcomes of host accesses that the spec does not give, the direction of a
step, and the limits of the dies' temperatures (log entry 25). -/
def Obligations.LocketAndHost : Prop := ∀ (s s1 t : State) (c : Ctx) (d a f : BitVec 8) (n m : Nat) (v : W64) (off : BitVec 16) (pass : Bool) (addr : Nat) (data : List Byte),
  (∀ k : BitVec 8, Issuing (.locketw d a k) c s → c.g.sh = false → c.RoomB s →
    exec (.locketw d a k) s = .next (c.past (sign c (c.held s (.locketw k (c.s a) (c.s d))) [c.s d, c.s a]))) ∧
  (Issuing (.caprd d a f) c s → c.g.sh = false → ((c.s a).toNat % 16 ≠ 0 → exec (.caprd d a f) s = .next (c.traps s ALIGN (c.s a))) ∧
    ((c.s a).toNat % 16 = 0 → c.RoomA s → exec (.caprd d a f) s = .next (c.past (c.opA s [.scal (sdstNum d)
      (if 0x100 ≤ (c.s a).toNat ∧ (c.s a).toNat ≤ 0xFF0 then s.capWord (c.s a).toNat f.toNat else 0)] .ready false)))) ∧
  (∀ off, s.capWord off 1 = (if 0x100 ≤ off ∧ (off - 0x100) / 16 < 8 then s.capData ((off - 0x100) / 16 + 1) else 0)) ∧
  (∀ i, i = .tlbinv a f ∨ i = .fltret a ∧ bits (c.s a).toNat 63 32 = 0 → Issuing i c s → c.g.sh = true → c.MayCommit s →
    exec i s = .next (c.past (sign c (c.commit s false) [c.s a]))) ∧
  (Issuing (.tlbinv a f) c s → c.g.sh = false →
    (f.toNat ≤ 2 → badVa (c.s a) = true ∨ isWindow (c.s a) = true → exec (.tlbinv a f) s = .next (c.traps s PROT (c.s a))) ∧
    ((f.toNat ≤ 2 → badVa (c.s a) = false ∧ isWindow (c.s a) = false) → c.RoomB s → c.MayCommit s → s1 = (c.commit s false).publish c.g c.core 3 →
      (s1.hasPosted c.g 4 = true → exec (.tlbinv a f) s = .next (c.waits s1 (.posted 4))) ∧
      (s1.hasPosted c.g 4 = false → t = (s1.invalidate c.bez.num (if f.toNat ≤ 2 then (c.s a).toNat else 0) (invSize f.toNat)).retryMigrating c.bez.num → c.RoomB t →
        exec (.tlbinv a f) s = .next (c.past (sign c (c.opB t (.inval c.bez.num (if f.toNat ≤ 2 then (c.s a).toNat / invSize f.toNat * invSize f.toNat else 0)
          (invSize f.toNat) c.now)) [c.s a]))))) ∧
  (∀ (r : GRef) (g : Group) (op : Nat) (x : Op) (lanes : W32) (lo size since : Nat), s.input = some (.operationCompletion r op lanes) → s.group? r = some g →
    g.op? op = some x → x.what = .inval n lo size since →
    (s.underWay n lo size since = true → exec .operationCompletion s = .refused (.notEnabled "OPERATION_COMPLETION")) ∧
    (s.underWay n lo size since = false → exec .operationCompletion s = .next (s.opReturn r x lanes))) ∧
  ((∀ e, e ∈ (s.invalidate n addr m).tlb ∨ e ∈ (s.invalidate n addr m).dieTlb → (e ∈ s.tlb ∨ e ∈ s.dieTlb) ∧
      ¬(e.bezel = n ∧ e.page < addr / m * m + m ∧ addr / m * m < e.page + pageSize e.leaf.level)) ∧
    (s.invalidate n addr m).mem = (s.drain fun _ => true).mem ∧ ∀ p ∈ (s.invalidate n addr m).posted, p.inside s.devId = false) ∧
  (Issuing (.fltret a) c s → (bits (c.s a).toNat 63 32 ≠ 0 → exec (.fltret a) s = .next (c.traps s ILLOPERAND 0)) ∧
    (bits (c.s a).toNat 63 32 = 0 → c.g.sh = false → c.RoomB s → c.MayCommit s → s1 = (c.commit s false).publish c.g c.core 3 →
      (s1.hasPosted c.g 4 = true → exec (.fltret a) s = .next (c.waits s1 (.posted 4))) ∧
      (s1.hasPosted c.g 4 = false → t = s1.faultReturn c.bez.num ((c.s a).setWidth 32) c.die c.handle → c.RoomB t →
        exec (.fltret a) s = .next (c.past (sign c (c.opB t .ready) [c.s a]))))) ∧
  (∀ (b : Bezel) (q : Audit), s.input = some (.auditRecordDelivery n m) → s.bezel? n = some b → (s.audits.find? fun x => x.bezel == n && x.kind == m) = some q →
    (s.mbPost b b.faultMb (BitVec.ofNat 32 m) q.body = some t → exec .auditRecordDelivery s = .next { t with audits := t.audits.erase q }) ∧
    (s.mbPost b b.faultMb (BitVec.ofNat 32 m) q.body = none → exec .auditRecordDelivery s = .refused (.notEnabled "AUDIT_RECORD_DELIVERY"))) ∧
  (data ≠ [] → addr % 64 + data.length ≤ 64 →
    (s.input = some (.hostMemWrite addr data) → (s.noMemory addr = true → exec .hostMemWrite s = .fault .noSuchAddress) ∧
      (s.noMemory addr = false → (s.host.entropy = true → exec .hostMemWrite s = .next s) ∧
        (∀ ow, s.host.entropy = false → ow = (s.sidecar (s.localPa addr / 256)).owner → ow ≠ 0 → exec .hostMemWrite s = .next (s.blocked ow 2 (s.localPa addr % 2 ^ 40)) ∧ (s.blocked ow 2 addr).mem = s.mem) ∧
        (s.host.entropy = false → (s.sidecar (s.localPa addr / 256)).owner = 0 → s.recallWaits (s.localPa addr / 256) = true →
          exec .hostMemWrite s = .refused (.notEnabled "HOST_MEM_WRITE")) ∧
        (s.host.entropy = false → (s.sidecar (s.localPa addr / 256)).owner = 0 → s.recallWaits (s.localPa addr / 256) = false → s.mailboxAt (s.localPa addr) = none →
          s.localPa addr % 64 + data.length ≤ 56 → exec .hostMemWrite s = .next (s.landSector [(s.localPa addr, data)] 0 none 0)))) ∧
    (s.input = some (.hostMemRead addr data.length) → (s.noMemory addr = true → exec .hostMemRead s = .fault .noSuchAddress) ∧
      (s.noMemory addr = false → (∀ ow, ow = (s.sidecar (s.localPa addr / 256)).owner → ow ≠ 0 → exec .hostMemRead s =
          .next ((s.blocked ow 1 addr).toHost (.readData addr (List.replicate data.length 0)))) ∧
        ((s.sidecar (s.localPa addr / 256)).owner = 0 → s.recallWaits (s.localPa addr / 256) = true → exec .hostMemRead s = .refused (.notEnabled "HOST_MEM_READ")) ∧
        ((s.sidecar (s.localPa addr / 256)).owner = 0 → s.recallWaits (s.localPa addr / 256) = false → s.poisoned (s.localPa addr / 256) = false → exec .hostMemRead s =
          .next (s.toHost (.readData addr ((List.range data.length).map fun i => s.homeByte (s.localPa addr + i)))))))) ∧
  (s.input = some (.bar0Write off v n) → (n ≠ 8 ∨ off.toNat % 8 ≠ 0 → exec .bar0Write s = .next (s.barReject off)) ∧
    (n = 8 → off = 0x10 → exec .bar0Write s = .next (if s.host.mstate = .configOpen then { s with host := { s.host with bootbz := v } } else s.barReject off)) ∧
    (n = 8 → off = 0x30 → exec .bar0Write s = .next (if s.host.mstate = .run then { s with host := { s.host with thrLimit := v } } else s.barReject off)) ∧
    (n = 8 → off = 8 → s.mcmdTakes v = false → exec .bar0Write s = .next (s.barReject off)) ∧
    (n = 8 → off.toNat % 8 = 0 → off ≠ 8 → off ≠ 0x10 → off ≠ 0x30 → exec .bar0Write s = .next (s.barReject off))) ∧
  (s.input = some (.bar0Read off n) → (n ≠ 8 ∨ off.toNat % 8 ≠ 0 → exec .bar0Read s = .next (s.toHost (.abort off))) ∧
    (n = 8 → off.toNat % 8 = 0 → s.host.mstate ≠ .run ∨ allowListed off.toNat = true → exec .bar0Read s = .next (s.toHost (.barData off (s.bar0 off.toNat)))) ∧
    (n = 8 → off.toNat % 8 = 0 → s.host.mstate = .run → allowListed off.toNat = false → ∃ u : State, exec .bar0Read s = .next (u.toHost (.barData off 0)))) ∧
  (s.input = some .mcmdLock → (s.host.mstate = .configOpen → exec .mcmdLock s = .next { s with host := { s.host with mstate := .configLocked } }) ∧
    (s.host.mstate ≠ .configOpen → exec .mcmdLock s = .refused (.notEnabled "MCMD_LOCK"))) ∧
  (s.input = some (.mcmdRun pass) → (s.host.mstate = .configLocked → s.host.entropy = false →
      exec .mcmdRun s = .next (({ s with host := { s.host with mstate := .run } } : State).bootForm pass)) ∧
    (s.host.mstate ≠ .configLocked ∨ s.host.entropy = true → exec .mcmdRun s = .refused (.notEnabled "MCMD_RUN"))) ∧
  (s.input = some (.mcmdDrawOpenKey pass) → s.host.entropy = true → s.host.mstate = .configOpen ∨ s.host.mstate = .configLocked → ∃ u,
    exec .mcmdDrawOpenKey s = .next u ∧ u.host.entropy = !(pass && s.gen == .healthy) ∧ u.host.mstate = s.host.mstate) ∧
  (∀ st po te, s.input = some (.throttleStep st po te) → (st ≠ s.host.thrStep → (s.host.thrStep < st ↔ s.host.overLimit po te = true)) → ∃ u, exec .throttleStep s = .next u ∧ u.host.thrStep = st ∧ u.host.power = po ∧ u.host.temp = te ∧
    u.host.thrCount = (if st = s.host.thrStep then s.host.thrCount else s.host.thrCount + 1) ∧ u.teams = s.teams ∧ u.mem = s.mem) ∧
  (∀ st po te, s.input = some (.throttleStep st po te) → st ≠ s.host.thrStep → ¬(s.host.thrStep < st ↔ s.host.overLimit po te = true) →
    exec .throttleStep s = .refused (.notEnabled "THROTTLE_STEP")) ∧
  (∀ h : HostPort, (h.thrLimit = 0 ∨ 2800 < h.thrLimit.toNat → h.powerLimit = 2800) ∧ (h.thrLimit ≠ 0 → h.thrLimit.toNat ≤ 2800 → h.powerLimit = h.thrLimit.toNat) ∧
    (∀ p te, (h.overLimit p te = true ↔ 1000 * h.powerLimit < p.toNat ∨ ∃ d < 4, Config.dieLimit d < bits te.toNat (8 * d + 7) (8 * d)))) ∧
  ((s.input = some (.warmReset pass) → ∃ u, exec .warmReset s = .next u ∧ u.bezels = [] ∧ u.teams = [] ∧ u.keys = [] ∧ u.flows = [] ∧ u.host.mstate = .configOpen ∧
      u.devId = s.devId ∧ ((∀ x ∈ s.fencedUnits, ∀ m, x ≠ .chan m) → u.side = s.side)) ∧
    (∀ failed, s.input = some (.coldReset pass failed) → ∃ u, exec .coldReset s = .next u ∧ u.bezels = [] ∧ u.teams = [] ∧ u.keys = [] ∧ u.cycles = 0 ∧ u.host.mstate = .configOpen ∧
      (pass = true → failed = [] → u.lockets = State.reset.lockets)))

/-! ### Steps, encodings, reset and memory -/

/-- A step carries out what stands first on the agenda (log entry 1): for the issue of a group that may issue, it executes the instruction that
the word at the group's place decodes to, or traps on a word that has none (R60); for an event, it executes the event's row with the event as
its input; for a pavé engine, it executes the word that the engine has fetched, or ends it with ILLWORD; for a unit, it does what the unit does without an event, where it can. With nothing on the agenda it
carries out what `choose` finds, or passes the time. Time is the model's own: the step number rises by one and the fabric clock by less
than 2^24 (log entry 6). -/
def Obligations.StepRunsDecoded : Prop := ∀ (s t : State) (rest : List Move), t = { s.tick with agenda := rest } →
  (∀ r c w, s.agenda = .issue r :: rest → t.mayIssue r = true → t.ctxOf r = some c → c.cl.words[c.cl.idx]? = some w →
    (∀ i, decode w = .ok i → step s = exec i { t with cur := some r }) ∧
    (∀ e, decode w = .error e → step s = .next (undecoded { t with cur := some r } c w e))) ∧
  (∀ r, s.agenda = .issue r :: rest → t.mayIssue r = false → step s = .refused (.notEnabled "issue")) ∧
  (∀ e, s.agenda = .event e :: rest → step s = exec (eventInstr e) { t with input := some e }) ∧
  (∀ ch e, s.agenda = .pave ch :: rest → (t.engines.find? fun x => x.chan == ch) = some e →
    (∀ i, decodePave e.word = some i → step s = exec i { t with curEng := some ch }) ∧
    (decodePave e.word = none → step s = paveIllword { t with curEng := some ch })) ∧
  (∀ h, s.agenda = .hw h :: rest → (∀ u, t.hwStep h = some u → step s = .next u) ∧ (t.hwStep h = none → step s = .refused (.notEnabled "unit"))) ∧
  (s.agenda = [] → (s.choose = none → step s = .next s.tick) ∧ (∀ m, s.choose = some m → step s = stepMove m s.tick ∧ ∃ u, step s = .next u)) ∧
  (s.tick.stepNo = s.stepNo + 1 ∧ (s.tick.cycles - s.cycles).toNat < 2 ^ 24 ∧ s.tick.mem = s.mem ∧ s.tick.teams = s.teams ∧ s.tick.bezels = s.bezels)

/-- R24, R55 and R61, R345: words written out from the encodings decode to their instructions: one of each family, with operands that
differ from field to field; a word with a filler that is not its value, with a reserved opcode and with a reserved operation decodes to none. -/
def Obligations.DecodeWords : Prop :=
  decode 0x01FFFFFE = .ok (.bra 0xFFFFFE) ∧ decode 0x06D1D204 = .ok (.brx 0xD1 0xD2 4) ∧ decode 0x10D30901 = .ok (.ballot 0xD3 9 1) ∧
  decode 0x20D0D1D2 = .ok (.sadd 0xD0 0xD1 0xD2) ∧ decode 0x3CD58001 = .ok (.smovi 0xD5 0x8001) ∧ decode 0x40030501 = .ok (.add 3 5 1) ∧
  decode 0x57D40608 = .ok (.cmplt 0xD4 6 8) ∧ decode 0x70020391 = .ok (.cvt 2 3 9 1) ∧ decode 0x710203B5 = .ok (.cvtf 2 3 1 6 5) ∧
  decode 0x84D60502 = .ok (.vshape 0xD6 5 2) ∧ decode 0x9007D8D9 = .ok (.ld 7 0xD8 0xD9) ∧ decode 0x9DF0F02A = .ok (.fence 1 1 2) ∧
  decode 0xA3F0D3D4 = .ok (.bwait 0xD3 0xD4) ∧ decode 0xAC11D201 = .ok (.tlincReserve 0x11 0xD2) ∧ decode 0xB1050203 = .ok (.mma 5 2 3) ∧
  decode 0xB5030624 = .ok (.tcvt 3 6 2 4) ∧ decode 0xC1D1D2D3 = .ok (.fsend 0xD1 0xD2 0xD3) ∧ decode 0xC9F0D20B = .ok (.cringRel 0xD2 3) ∧
  decode 0xD0F00502 = .ok (.task 5 2) ∧ decode 0xD8D1D2F0 = .ok (.mbrecv 0xD1 0xD2) ∧ decode 0xDFF0D301 = .ok (.kpreemptDiscard 0xD3) ∧
  decode 0xE1D1D2D3 = .ok (.astep 0xD1 0xD2 0xD3) ∧ decode 0xE9D1D2F0 = .ok (.pvfill 0xD1 0xD2) ∧ decode 0xF5D1D201 = .ok (.caprd 0xD1 0xD2 1) ∧
  decode 0xF6F0D302 = .ok (.tlbinv 0xD3 2) ∧ decodePave 0x10010003 = some (.pvVec 4 3) ∧ decodePave 0x2000A018 = some (.pvRows 5 3) ∧
  decodePave 0x40003F80 = some (.pvScale 0x3F80) ∧ decodePave 0x70000000 = some .pvEnd ∧ decodePave 0x40010000 = none ∧ decodePave 0x80000000 = none ∧
  (∃ e, decode 0x08000001 = .error e) ∧ (∃ e, decode 0xB2000000 = .error e) ∧ (∃ e, decode 0xAC11D203 = .error e) ∧ (∃ e, decode 0x05F10500 = .error e)

/-- R24, R55 to R58, R61 and R345: the encoder and the decoders agree in both directions. The word of every instruction of the clause stream
decodes to it with every operand, and a word that decodes to an instruction is its word, so that no bit of a word is dropped; the same of
the pavé words; a step without a word has none. -/
def Obligations.EncodeDecode : Prop := ∀ (i : Instr) (w : W32) (pave : Prop),
  (pave ↔ (∃ o n f r x, i = .pvVec o n ∨ i = .pvRows f r ∨ i = .pvMac o n ∨ i = .pvScale x) ∨ i = .pvNop ∨ i = .pvOut ∨ i = .pvSync ∨ i = .pvEnd) →
  (¬pave → (encode i = some w ↔ decode w = .ok i)) ∧ (pave → (encode i = some w ↔ decodePave w = some i)) ∧
  (pave → decode w ≠ .ok i) ∧ (¬pave → decodePave w ≠ some i) ∧
  (encode i = none ↔ ∃ e : Event, i = eventInstr e)

/-- R306, R310, R352, R354, R356, R359, R364, R368, R372: right after reset the module is in MSTATE RESET with its registers at their reset
values, every unit is FREE, no bezel, team, flow or engine command exists, every key slot is EMPTY and unsealed, the generator is HEALTHY,
and every die's Locket is empty with its next sequence number 0.
That memory which nothing has written reads 0 is the model's choice (log entry 2), as are the reset values of registers that
the manual gives none (log entry 3). -/
def Obligations.ResetState : Prop :=
  State.reset.host.mstate = .reset ∧ State.reset.host.bootbz = 0 ∧ State.reset.host.thrLimit = 0 ∧ State.reset.host.thrStep = 0 ∧ State.reset.host.thrCount = 0 ∧
  (∀ u : UnitId, State.reset.unit u = .free) ∧ State.reset.bezels = [] ∧ State.reset.teams = [] ∧ State.reset.cmds = [] ∧ State.reset.flows = [] ∧
  State.reset.cycles = 0 ∧ State.reset.arith = 0 ∧ (∀ n, State.reset.bezelState n = .vacant) ∧ (∀ n, (State.reset.keySlot n).st = .empty ∧ (State.reset.keySlot n).sealed = none) ∧
  State.reset.gen = .healthy ∧ (∀ d : Fin 4, State.reset.lockets[d].events = [] ∧ State.reset.lockets[d].seq = 0) ∧
  (∀ a, memByte State.reset.mem a = 0) ∧ (∀ ch, (State.reset.engine ch).st = .idle ∧ State.reset.pvWaiting ch = []) ∧ State.reset.MemOk

/-- The canonical form of memory is kept by every step (log entry 2): from a state in which the module's memory, the map of sidecars and every
stash list addresses in rising order and nothing that an unlisted address reads as, a step leads to such a state. -/
def Obligations.StepKeepsMemOk : Prop := ∀ s t : State, s.MemOk → step s = .next t → t.MemOk
end

