-- ==== Sys2Proof/Laws/State.lean ====
section
/-! SUPPORT. What the named updates of the state, of a team and of a group leave alone, one lemma per field, and what they
leave in the field they change. -/

namespace Sys2Proof.Machine

open Sys2Proof

/-! ### `State.modTeam` -/

@[simp] theorem State.modTeam_devId (s : State) (n : Nat) (f : Team → Team) : (s.modTeam n f).devId = s.devId := rfl
@[simp] theorem State.modTeam_stepNo (s : State) (n : Nat) (f : Team → Team) : (s.modTeam n f).stepNo = s.stepNo := rfl
@[simp] theorem State.modTeam_fresh (s : State) (n : Nat) (f : Team → Team) : (s.modTeam n f).fresh = s.fresh := rfl
@[simp] theorem State.modTeam_cycles (s : State) (n : Nat) (f : Team → Team) : (s.modTeam n f).cycles = s.cycles := rfl
@[simp] theorem State.modTeam_arith (s : State) (n : Nat) (f : Team → Team) : (s.modTeam n f).arith = s.arith := rfl
@[simp] theorem State.modTeam_cur (s : State) (n : Nat) (f : Team → Team) : (s.modTeam n f).cur = s.cur := rfl
@[simp] theorem State.modTeam_input (s : State) (n : Nat) (f : Team → Team) : (s.modTeam n f).input = s.input := rfl
@[simp] theorem State.modTeam_curEng (s : State) (n : Nat) (f : Team → Team) : (s.modTeam n f).curEng = s.curEng := rfl
@[simp] theorem State.modTeam_agenda (s : State) (n : Nat) (f : Team → Team) : (s.modTeam n f).agenda = s.agenda := rfl
@[simp] theorem State.modTeam_mem (s : State) (n : Nat) (f : Team → Team) : (s.modTeam n f).mem = s.mem := rfl
@[simp] theorem State.modTeam_side (s : State) (n : Nat) (f : Team → Team) : (s.modTeam n f).side = s.side := rfl
@[simp] theorem State.modTeam_leases (s : State) (n : Nat) (f : Team → Team) : (s.modTeam n f).leases = s.leases := rfl
@[simp] theorem State.modTeam_lines (s : State) (n : Nat) (f : Team → Team) : (s.modTeam n f).lines = s.lines := rfl
@[simp] theorem State.modTeam_errs (s : State) (n : Nat) (f : Team → Team) : (s.modTeam n f).errs = s.errs := rfl
@[simp] theorem State.modTeam_tlb (s : State) (n : Nat) (f : Team → Team) : (s.modTeam n f).tlb = s.tlb := rfl
@[simp] theorem State.modTeam_dieTlb (s : State) (n : Nat) (f : Team → Team) : (s.modTeam n f).dieTlb = s.dieTlb := rfl
@[simp] theorem State.modTeam_retired (s : State) (n : Nat) (f : Team → Team) : (s.modTeam n f).retired = s.retired := rfl
@[simp] theorem State.modTeam_posted (s : State) (n : Nat) (f : Team → Team) : (s.modTeam n f).posted = s.posted := rfl
@[simp] theorem State.modTeam_units (s : State) (n : Nat) (f : Team → Team) : (s.modTeam n f).units = s.units := rfl
@[simp] theorem State.modTeam_fencedUnits (s : State) (n : Nat) (f : Team → Team) : (s.modTeam n f).fencedUnits = s.fencedUnits := rfl
@[simp] theorem State.modTeam_fencedSub (s : State) (n : Nat) (f : Team → Team) : (s.modTeam n f).fencedSub = s.fencedSub := rfl
@[simp] theorem State.modTeam_lost (s : State) (n : Nat) (f : Team → Team) : (s.modTeam n f).lost = s.lost := rfl
@[simp] theorem State.modTeam_caps (s : State) (n : Nat) (f : Team → Team) : (s.modTeam n f).caps = s.caps := rfl
@[simp] theorem State.modTeam_nextCaps (s : State) (n : Nat) (f : Team → Team) : (s.modTeam n f).nextCaps = s.nextCaps := rfl
@[simp] theorem State.modTeam_lanesOut (s : State) (n : Nat) (f : Team → Team) : (s.modTeam n f).lanesOut = s.lanesOut := rfl
@[simp] theorem State.modTeam_bezels (s : State) (n : Nat) (f : Team → Team) : (s.modTeam n f).bezels = s.bezels := rfl
@[simp] theorem State.modTeam_nextSid (s : State) (n : Nat) (f : Team → Team) : (s.modTeam n f).nextSid = s.nextSid := rfl
@[simp] theorem State.modTeam_cmds (s : State) (n : Nat) (f : Team → Team) : (s.modTeam n f).cmds = s.cmds := rfl
@[simp] theorem State.modTeam_nextCmd (s : State) (n : Nat) (f : Team → Team) : (s.modTeam n f).nextCmd = s.nextCmd := rfl
@[simp] theorem State.modTeam_rel (s : State) (n : Nat) (f : Team → Team) : (s.modTeam n f).rel = s.rel := rfl
@[simp] theorem State.modTeam_late (s : State) (n : Nat) (f : Team → Team) : (s.modTeam n f).late = s.late := rfl
@[simp] theorem State.modTeam_heldCompletions (s : State) (n : Nat) (f : Team → Team) : (s.modTeam n f).heldCompletions = s.heldCompletions := rfl
@[simp] theorem State.modTeam_heldOps (s : State) (n : Nat) (f : Team → Team) : (s.modTeam n f).heldOps = s.heldOps := rfl
@[simp] theorem State.modTeam_flows (s : State) (n : Nat) (f : Team → Team) : (s.modTeam n f).flows = s.flows := rfl
@[simp] theorem State.modTeam_mirrorQ (s : State) (n : Nat) (f : Team → Team) : (s.modTeam n f).mirrorQ = s.mirrorQ := rfl
@[simp] theorem State.modTeam_net (s : State) (n : Nat) (f : Team → Team) : (s.modTeam n f).net = s.net := rfl
@[simp] theorem State.modTeam_pvCmds (s : State) (n : Nat) (f : Team → Team) : (s.modTeam n f).pvCmds = s.pvCmds := rfl
@[simp] theorem State.modTeam_engines (s : State) (n : Nat) (f : Team → Team) : (s.modTeam n f).engines = s.engines := rfl
@[simp] theorem State.modTeam_pvDescs (s : State) (n : Nat) (f : Team → Team) : (s.modTeam n f).pvDescs = s.pvDescs := rfl
@[simp] theorem State.modTeam_acts (s : State) (n : Nat) (f : Team → Team) : (s.modTeam n f).acts = s.acts := rfl
@[simp] theorem State.modTeam_actFreed (s : State) (n : Nat) (f : Team → Team) : (s.modTeam n f).actFreed = s.actFreed := rfl
@[simp] theorem State.modTeam_actNext (s : State) (n : Nat) (f : Team → Team) : (s.modTeam n f).actNext = s.actNext := rfl
@[simp] theorem State.modTeam_actSeq (s : State) (n : Nat) (f : Team → Team) : (s.modTeam n f).actSeq = s.actSeq := rfl
@[simp] theorem State.modTeam_stamp (s : State) (n : Nat) (f : Team → Team) : (s.modTeam n f).stamp = s.stamp := rfl
@[simp] theorem State.modTeam_keys (s : State) (n : Nat) (f : Team → Team) : (s.modTeam n f).keys = s.keys := rfl
@[simp] theorem State.modTeam_openKey (s : State) (n : Nat) (f : Team → Team) : (s.modTeam n f).openKey = s.openKey := rfl
@[simp] theorem State.modTeam_written (s : State) (n : Nat) (f : Team → Team) : (s.modTeam n f).written = s.written := rfl
@[simp] theorem State.modTeam_epochs (s : State) (n : Nat) (f : Team → Team) : (s.modTeam n f).epochs = s.epochs := rfl
@[simp] theorem State.modTeam_gen (s : State) (n : Nat) (f : Team → Team) : (s.modTeam n f).gen = s.gen := rfl
@[simp] theorem State.modTeam_fails (s : State) (n : Nat) (f : Team → Team) : (s.modTeam n f).fails = s.fails := rfl
@[simp] theorem State.modTeam_measurement (s : State) (n : Nat) (f : Team → Team) : (s.modTeam n f).measurement = s.measurement := rfl
@[simp] theorem State.modTeam_lockets (s : State) (n : Nat) (f : Team → Team) : (s.modTeam n f).lockets = s.lockets := rfl
@[simp] theorem State.modTeam_audits (s : State) (n : Nat) (f : Team → Team) : (s.modTeam n f).audits = s.audits := rfl
@[simp] theorem State.modTeam_host (s : State) (n : Nat) (f : Team → Team) : (s.modTeam n f).host = s.host := rfl
@[simp] theorem State.modTeam_teams (s : State) (n : Nat) (f : Team → Team) : (s.modTeam n f).teams = s.teams.map fun t => if t.sid == n then f t else t := rfl

/-! ### `State.modGroup` -/

@[simp] theorem State.modGroup_devId (s : State) (r : GRef) (f : Group → Group) : (s.modGroup r f).devId = s.devId := rfl
@[simp] theorem State.modGroup_stepNo (s : State) (r : GRef) (f : Group → Group) : (s.modGroup r f).stepNo = s.stepNo := rfl
@[simp] theorem State.modGroup_fresh (s : State) (r : GRef) (f : Group → Group) : (s.modGroup r f).fresh = s.fresh := rfl
@[simp] theorem State.modGroup_cycles (s : State) (r : GRef) (f : Group → Group) : (s.modGroup r f).cycles = s.cycles := rfl
@[simp] theorem State.modGroup_arith (s : State) (r : GRef) (f : Group → Group) : (s.modGroup r f).arith = s.arith := rfl
@[simp] theorem State.modGroup_cur (s : State) (r : GRef) (f : Group → Group) : (s.modGroup r f).cur = s.cur := rfl
@[simp] theorem State.modGroup_input (s : State) (r : GRef) (f : Group → Group) : (s.modGroup r f).input = s.input := rfl
@[simp] theorem State.modGroup_curEng (s : State) (r : GRef) (f : Group → Group) : (s.modGroup r f).curEng = s.curEng := rfl
@[simp] theorem State.modGroup_agenda (s : State) (r : GRef) (f : Group → Group) : (s.modGroup r f).agenda = s.agenda := rfl
@[simp] theorem State.modGroup_mem (s : State) (r : GRef) (f : Group → Group) : (s.modGroup r f).mem = s.mem := rfl
@[simp] theorem State.modGroup_side (s : State) (r : GRef) (f : Group → Group) : (s.modGroup r f).side = s.side := rfl
@[simp] theorem State.modGroup_leases (s : State) (r : GRef) (f : Group → Group) : (s.modGroup r f).leases = s.leases := rfl
@[simp] theorem State.modGroup_lines (s : State) (r : GRef) (f : Group → Group) : (s.modGroup r f).lines = s.lines := rfl
@[simp] theorem State.modGroup_errs (s : State) (r : GRef) (f : Group → Group) : (s.modGroup r f).errs = s.errs := rfl
@[simp] theorem State.modGroup_tlb (s : State) (r : GRef) (f : Group → Group) : (s.modGroup r f).tlb = s.tlb := rfl
@[simp] theorem State.modGroup_dieTlb (s : State) (r : GRef) (f : Group → Group) : (s.modGroup r f).dieTlb = s.dieTlb := rfl
@[simp] theorem State.modGroup_retired (s : State) (r : GRef) (f : Group → Group) : (s.modGroup r f).retired = s.retired := rfl
@[simp] theorem State.modGroup_posted (s : State) (r : GRef) (f : Group → Group) : (s.modGroup r f).posted = s.posted := rfl
@[simp] theorem State.modGroup_units (s : State) (r : GRef) (f : Group → Group) : (s.modGroup r f).units = s.units := rfl
@[simp] theorem State.modGroup_fencedUnits (s : State) (r : GRef) (f : Group → Group) : (s.modGroup r f).fencedUnits = s.fencedUnits := rfl
@[simp] theorem State.modGroup_fencedSub (s : State) (r : GRef) (f : Group → Group) : (s.modGroup r f).fencedSub = s.fencedSub := rfl
@[simp] theorem State.modGroup_lost (s : State) (r : GRef) (f : Group → Group) : (s.modGroup r f).lost = s.lost := rfl
@[simp] theorem State.modGroup_caps (s : State) (r : GRef) (f : Group → Group) : (s.modGroup r f).caps = s.caps := rfl
@[simp] theorem State.modGroup_nextCaps (s : State) (r : GRef) (f : Group → Group) : (s.modGroup r f).nextCaps = s.nextCaps := rfl
@[simp] theorem State.modGroup_lanesOut (s : State) (r : GRef) (f : Group → Group) : (s.modGroup r f).lanesOut = s.lanesOut := rfl
@[simp] theorem State.modGroup_bezels (s : State) (r : GRef) (f : Group → Group) : (s.modGroup r f).bezels = s.bezels := rfl
@[simp] theorem State.modGroup_nextSid (s : State) (r : GRef) (f : Group → Group) : (s.modGroup r f).nextSid = s.nextSid := rfl
@[simp] theorem State.modGroup_cmds (s : State) (r : GRef) (f : Group → Group) : (s.modGroup r f).cmds = s.cmds := rfl
@[simp] theorem State.modGroup_nextCmd (s : State) (r : GRef) (f : Group → Group) : (s.modGroup r f).nextCmd = s.nextCmd := rfl
@[simp] theorem State.modGroup_rel (s : State) (r : GRef) (f : Group → Group) : (s.modGroup r f).rel = s.rel := rfl
@[simp] theorem State.modGroup_late (s : State) (r : GRef) (f : Group → Group) : (s.modGroup r f).late = s.late := rfl
@[simp] theorem State.modGroup_heldCompletions (s : State) (r : GRef) (f : Group → Group) : (s.modGroup r f).heldCompletions = s.heldCompletions := rfl
@[simp] theorem State.modGroup_heldOps (s : State) (r : GRef) (f : Group → Group) : (s.modGroup r f).heldOps = s.heldOps := rfl
@[simp] theorem State.modGroup_flows (s : State) (r : GRef) (f : Group → Group) : (s.modGroup r f).flows = s.flows := rfl
@[simp] theorem State.modGroup_mirrorQ (s : State) (r : GRef) (f : Group → Group) : (s.modGroup r f).mirrorQ = s.mirrorQ := rfl
@[simp] theorem State.modGroup_net (s : State) (r : GRef) (f : Group → Group) : (s.modGroup r f).net = s.net := rfl
@[simp] theorem State.modGroup_pvCmds (s : State) (r : GRef) (f : Group → Group) : (s.modGroup r f).pvCmds = s.pvCmds := rfl
@[simp] theorem State.modGroup_engines (s : State) (r : GRef) (f : Group → Group) : (s.modGroup r f).engines = s.engines := rfl
@[simp] theorem State.modGroup_pvDescs (s : State) (r : GRef) (f : Group → Group) : (s.modGroup r f).pvDescs = s.pvDescs := rfl
@[simp] theorem State.modGroup_acts (s : State) (r : GRef) (f : Group → Group) : (s.modGroup r f).acts = s.acts := rfl
@[simp] theorem State.modGroup_actFreed (s : State) (r : GRef) (f : Group → Group) : (s.modGroup r f).actFreed = s.actFreed := rfl
@[simp] theorem State.modGroup_actNext (s : State) (r : GRef) (f : Group → Group) : (s.modGroup r f).actNext = s.actNext := rfl
@[simp] theorem State.modGroup_actSeq (s : State) (r : GRef) (f : Group → Group) : (s.modGroup r f).actSeq = s.actSeq := rfl
@[simp] theorem State.modGroup_stamp (s : State) (r : GRef) (f : Group → Group) : (s.modGroup r f).stamp = s.stamp := rfl
@[simp] theorem State.modGroup_keys (s : State) (r : GRef) (f : Group → Group) : (s.modGroup r f).keys = s.keys := rfl
@[simp] theorem State.modGroup_openKey (s : State) (r : GRef) (f : Group → Group) : (s.modGroup r f).openKey = s.openKey := rfl
@[simp] theorem State.modGroup_written (s : State) (r : GRef) (f : Group → Group) : (s.modGroup r f).written = s.written := rfl
@[simp] theorem State.modGroup_epochs (s : State) (r : GRef) (f : Group → Group) : (s.modGroup r f).epochs = s.epochs := rfl
@[simp] theorem State.modGroup_gen (s : State) (r : GRef) (f : Group → Group) : (s.modGroup r f).gen = s.gen := rfl
@[simp] theorem State.modGroup_fails (s : State) (r : GRef) (f : Group → Group) : (s.modGroup r f).fails = s.fails := rfl
@[simp] theorem State.modGroup_measurement (s : State) (r : GRef) (f : Group → Group) : (s.modGroup r f).measurement = s.measurement := rfl
@[simp] theorem State.modGroup_lockets (s : State) (r : GRef) (f : Group → Group) : (s.modGroup r f).lockets = s.lockets := rfl
@[simp] theorem State.modGroup_audits (s : State) (r : GRef) (f : Group → Group) : (s.modGroup r f).audits = s.audits := rfl
@[simp] theorem State.modGroup_host (s : State) (r : GRef) (f : Group → Group) : (s.modGroup r f).host = s.host := rfl
@[simp] theorem State.modGroup_teams (s : State) (r : GRef) (f : Group → Group) : (s.modGroup r f).teams = s.teams.map fun t => if t.sid == r.team then t.modGroup r f else t := rfl

/-! ### `State.modBezel` -/

@[simp] theorem State.modBezel_devId (s : State) (n : Nat) (f : Bezel → Bezel) : (s.modBezel n f).devId = s.devId := rfl
@[simp] theorem State.modBezel_stepNo (s : State) (n : Nat) (f : Bezel → Bezel) : (s.modBezel n f).stepNo = s.stepNo := rfl
@[simp] theorem State.modBezel_fresh (s : State) (n : Nat) (f : Bezel → Bezel) : (s.modBezel n f).fresh = s.fresh := rfl
@[simp] theorem State.modBezel_cycles (s : State) (n : Nat) (f : Bezel → Bezel) : (s.modBezel n f).cycles = s.cycles := rfl
@[simp] theorem State.modBezel_arith (s : State) (n : Nat) (f : Bezel → Bezel) : (s.modBezel n f).arith = s.arith := rfl
@[simp] theorem State.modBezel_cur (s : State) (n : Nat) (f : Bezel → Bezel) : (s.modBezel n f).cur = s.cur := rfl
@[simp] theorem State.modBezel_input (s : State) (n : Nat) (f : Bezel → Bezel) : (s.modBezel n f).input = s.input := rfl
@[simp] theorem State.modBezel_curEng (s : State) (n : Nat) (f : Bezel → Bezel) : (s.modBezel n f).curEng = s.curEng := rfl
@[simp] theorem State.modBezel_agenda (s : State) (n : Nat) (f : Bezel → Bezel) : (s.modBezel n f).agenda = s.agenda := rfl
@[simp] theorem State.modBezel_mem (s : State) (n : Nat) (f : Bezel → Bezel) : (s.modBezel n f).mem = s.mem := rfl
@[simp] theorem State.modBezel_side (s : State) (n : Nat) (f : Bezel → Bezel) : (s.modBezel n f).side = s.side := rfl
@[simp] theorem State.modBezel_leases (s : State) (n : Nat) (f : Bezel → Bezel) : (s.modBezel n f).leases = s.leases := rfl
@[simp] theorem State.modBezel_lines (s : State) (n : Nat) (f : Bezel → Bezel) : (s.modBezel n f).lines = s.lines := rfl
@[simp] theorem State.modBezel_errs (s : State) (n : Nat) (f : Bezel → Bezel) : (s.modBezel n f).errs = s.errs := rfl
@[simp] theorem State.modBezel_tlb (s : State) (n : Nat) (f : Bezel → Bezel) : (s.modBezel n f).tlb = s.tlb := rfl
@[simp] theorem State.modBezel_dieTlb (s : State) (n : Nat) (f : Bezel → Bezel) : (s.modBezel n f).dieTlb = s.dieTlb := rfl
@[simp] theorem State.modBezel_retired (s : State) (n : Nat) (f : Bezel → Bezel) : (s.modBezel n f).retired = s.retired := rfl
@[simp] theorem State.modBezel_posted (s : State) (n : Nat) (f : Bezel → Bezel) : (s.modBezel n f).posted = s.posted := rfl
@[simp] theorem State.modBezel_units (s : State) (n : Nat) (f : Bezel → Bezel) : (s.modBezel n f).units = s.units := rfl
@[simp] theorem State.modBezel_fencedUnits (s : State) (n : Nat) (f : Bezel → Bezel) : (s.modBezel n f).fencedUnits = s.fencedUnits := rfl
@[simp] theorem State.modBezel_fencedSub (s : State) (n : Nat) (f : Bezel → Bezel) : (s.modBezel n f).fencedSub = s.fencedSub := rfl
@[simp] theorem State.modBezel_lost (s : State) (n : Nat) (f : Bezel → Bezel) : (s.modBezel n f).lost = s.lost := rfl
@[simp] theorem State.modBezel_caps (s : State) (n : Nat) (f : Bezel → Bezel) : (s.modBezel n f).caps = s.caps := rfl
@[simp] theorem State.modBezel_nextCaps (s : State) (n : Nat) (f : Bezel → Bezel) : (s.modBezel n f).nextCaps = s.nextCaps := rfl
@[simp] theorem State.modBezel_lanesOut (s : State) (n : Nat) (f : Bezel → Bezel) : (s.modBezel n f).lanesOut = s.lanesOut := rfl
@[simp] theorem State.modBezel_teams (s : State) (n : Nat) (f : Bezel → Bezel) : (s.modBezel n f).teams = s.teams := rfl
@[simp] theorem State.modBezel_nextSid (s : State) (n : Nat) (f : Bezel → Bezel) : (s.modBezel n f).nextSid = s.nextSid := rfl
@[simp] theorem State.modBezel_cmds (s : State) (n : Nat) (f : Bezel → Bezel) : (s.modBezel n f).cmds = s.cmds := rfl
@[simp] theorem State.modBezel_nextCmd (s : State) (n : Nat) (f : Bezel → Bezel) : (s.modBezel n f).nextCmd = s.nextCmd := rfl
@[simp] theorem State.modBezel_rel (s : State) (n : Nat) (f : Bezel → Bezel) : (s.modBezel n f).rel = s.rel := rfl
@[simp] theorem State.modBezel_late (s : State) (n : Nat) (f : Bezel → Bezel) : (s.modBezel n f).late = s.late := rfl
@[simp] theorem State.modBezel_heldCompletions (s : State) (n : Nat) (f : Bezel → Bezel) : (s.modBezel n f).heldCompletions = s.heldCompletions := rfl
@[simp] theorem State.modBezel_heldOps (s : State) (n : Nat) (f : Bezel → Bezel) : (s.modBezel n f).heldOps = s.heldOps := rfl
@[simp] theorem State.modBezel_flows (s : State) (n : Nat) (f : Bezel → Bezel) : (s.modBezel n f).flows = s.flows := rfl
@[simp] theorem State.modBezel_mirrorQ (s : State) (n : Nat) (f : Bezel → Bezel) : (s.modBezel n f).mirrorQ = s.mirrorQ := rfl
@[simp] theorem State.modBezel_net (s : State) (n : Nat) (f : Bezel → Bezel) : (s.modBezel n f).net = s.net := rfl
@[simp] theorem State.modBezel_pvCmds (s : State) (n : Nat) (f : Bezel → Bezel) : (s.modBezel n f).pvCmds = s.pvCmds := rfl
@[simp] theorem State.modBezel_engines (s : State) (n : Nat) (f : Bezel → Bezel) : (s.modBezel n f).engines = s.engines := rfl
@[simp] theorem State.modBezel_pvDescs (s : State) (n : Nat) (f : Bezel → Bezel) : (s.modBezel n f).pvDescs = s.pvDescs := rfl
@[simp] theorem State.modBezel_acts (s : State) (n : Nat) (f : Bezel → Bezel) : (s.modBezel n f).acts = s.acts := rfl
@[simp] theorem State.modBezel_actFreed (s : State) (n : Nat) (f : Bezel → Bezel) : (s.modBezel n f).actFreed = s.actFreed := rfl
@[simp] theorem State.modBezel_actNext (s : State) (n : Nat) (f : Bezel → Bezel) : (s.modBezel n f).actNext = s.actNext := rfl
@[simp] theorem State.modBezel_actSeq (s : State) (n : Nat) (f : Bezel → Bezel) : (s.modBezel n f).actSeq = s.actSeq := rfl
@[simp] theorem State.modBezel_stamp (s : State) (n : Nat) (f : Bezel → Bezel) : (s.modBezel n f).stamp = s.stamp := rfl
@[simp] theorem State.modBezel_keys (s : State) (n : Nat) (f : Bezel → Bezel) : (s.modBezel n f).keys = s.keys := rfl
@[simp] theorem State.modBezel_openKey (s : State) (n : Nat) (f : Bezel → Bezel) : (s.modBezel n f).openKey = s.openKey := rfl
@[simp] theorem State.modBezel_written (s : State) (n : Nat) (f : Bezel → Bezel) : (s.modBezel n f).written = s.written := rfl
@[simp] theorem State.modBezel_epochs (s : State) (n : Nat) (f : Bezel → Bezel) : (s.modBezel n f).epochs = s.epochs := rfl
@[simp] theorem State.modBezel_gen (s : State) (n : Nat) (f : Bezel → Bezel) : (s.modBezel n f).gen = s.gen := rfl
@[simp] theorem State.modBezel_fails (s : State) (n : Nat) (f : Bezel → Bezel) : (s.modBezel n f).fails = s.fails := rfl
@[simp] theorem State.modBezel_measurement (s : State) (n : Nat) (f : Bezel → Bezel) : (s.modBezel n f).measurement = s.measurement := rfl
@[simp] theorem State.modBezel_lockets (s : State) (n : Nat) (f : Bezel → Bezel) : (s.modBezel n f).lockets = s.lockets := rfl
@[simp] theorem State.modBezel_audits (s : State) (n : Nat) (f : Bezel → Bezel) : (s.modBezel n f).audits = s.audits := rfl
@[simp] theorem State.modBezel_host (s : State) (n : Nat) (f : Bezel → Bezel) : (s.modBezel n f).host = s.host := rfl
@[simp] theorem State.modBezel_bezels (s : State) (n : Nat) (f : Bezel → Bezel) : (s.modBezel n f).bezels = s.bezels.map fun x => if x.num == n then f x else x := rfl

/-! ### `State.modKernel` -/

@[simp] theorem State.modKernel_devId (s : State) (b k : Nat) (f : Kernel → Kernel) : (s.modKernel b k f).devId = s.devId := rfl
@[simp] theorem State.modKernel_stepNo (s : State) (b k : Nat) (f : Kernel → Kernel) : (s.modKernel b k f).stepNo = s.stepNo := rfl
@[simp] theorem State.modKernel_fresh (s : State) (b k : Nat) (f : Kernel → Kernel) : (s.modKernel b k f).fresh = s.fresh := rfl
@[simp] theorem State.modKernel_cycles (s : State) (b k : Nat) (f : Kernel → Kernel) : (s.modKernel b k f).cycles = s.cycles := rfl
@[simp] theorem State.modKernel_arith (s : State) (b k : Nat) (f : Kernel → Kernel) : (s.modKernel b k f).arith = s.arith := rfl
@[simp] theorem State.modKernel_cur (s : State) (b k : Nat) (f : Kernel → Kernel) : (s.modKernel b k f).cur = s.cur := rfl
@[simp] theorem State.modKernel_input (s : State) (b k : Nat) (f : Kernel → Kernel) : (s.modKernel b k f).input = s.input := rfl
@[simp] theorem State.modKernel_curEng (s : State) (b k : Nat) (f : Kernel → Kernel) : (s.modKernel b k f).curEng = s.curEng := rfl
@[simp] theorem State.modKernel_agenda (s : State) (b k : Nat) (f : Kernel → Kernel) : (s.modKernel b k f).agenda = s.agenda := rfl
@[simp] theorem State.modKernel_mem (s : State) (b k : Nat) (f : Kernel → Kernel) : (s.modKernel b k f).mem = s.mem := rfl
@[simp] theorem State.modKernel_side (s : State) (b k : Nat) (f : Kernel → Kernel) : (s.modKernel b k f).side = s.side := rfl
@[simp] theorem State.modKernel_leases (s : State) (b k : Nat) (f : Kernel → Kernel) : (s.modKernel b k f).leases = s.leases := rfl
@[simp] theorem State.modKernel_lines (s : State) (b k : Nat) (f : Kernel → Kernel) : (s.modKernel b k f).lines = s.lines := rfl
@[simp] theorem State.modKernel_errs (s : State) (b k : Nat) (f : Kernel → Kernel) : (s.modKernel b k f).errs = s.errs := rfl
@[simp] theorem State.modKernel_tlb (s : State) (b k : Nat) (f : Kernel → Kernel) : (s.modKernel b k f).tlb = s.tlb := rfl
@[simp] theorem State.modKernel_dieTlb (s : State) (b k : Nat) (f : Kernel → Kernel) : (s.modKernel b k f).dieTlb = s.dieTlb := rfl
@[simp] theorem State.modKernel_retired (s : State) (b k : Nat) (f : Kernel → Kernel) : (s.modKernel b k f).retired = s.retired := rfl
@[simp] theorem State.modKernel_posted (s : State) (b k : Nat) (f : Kernel → Kernel) : (s.modKernel b k f).posted = s.posted := rfl
@[simp] theorem State.modKernel_units (s : State) (b k : Nat) (f : Kernel → Kernel) : (s.modKernel b k f).units = s.units := rfl
@[simp] theorem State.modKernel_fencedUnits (s : State) (b k : Nat) (f : Kernel → Kernel) : (s.modKernel b k f).fencedUnits = s.fencedUnits := rfl
@[simp] theorem State.modKernel_fencedSub (s : State) (b k : Nat) (f : Kernel → Kernel) : (s.modKernel b k f).fencedSub = s.fencedSub := rfl
@[simp] theorem State.modKernel_lost (s : State) (b k : Nat) (f : Kernel → Kernel) : (s.modKernel b k f).lost = s.lost := rfl
@[simp] theorem State.modKernel_caps (s : State) (b k : Nat) (f : Kernel → Kernel) : (s.modKernel b k f).caps = s.caps := rfl
@[simp] theorem State.modKernel_nextCaps (s : State) (b k : Nat) (f : Kernel → Kernel) : (s.modKernel b k f).nextCaps = s.nextCaps := rfl
@[simp] theorem State.modKernel_lanesOut (s : State) (b k : Nat) (f : Kernel → Kernel) : (s.modKernel b k f).lanesOut = s.lanesOut := rfl
@[simp] theorem State.modKernel_teams (s : State) (b k : Nat) (f : Kernel → Kernel) : (s.modKernel b k f).teams = s.teams := rfl
@[simp] theorem State.modKernel_nextSid (s : State) (b k : Nat) (f : Kernel → Kernel) : (s.modKernel b k f).nextSid = s.nextSid := rfl
@[simp] theorem State.modKernel_cmds (s : State) (b k : Nat) (f : Kernel → Kernel) : (s.modKernel b k f).cmds = s.cmds := rfl
@[simp] theorem State.modKernel_nextCmd (s : State) (b k : Nat) (f : Kernel → Kernel) : (s.modKernel b k f).nextCmd = s.nextCmd := rfl
@[simp] theorem State.modKernel_rel (s : State) (b k : Nat) (f : Kernel → Kernel) : (s.modKernel b k f).rel = s.rel := rfl
@[simp] theorem State.modKernel_late (s : State) (b k : Nat) (f : Kernel → Kernel) : (s.modKernel b k f).late = s.late := rfl
@[simp] theorem State.modKernel_heldCompletions (s : State) (b k : Nat) (f : Kernel → Kernel) : (s.modKernel b k f).heldCompletions = s.heldCompletions := rfl
@[simp] theorem State.modKernel_heldOps (s : State) (b k : Nat) (f : Kernel → Kernel) : (s.modKernel b k f).heldOps = s.heldOps := rfl
@[simp] theorem State.modKernel_flows (s : State) (b k : Nat) (f : Kernel → Kernel) : (s.modKernel b k f).flows = s.flows := rfl
@[simp] theorem State.modKernel_mirrorQ (s : State) (b k : Nat) (f : Kernel → Kernel) : (s.modKernel b k f).mirrorQ = s.mirrorQ := rfl
@[simp] theorem State.modKernel_net (s : State) (b k : Nat) (f : Kernel → Kernel) : (s.modKernel b k f).net = s.net := rfl
@[simp] theorem State.modKernel_pvCmds (s : State) (b k : Nat) (f : Kernel → Kernel) : (s.modKernel b k f).pvCmds = s.pvCmds := rfl
@[simp] theorem State.modKernel_engines (s : State) (b k : Nat) (f : Kernel → Kernel) : (s.modKernel b k f).engines = s.engines := rfl
@[simp] theorem State.modKernel_pvDescs (s : State) (b k : Nat) (f : Kernel → Kernel) : (s.modKernel b k f).pvDescs = s.pvDescs := rfl
@[simp] theorem State.modKernel_acts (s : State) (b k : Nat) (f : Kernel → Kernel) : (s.modKernel b k f).acts = s.acts := rfl
@[simp] theorem State.modKernel_actFreed (s : State) (b k : Nat) (f : Kernel → Kernel) : (s.modKernel b k f).actFreed = s.actFreed := rfl
@[simp] theorem State.modKernel_actNext (s : State) (b k : Nat) (f : Kernel → Kernel) : (s.modKernel b k f).actNext = s.actNext := rfl
@[simp] theorem State.modKernel_actSeq (s : State) (b k : Nat) (f : Kernel → Kernel) : (s.modKernel b k f).actSeq = s.actSeq := rfl
@[simp] theorem State.modKernel_stamp (s : State) (b k : Nat) (f : Kernel → Kernel) : (s.modKernel b k f).stamp = s.stamp := rfl
@[simp] theorem State.modKernel_keys (s : State) (b k : Nat) (f : Kernel → Kernel) : (s.modKernel b k f).keys = s.keys := rfl
@[simp] theorem State.modKernel_openKey (s : State) (b k : Nat) (f : Kernel → Kernel) : (s.modKernel b k f).openKey = s.openKey := rfl
@[simp] theorem State.modKernel_written (s : State) (b k : Nat) (f : Kernel → Kernel) : (s.modKernel b k f).written = s.written := rfl
@[simp] theorem State.modKernel_epochs (s : State) (b k : Nat) (f : Kernel → Kernel) : (s.modKernel b k f).epochs = s.epochs := rfl
@[simp] theorem State.modKernel_gen (s : State) (b k : Nat) (f : Kernel → Kernel) : (s.modKernel b k f).gen = s.gen := rfl
@[simp] theorem State.modKernel_fails (s : State) (b k : Nat) (f : Kernel → Kernel) : (s.modKernel b k f).fails = s.fails := rfl
@[simp] theorem State.modKernel_measurement (s : State) (b k : Nat) (f : Kernel → Kernel) : (s.modKernel b k f).measurement = s.measurement := rfl
@[simp] theorem State.modKernel_lockets (s : State) (b k : Nat) (f : Kernel → Kernel) : (s.modKernel b k f).lockets = s.lockets := rfl
@[simp] theorem State.modKernel_audits (s : State) (b k : Nat) (f : Kernel → Kernel) : (s.modKernel b k f).audits = s.audits := rfl
@[simp] theorem State.modKernel_host (s : State) (b k : Nat) (f : Kernel → Kernel) : (s.modKernel b k f).host = s.host := rfl
@[simp] theorem State.modKernel_bezels (s : State) (b k : Nat) (f : Kernel → Kernel) : (s.modKernel b k f).bezels = s.bezels.map fun x => if x.num == b then { x with kernels := x.kernels.map fun y => if y.slot == k then f y else y } else x := rfl

/-! ### `State.setSidecar` -/

@[simp] theorem State.setSidecar_devId (s : State) (n : Nat) (c : Sidecar) : (s.setSidecar n c).devId = s.devId := rfl
@[simp] theorem State.setSidecar_stepNo (s : State) (n : Nat) (c : Sidecar) : (s.setSidecar n c).stepNo = s.stepNo := rfl
@[simp] theorem State.setSidecar_fresh (s : State) (n : Nat) (c : Sidecar) : (s.setSidecar n c).fresh = s.fresh := rfl
@[simp] theorem State.setSidecar_cycles (s : State) (n : Nat) (c : Sidecar) : (s.setSidecar n c).cycles = s.cycles := rfl
@[simp] theorem State.setSidecar_arith (s : State) (n : Nat) (c : Sidecar) : (s.setSidecar n c).arith = s.arith := rfl
@[simp] theorem State.setSidecar_cur (s : State) (n : Nat) (c : Sidecar) : (s.setSidecar n c).cur = s.cur := rfl
@[simp] theorem State.setSidecar_input (s : State) (n : Nat) (c : Sidecar) : (s.setSidecar n c).input = s.input := rfl
@[simp] theorem State.setSidecar_curEng (s : State) (n : Nat) (c : Sidecar) : (s.setSidecar n c).curEng = s.curEng := rfl
@[simp] theorem State.setSidecar_agenda (s : State) (n : Nat) (c : Sidecar) : (s.setSidecar n c).agenda = s.agenda := rfl
@[simp] theorem State.setSidecar_mem (s : State) (n : Nat) (c : Sidecar) : (s.setSidecar n c).mem = s.mem := rfl
@[simp] theorem State.setSidecar_leases (s : State) (n : Nat) (c : Sidecar) : (s.setSidecar n c).leases = s.leases := rfl
@[simp] theorem State.setSidecar_lines (s : State) (n : Nat) (c : Sidecar) : (s.setSidecar n c).lines = s.lines := rfl
@[simp] theorem State.setSidecar_errs (s : State) (n : Nat) (c : Sidecar) : (s.setSidecar n c).errs = s.errs := rfl
@[simp] theorem State.setSidecar_tlb (s : State) (n : Nat) (c : Sidecar) : (s.setSidecar n c).tlb = s.tlb := rfl
@[simp] theorem State.setSidecar_dieTlb (s : State) (n : Nat) (c : Sidecar) : (s.setSidecar n c).dieTlb = s.dieTlb := rfl
@[simp] theorem State.setSidecar_retired (s : State) (n : Nat) (c : Sidecar) : (s.setSidecar n c).retired = s.retired := rfl
@[simp] theorem State.setSidecar_posted (s : State) (n : Nat) (c : Sidecar) : (s.setSidecar n c).posted = s.posted := rfl
@[simp] theorem State.setSidecar_units (s : State) (n : Nat) (c : Sidecar) : (s.setSidecar n c).units = s.units := rfl
@[simp] theorem State.setSidecar_fencedUnits (s : State) (n : Nat) (c : Sidecar) : (s.setSidecar n c).fencedUnits = s.fencedUnits := rfl
@[simp] theorem State.setSidecar_fencedSub (s : State) (n : Nat) (c : Sidecar) : (s.setSidecar n c).fencedSub = s.fencedSub := rfl
@[simp] theorem State.setSidecar_lost (s : State) (n : Nat) (c : Sidecar) : (s.setSidecar n c).lost = s.lost := rfl
@[simp] theorem State.setSidecar_caps (s : State) (n : Nat) (c : Sidecar) : (s.setSidecar n c).caps = s.caps := rfl
@[simp] theorem State.setSidecar_nextCaps (s : State) (n : Nat) (c : Sidecar) : (s.setSidecar n c).nextCaps = s.nextCaps := rfl
@[simp] theorem State.setSidecar_lanesOut (s : State) (n : Nat) (c : Sidecar) : (s.setSidecar n c).lanesOut = s.lanesOut := rfl
@[simp] theorem State.setSidecar_bezels (s : State) (n : Nat) (c : Sidecar) : (s.setSidecar n c).bezels = s.bezels := rfl
@[simp] theorem State.setSidecar_teams (s : State) (n : Nat) (c : Sidecar) : (s.setSidecar n c).teams = s.teams := rfl
@[simp] theorem State.setSidecar_nextSid (s : State) (n : Nat) (c : Sidecar) : (s.setSidecar n c).nextSid = s.nextSid := rfl
@[simp] theorem State.setSidecar_cmds (s : State) (n : Nat) (c : Sidecar) : (s.setSidecar n c).cmds = s.cmds := rfl
@[simp] theorem State.setSidecar_nextCmd (s : State) (n : Nat) (c : Sidecar) : (s.setSidecar n c).nextCmd = s.nextCmd := rfl
@[simp] theorem State.setSidecar_rel (s : State) (n : Nat) (c : Sidecar) : (s.setSidecar n c).rel = s.rel := rfl
@[simp] theorem State.setSidecar_late (s : State) (n : Nat) (c : Sidecar) : (s.setSidecar n c).late = s.late := rfl
@[simp] theorem State.setSidecar_heldCompletions (s : State) (n : Nat) (c : Sidecar) : (s.setSidecar n c).heldCompletions = s.heldCompletions := rfl
@[simp] theorem State.setSidecar_heldOps (s : State) (n : Nat) (c : Sidecar) : (s.setSidecar n c).heldOps = s.heldOps := rfl
@[simp] theorem State.setSidecar_flows (s : State) (n : Nat) (c : Sidecar) : (s.setSidecar n c).flows = s.flows := rfl
@[simp] theorem State.setSidecar_mirrorQ (s : State) (n : Nat) (c : Sidecar) : (s.setSidecar n c).mirrorQ = s.mirrorQ := rfl
@[simp] theorem State.setSidecar_net (s : State) (n : Nat) (c : Sidecar) : (s.setSidecar n c).net = s.net := rfl
@[simp] theorem State.setSidecar_pvCmds (s : State) (n : Nat) (c : Sidecar) : (s.setSidecar n c).pvCmds = s.pvCmds := rfl
@[simp] theorem State.setSidecar_engines (s : State) (n : Nat) (c : Sidecar) : (s.setSidecar n c).engines = s.engines := rfl
@[simp] theorem State.setSidecar_pvDescs (s : State) (n : Nat) (c : Sidecar) : (s.setSidecar n c).pvDescs = s.pvDescs := rfl
@[simp] theorem State.setSidecar_acts (s : State) (n : Nat) (c : Sidecar) : (s.setSidecar n c).acts = s.acts := rfl
@[simp] theorem State.setSidecar_actFreed (s : State) (n : Nat) (c : Sidecar) : (s.setSidecar n c).actFreed = s.actFreed := rfl
@[simp] theorem State.setSidecar_actNext (s : State) (n : Nat) (c : Sidecar) : (s.setSidecar n c).actNext = s.actNext := rfl
@[simp] theorem State.setSidecar_actSeq (s : State) (n : Nat) (c : Sidecar) : (s.setSidecar n c).actSeq = s.actSeq := rfl
@[simp] theorem State.setSidecar_stamp (s : State) (n : Nat) (c : Sidecar) : (s.setSidecar n c).stamp = s.stamp := rfl
@[simp] theorem State.setSidecar_keys (s : State) (n : Nat) (c : Sidecar) : (s.setSidecar n c).keys = s.keys := rfl
@[simp] theorem State.setSidecar_openKey (s : State) (n : Nat) (c : Sidecar) : (s.setSidecar n c).openKey = s.openKey := rfl
@[simp] theorem State.setSidecar_written (s : State) (n : Nat) (c : Sidecar) : (s.setSidecar n c).written = s.written := rfl
@[simp] theorem State.setSidecar_epochs (s : State) (n : Nat) (c : Sidecar) : (s.setSidecar n c).epochs = s.epochs := rfl
@[simp] theorem State.setSidecar_gen (s : State) (n : Nat) (c : Sidecar) : (s.setSidecar n c).gen = s.gen := rfl
@[simp] theorem State.setSidecar_fails (s : State) (n : Nat) (c : Sidecar) : (s.setSidecar n c).fails = s.fails := rfl
@[simp] theorem State.setSidecar_measurement (s : State) (n : Nat) (c : Sidecar) : (s.setSidecar n c).measurement = s.measurement := rfl
@[simp] theorem State.setSidecar_lockets (s : State) (n : Nat) (c : Sidecar) : (s.setSidecar n c).lockets = s.lockets := rfl
@[simp] theorem State.setSidecar_audits (s : State) (n : Nat) (c : Sidecar) : (s.setSidecar n c).audits = s.audits := rfl
@[simp] theorem State.setSidecar_host (s : State) (n : Nat) (c : Sidecar) : (s.setSidecar n c).host = s.host := rfl
@[simp] theorem State.setSidecar_side (s : State) (n : Nat) (c : Sidecar) : (s.setSidecar n c).side = mapPut {} s.side n c := rfl

/-! ### `State.setUnit` -/

@[simp] theorem State.setUnit_devId (s : State) (u : UnitId) (x : UState) : (s.setUnit u x).devId = s.devId := rfl
@[simp] theorem State.setUnit_stepNo (s : State) (u : UnitId) (x : UState) : (s.setUnit u x).stepNo = s.stepNo := rfl
@[simp] theorem State.setUnit_fresh (s : State) (u : UnitId) (x : UState) : (s.setUnit u x).fresh = s.fresh := rfl
@[simp] theorem State.setUnit_cycles (s : State) (u : UnitId) (x : UState) : (s.setUnit u x).cycles = s.cycles := rfl
@[simp] theorem State.setUnit_arith (s : State) (u : UnitId) (x : UState) : (s.setUnit u x).arith = s.arith := rfl
@[simp] theorem State.setUnit_cur (s : State) (u : UnitId) (x : UState) : (s.setUnit u x).cur = s.cur := rfl
@[simp] theorem State.setUnit_input (s : State) (u : UnitId) (x : UState) : (s.setUnit u x).input = s.input := rfl
@[simp] theorem State.setUnit_curEng (s : State) (u : UnitId) (x : UState) : (s.setUnit u x).curEng = s.curEng := rfl
@[simp] theorem State.setUnit_agenda (s : State) (u : UnitId) (x : UState) : (s.setUnit u x).agenda = s.agenda := rfl
@[simp] theorem State.setUnit_mem (s : State) (u : UnitId) (x : UState) : (s.setUnit u x).mem = s.mem := rfl
@[simp] theorem State.setUnit_side (s : State) (u : UnitId) (x : UState) : (s.setUnit u x).side = s.side := rfl
@[simp] theorem State.setUnit_leases (s : State) (u : UnitId) (x : UState) : (s.setUnit u x).leases = s.leases := rfl
@[simp] theorem State.setUnit_lines (s : State) (u : UnitId) (x : UState) : (s.setUnit u x).lines = s.lines := rfl
@[simp] theorem State.setUnit_errs (s : State) (u : UnitId) (x : UState) : (s.setUnit u x).errs = s.errs := rfl
@[simp] theorem State.setUnit_tlb (s : State) (u : UnitId) (x : UState) : (s.setUnit u x).tlb = s.tlb := rfl
@[simp] theorem State.setUnit_dieTlb (s : State) (u : UnitId) (x : UState) : (s.setUnit u x).dieTlb = s.dieTlb := rfl
@[simp] theorem State.setUnit_retired (s : State) (u : UnitId) (x : UState) : (s.setUnit u x).retired = s.retired := rfl
@[simp] theorem State.setUnit_posted (s : State) (u : UnitId) (x : UState) : (s.setUnit u x).posted = s.posted := rfl
@[simp] theorem State.setUnit_fencedUnits (s : State) (u : UnitId) (x : UState) : (s.setUnit u x).fencedUnits = s.fencedUnits := rfl
@[simp] theorem State.setUnit_fencedSub (s : State) (u : UnitId) (x : UState) : (s.setUnit u x).fencedSub = s.fencedSub := rfl
@[simp] theorem State.setUnit_lost (s : State) (u : UnitId) (x : UState) : (s.setUnit u x).lost = s.lost := rfl
@[simp] theorem State.setUnit_caps (s : State) (u : UnitId) (x : UState) : (s.setUnit u x).caps = s.caps := rfl
@[simp] theorem State.setUnit_nextCaps (s : State) (u : UnitId) (x : UState) : (s.setUnit u x).nextCaps = s.nextCaps := rfl
@[simp] theorem State.setUnit_lanesOut (s : State) (u : UnitId) (x : UState) : (s.setUnit u x).lanesOut = s.lanesOut := rfl
@[simp] theorem State.setUnit_bezels (s : State) (u : UnitId) (x : UState) : (s.setUnit u x).bezels = s.bezels := rfl
@[simp] theorem State.setUnit_teams (s : State) (u : UnitId) (x : UState) : (s.setUnit u x).teams = s.teams := rfl
@[simp] theorem State.setUnit_nextSid (s : State) (u : UnitId) (x : UState) : (s.setUnit u x).nextSid = s.nextSid := rfl
@[simp] theorem State.setUnit_cmds (s : State) (u : UnitId) (x : UState) : (s.setUnit u x).cmds = s.cmds := rfl
@[simp] theorem State.setUnit_nextCmd (s : State) (u : UnitId) (x : UState) : (s.setUnit u x).nextCmd = s.nextCmd := rfl
@[simp] theorem State.setUnit_rel (s : State) (u : UnitId) (x : UState) : (s.setUnit u x).rel = s.rel := rfl
@[simp] theorem State.setUnit_late (s : State) (u : UnitId) (x : UState) : (s.setUnit u x).late = s.late := rfl
@[simp] theorem State.setUnit_heldCompletions (s : State) (u : UnitId) (x : UState) : (s.setUnit u x).heldCompletions = s.heldCompletions := rfl
@[simp] theorem State.setUnit_heldOps (s : State) (u : UnitId) (x : UState) : (s.setUnit u x).heldOps = s.heldOps := rfl
@[simp] theorem State.setUnit_flows (s : State) (u : UnitId) (x : UState) : (s.setUnit u x).flows = s.flows := rfl
@[simp] theorem State.setUnit_mirrorQ (s : State) (u : UnitId) (x : UState) : (s.setUnit u x).mirrorQ = s.mirrorQ := rfl
@[simp] theorem State.setUnit_net (s : State) (u : UnitId) (x : UState) : (s.setUnit u x).net = s.net := rfl
@[simp] theorem State.setUnit_pvCmds (s : State) (u : UnitId) (x : UState) : (s.setUnit u x).pvCmds = s.pvCmds := rfl
@[simp] theorem State.setUnit_engines (s : State) (u : UnitId) (x : UState) : (s.setUnit u x).engines = s.engines := rfl
@[simp] theorem State.setUnit_pvDescs (s : State) (u : UnitId) (x : UState) : (s.setUnit u x).pvDescs = s.pvDescs := rfl
@[simp] theorem State.setUnit_acts (s : State) (u : UnitId) (x : UState) : (s.setUnit u x).acts = s.acts := rfl
@[simp] theorem State.setUnit_actFreed (s : State) (u : UnitId) (x : UState) : (s.setUnit u x).actFreed = s.actFreed := rfl
@[simp] theorem State.setUnit_actNext (s : State) (u : UnitId) (x : UState) : (s.setUnit u x).actNext = s.actNext := rfl
@[simp] theorem State.setUnit_actSeq (s : State) (u : UnitId) (x : UState) : (s.setUnit u x).actSeq = s.actSeq := rfl
@[simp] theorem State.setUnit_stamp (s : State) (u : UnitId) (x : UState) : (s.setUnit u x).stamp = s.stamp := rfl
@[simp] theorem State.setUnit_keys (s : State) (u : UnitId) (x : UState) : (s.setUnit u x).keys = s.keys := rfl
@[simp] theorem State.setUnit_openKey (s : State) (u : UnitId) (x : UState) : (s.setUnit u x).openKey = s.openKey := rfl
@[simp] theorem State.setUnit_written (s : State) (u : UnitId) (x : UState) : (s.setUnit u x).written = s.written := rfl
@[simp] theorem State.setUnit_epochs (s : State) (u : UnitId) (x : UState) : (s.setUnit u x).epochs = s.epochs := rfl
@[simp] theorem State.setUnit_gen (s : State) (u : UnitId) (x : UState) : (s.setUnit u x).gen = s.gen := rfl
@[simp] theorem State.setUnit_fails (s : State) (u : UnitId) (x : UState) : (s.setUnit u x).fails = s.fails := rfl
@[simp] theorem State.setUnit_measurement (s : State) (u : UnitId) (x : UState) : (s.setUnit u x).measurement = s.measurement := rfl
@[simp] theorem State.setUnit_lockets (s : State) (u : UnitId) (x : UState) : (s.setUnit u x).lockets = s.lockets := rfl
@[simp] theorem State.setUnit_audits (s : State) (u : UnitId) (x : UState) : (s.setUnit u x).audits = s.audits := rfl
@[simp] theorem State.setUnit_host (s : State) (u : UnitId) (x : UState) : (s.setUnit u x).host = s.host := rfl
@[simp] theorem State.setUnit_units (s : State) (u : UnitId) (x : UState) : (s.setUnit u x).units = if x = .free then s.units.filter fun p => p.1 != u else (u, x) :: s.units.filter fun p => p.1 != u := by simp only [State.setUnit]

/-! ### `State.locket` -/

@[simp] theorem State.locket_devId (s : State) (die cls code : Nat) (h a : W64) : (s.locket die cls code h a).devId = s.devId := by simp only [State.locket]
@[simp] theorem State.locket_stepNo (s : State) (die cls code : Nat) (h a : W64) : (s.locket die cls code h a).stepNo = s.stepNo := by simp only [State.locket]
@[simp] theorem State.locket_fresh (s : State) (die cls code : Nat) (h a : W64) : (s.locket die cls code h a).fresh = s.fresh := by simp only [State.locket]
@[simp] theorem State.locket_cycles (s : State) (die cls code : Nat) (h a : W64) : (s.locket die cls code h a).cycles = s.cycles := by simp only [State.locket]
@[simp] theorem State.locket_arith (s : State) (die cls code : Nat) (h a : W64) : (s.locket die cls code h a).arith = s.arith := by simp only [State.locket]
@[simp] theorem State.locket_cur (s : State) (die cls code : Nat) (h a : W64) : (s.locket die cls code h a).cur = s.cur := by simp only [State.locket]
@[simp] theorem State.locket_input (s : State) (die cls code : Nat) (h a : W64) : (s.locket die cls code h a).input = s.input := by simp only [State.locket]
@[simp] theorem State.locket_curEng (s : State) (die cls code : Nat) (h a : W64) : (s.locket die cls code h a).curEng = s.curEng := by simp only [State.locket]
@[simp] theorem State.locket_agenda (s : State) (die cls code : Nat) (h a : W64) : (s.locket die cls code h a).agenda = s.agenda := by simp only [State.locket]
@[simp] theorem State.locket_mem (s : State) (die cls code : Nat) (h a : W64) : (s.locket die cls code h a).mem = s.mem := by simp only [State.locket]
@[simp] theorem State.locket_side (s : State) (die cls code : Nat) (h a : W64) : (s.locket die cls code h a).side = s.side := by simp only [State.locket]
@[simp] theorem State.locket_leases (s : State) (die cls code : Nat) (h a : W64) : (s.locket die cls code h a).leases = s.leases := by simp only [State.locket]
@[simp] theorem State.locket_lines (s : State) (die cls code : Nat) (h a : W64) : (s.locket die cls code h a).lines = s.lines := by simp only [State.locket]
@[simp] theorem State.locket_errs (s : State) (die cls code : Nat) (h a : W64) : (s.locket die cls code h a).errs = s.errs := by simp only [State.locket]
@[simp] theorem State.locket_tlb (s : State) (die cls code : Nat) (h a : W64) : (s.locket die cls code h a).tlb = s.tlb := by simp only [State.locket]
@[simp] theorem State.locket_dieTlb (s : State) (die cls code : Nat) (h a : W64) : (s.locket die cls code h a).dieTlb = s.dieTlb := by simp only [State.locket]
@[simp] theorem State.locket_retired (s : State) (die cls code : Nat) (h a : W64) : (s.locket die cls code h a).retired = s.retired := by simp only [State.locket]
@[simp] theorem State.locket_posted (s : State) (die cls code : Nat) (h a : W64) : (s.locket die cls code h a).posted = s.posted := by simp only [State.locket]
@[simp] theorem State.locket_units (s : State) (die cls code : Nat) (h a : W64) : (s.locket die cls code h a).units = s.units := by simp only [State.locket]
@[simp] theorem State.locket_fencedUnits (s : State) (die cls code : Nat) (h a : W64) : (s.locket die cls code h a).fencedUnits = s.fencedUnits := by simp only [State.locket]
@[simp] theorem State.locket_fencedSub (s : State) (die cls code : Nat) (h a : W64) : (s.locket die cls code h a).fencedSub = s.fencedSub := by simp only [State.locket]
@[simp] theorem State.locket_lost (s : State) (die cls code : Nat) (h a : W64) : (s.locket die cls code h a).lost = s.lost := by simp only [State.locket]
@[simp] theorem State.locket_caps (s : State) (die cls code : Nat) (h a : W64) : (s.locket die cls code h a).caps = s.caps := by simp only [State.locket]
@[simp] theorem State.locket_nextCaps (s : State) (die cls code : Nat) (h a : W64) : (s.locket die cls code h a).nextCaps = s.nextCaps := by simp only [State.locket]
@[simp] theorem State.locket_lanesOut (s : State) (die cls code : Nat) (h a : W64) : (s.locket die cls code h a).lanesOut = s.lanesOut := by simp only [State.locket]
@[simp] theorem State.locket_bezels (s : State) (die cls code : Nat) (h a : W64) : (s.locket die cls code h a).bezels = s.bezels := by simp only [State.locket]
@[simp] theorem State.locket_teams (s : State) (die cls code : Nat) (h a : W64) : (s.locket die cls code h a).teams = s.teams := by simp only [State.locket]
@[simp] theorem State.locket_nextSid (s : State) (die cls code : Nat) (h a : W64) : (s.locket die cls code h a).nextSid = s.nextSid := by simp only [State.locket]
@[simp] theorem State.locket_cmds (s : State) (die cls code : Nat) (h a : W64) : (s.locket die cls code h a).cmds = s.cmds := by simp only [State.locket]
@[simp] theorem State.locket_nextCmd (s : State) (die cls code : Nat) (h a : W64) : (s.locket die cls code h a).nextCmd = s.nextCmd := by simp only [State.locket]
@[simp] theorem State.locket_rel (s : State) (die cls code : Nat) (h a : W64) : (s.locket die cls code h a).rel = s.rel := by simp only [State.locket]
@[simp] theorem State.locket_late (s : State) (die cls code : Nat) (h a : W64) : (s.locket die cls code h a).late = s.late := by simp only [State.locket]
@[simp] theorem State.locket_heldCompletions (s : State) (die cls code : Nat) (h a : W64) : (s.locket die cls code h a).heldCompletions = s.heldCompletions := by simp only [State.locket]
@[simp] theorem State.locket_heldOps (s : State) (die cls code : Nat) (h a : W64) : (s.locket die cls code h a).heldOps = s.heldOps := by simp only [State.locket]
@[simp] theorem State.locket_flows (s : State) (die cls code : Nat) (h a : W64) : (s.locket die cls code h a).flows = s.flows := by simp only [State.locket]
@[simp] theorem State.locket_mirrorQ (s : State) (die cls code : Nat) (h a : W64) : (s.locket die cls code h a).mirrorQ = s.mirrorQ := by simp only [State.locket]
@[simp] theorem State.locket_net (s : State) (die cls code : Nat) (h a : W64) : (s.locket die cls code h a).net = s.net := by simp only [State.locket]
@[simp] theorem State.locket_pvCmds (s : State) (die cls code : Nat) (h a : W64) : (s.locket die cls code h a).pvCmds = s.pvCmds := by simp only [State.locket]
@[simp] theorem State.locket_engines (s : State) (die cls code : Nat) (h a : W64) : (s.locket die cls code h a).engines = s.engines := by simp only [State.locket]
@[simp] theorem State.locket_pvDescs (s : State) (die cls code : Nat) (h a : W64) : (s.locket die cls code h a).pvDescs = s.pvDescs := by simp only [State.locket]
@[simp] theorem State.locket_acts (s : State) (die cls code : Nat) (h a : W64) : (s.locket die cls code h a).acts = s.acts := by simp only [State.locket]
@[simp] theorem State.locket_actFreed (s : State) (die cls code : Nat) (h a : W64) : (s.locket die cls code h a).actFreed = s.actFreed := by simp only [State.locket]
@[simp] theorem State.locket_actNext (s : State) (die cls code : Nat) (h a : W64) : (s.locket die cls code h a).actNext = s.actNext := by simp only [State.locket]
@[simp] theorem State.locket_actSeq (s : State) (die cls code : Nat) (h a : W64) : (s.locket die cls code h a).actSeq = s.actSeq := by simp only [State.locket]
@[simp] theorem State.locket_stamp (s : State) (die cls code : Nat) (h a : W64) : (s.locket die cls code h a).stamp = s.stamp := by simp only [State.locket]
@[simp] theorem State.locket_keys (s : State) (die cls code : Nat) (h a : W64) : (s.locket die cls code h a).keys = s.keys := by simp only [State.locket]
@[simp] theorem State.locket_openKey (s : State) (die cls code : Nat) (h a : W64) : (s.locket die cls code h a).openKey = s.openKey := by simp only [State.locket]
@[simp] theorem State.locket_written (s : State) (die cls code : Nat) (h a : W64) : (s.locket die cls code h a).written = s.written := by simp only [State.locket]
@[simp] theorem State.locket_epochs (s : State) (die cls code : Nat) (h a : W64) : (s.locket die cls code h a).epochs = s.epochs := by simp only [State.locket]
@[simp] theorem State.locket_gen (s : State) (die cls code : Nat) (h a : W64) : (s.locket die cls code h a).gen = s.gen := by simp only [State.locket]
@[simp] theorem State.locket_fails (s : State) (die cls code : Nat) (h a : W64) : (s.locket die cls code h a).fails = s.fails := by simp only [State.locket]
@[simp] theorem State.locket_measurement (s : State) (die cls code : Nat) (h a : W64) : (s.locket die cls code h a).measurement = s.measurement := by simp only [State.locket]
@[simp] theorem State.locket_audits (s : State) (die cls code : Nat) (h a : W64) : (s.locket die cls code h a).audits = s.audits := by simp only [State.locket]
@[simp] theorem State.locket_host (s : State) (die cls code : Nat) (h a : W64) : (s.locket die cls code h a).host = s.host := by simp only [State.locket]

/-! ### `State.noteRelease` -/

@[simp] theorem State.noteRelease_devId (s : State) (o : Obj) (key agent scope : Nat) : (s.noteRelease o key agent scope).devId = s.devId := rfl
@[simp] theorem State.noteRelease_stepNo (s : State) (o : Obj) (key agent scope : Nat) : (s.noteRelease o key agent scope).stepNo = s.stepNo := rfl
@[simp] theorem State.noteRelease_fresh (s : State) (o : Obj) (key agent scope : Nat) : (s.noteRelease o key agent scope).fresh = s.fresh := rfl
@[simp] theorem State.noteRelease_cycles (s : State) (o : Obj) (key agent scope : Nat) : (s.noteRelease o key agent scope).cycles = s.cycles := rfl
@[simp] theorem State.noteRelease_arith (s : State) (o : Obj) (key agent scope : Nat) : (s.noteRelease o key agent scope).arith = s.arith := rfl
@[simp] theorem State.noteRelease_cur (s : State) (o : Obj) (key agent scope : Nat) : (s.noteRelease o key agent scope).cur = s.cur := rfl
@[simp] theorem State.noteRelease_input (s : State) (o : Obj) (key agent scope : Nat) : (s.noteRelease o key agent scope).input = s.input := rfl
@[simp] theorem State.noteRelease_curEng (s : State) (o : Obj) (key agent scope : Nat) : (s.noteRelease o key agent scope).curEng = s.curEng := rfl
@[simp] theorem State.noteRelease_agenda (s : State) (o : Obj) (key agent scope : Nat) : (s.noteRelease o key agent scope).agenda = s.agenda := rfl
@[simp] theorem State.noteRelease_mem (s : State) (o : Obj) (key agent scope : Nat) : (s.noteRelease o key agent scope).mem = s.mem := rfl
@[simp] theorem State.noteRelease_side (s : State) (o : Obj) (key agent scope : Nat) : (s.noteRelease o key agent scope).side = s.side := rfl
@[simp] theorem State.noteRelease_leases (s : State) (o : Obj) (key agent scope : Nat) : (s.noteRelease o key agent scope).leases = s.leases := rfl
@[simp] theorem State.noteRelease_lines (s : State) (o : Obj) (key agent scope : Nat) : (s.noteRelease o key agent scope).lines = s.lines := rfl
@[simp] theorem State.noteRelease_errs (s : State) (o : Obj) (key agent scope : Nat) : (s.noteRelease o key agent scope).errs = s.errs := rfl
@[simp] theorem State.noteRelease_tlb (s : State) (o : Obj) (key agent scope : Nat) : (s.noteRelease o key agent scope).tlb = s.tlb := rfl
@[simp] theorem State.noteRelease_dieTlb (s : State) (o : Obj) (key agent scope : Nat) : (s.noteRelease o key agent scope).dieTlb = s.dieTlb := rfl
@[simp] theorem State.noteRelease_retired (s : State) (o : Obj) (key agent scope : Nat) : (s.noteRelease o key agent scope).retired = s.retired := rfl
@[simp] theorem State.noteRelease_posted (s : State) (o : Obj) (key agent scope : Nat) : (s.noteRelease o key agent scope).posted = s.posted := rfl
@[simp] theorem State.noteRelease_units (s : State) (o : Obj) (key agent scope : Nat) : (s.noteRelease o key agent scope).units = s.units := rfl
@[simp] theorem State.noteRelease_fencedUnits (s : State) (o : Obj) (key agent scope : Nat) : (s.noteRelease o key agent scope).fencedUnits = s.fencedUnits := rfl
@[simp] theorem State.noteRelease_fencedSub (s : State) (o : Obj) (key agent scope : Nat) : (s.noteRelease o key agent scope).fencedSub = s.fencedSub := rfl
@[simp] theorem State.noteRelease_lost (s : State) (o : Obj) (key agent scope : Nat) : (s.noteRelease o key agent scope).lost = s.lost := rfl
@[simp] theorem State.noteRelease_caps (s : State) (o : Obj) (key agent scope : Nat) : (s.noteRelease o key agent scope).caps = s.caps := rfl
@[simp] theorem State.noteRelease_nextCaps (s : State) (o : Obj) (key agent scope : Nat) : (s.noteRelease o key agent scope).nextCaps = s.nextCaps := rfl
@[simp] theorem State.noteRelease_lanesOut (s : State) (o : Obj) (key agent scope : Nat) : (s.noteRelease o key agent scope).lanesOut = s.lanesOut := rfl
@[simp] theorem State.noteRelease_bezels (s : State) (o : Obj) (key agent scope : Nat) : (s.noteRelease o key agent scope).bezels = s.bezels := rfl
@[simp] theorem State.noteRelease_teams (s : State) (o : Obj) (key agent scope : Nat) : (s.noteRelease o key agent scope).teams = s.teams := rfl
@[simp] theorem State.noteRelease_nextSid (s : State) (o : Obj) (key agent scope : Nat) : (s.noteRelease o key agent scope).nextSid = s.nextSid := rfl
@[simp] theorem State.noteRelease_cmds (s : State) (o : Obj) (key agent scope : Nat) : (s.noteRelease o key agent scope).cmds = s.cmds := rfl
@[simp] theorem State.noteRelease_nextCmd (s : State) (o : Obj) (key agent scope : Nat) : (s.noteRelease o key agent scope).nextCmd = s.nextCmd := rfl
@[simp] theorem State.noteRelease_late (s : State) (o : Obj) (key agent scope : Nat) : (s.noteRelease o key agent scope).late = s.late := rfl
@[simp] theorem State.noteRelease_heldCompletions (s : State) (o : Obj) (key agent scope : Nat) : (s.noteRelease o key agent scope).heldCompletions = s.heldCompletions := rfl
@[simp] theorem State.noteRelease_heldOps (s : State) (o : Obj) (key agent scope : Nat) : (s.noteRelease o key agent scope).heldOps = s.heldOps := rfl
@[simp] theorem State.noteRelease_flows (s : State) (o : Obj) (key agent scope : Nat) : (s.noteRelease o key agent scope).flows = s.flows := rfl
@[simp] theorem State.noteRelease_mirrorQ (s : State) (o : Obj) (key agent scope : Nat) : (s.noteRelease o key agent scope).mirrorQ = s.mirrorQ := rfl
@[simp] theorem State.noteRelease_net (s : State) (o : Obj) (key agent scope : Nat) : (s.noteRelease o key agent scope).net = s.net := rfl
@[simp] theorem State.noteRelease_pvCmds (s : State) (o : Obj) (key agent scope : Nat) : (s.noteRelease o key agent scope).pvCmds = s.pvCmds := rfl
@[simp] theorem State.noteRelease_engines (s : State) (o : Obj) (key agent scope : Nat) : (s.noteRelease o key agent scope).engines = s.engines := rfl
@[simp] theorem State.noteRelease_pvDescs (s : State) (o : Obj) (key agent scope : Nat) : (s.noteRelease o key agent scope).pvDescs = s.pvDescs := rfl
@[simp] theorem State.noteRelease_acts (s : State) (o : Obj) (key agent scope : Nat) : (s.noteRelease o key agent scope).acts = s.acts := rfl
@[simp] theorem State.noteRelease_actFreed (s : State) (o : Obj) (key agent scope : Nat) : (s.noteRelease o key agent scope).actFreed = s.actFreed := rfl
@[simp] theorem State.noteRelease_actNext (s : State) (o : Obj) (key agent scope : Nat) : (s.noteRelease o key agent scope).actNext = s.actNext := rfl
@[simp] theorem State.noteRelease_actSeq (s : State) (o : Obj) (key agent scope : Nat) : (s.noteRelease o key agent scope).actSeq = s.actSeq := rfl
@[simp] theorem State.noteRelease_stamp (s : State) (o : Obj) (key agent scope : Nat) : (s.noteRelease o key agent scope).stamp = s.stamp := rfl
@[simp] theorem State.noteRelease_keys (s : State) (o : Obj) (key agent scope : Nat) : (s.noteRelease o key agent scope).keys = s.keys := rfl
@[simp] theorem State.noteRelease_openKey (s : State) (o : Obj) (key agent scope : Nat) : (s.noteRelease o key agent scope).openKey = s.openKey := rfl
@[simp] theorem State.noteRelease_written (s : State) (o : Obj) (key agent scope : Nat) : (s.noteRelease o key agent scope).written = s.written := rfl
@[simp] theorem State.noteRelease_epochs (s : State) (o : Obj) (key agent scope : Nat) : (s.noteRelease o key agent scope).epochs = s.epochs := rfl
@[simp] theorem State.noteRelease_gen (s : State) (o : Obj) (key agent scope : Nat) : (s.noteRelease o key agent scope).gen = s.gen := rfl
@[simp] theorem State.noteRelease_fails (s : State) (o : Obj) (key agent scope : Nat) : (s.noteRelease o key agent scope).fails = s.fails := rfl
@[simp] theorem State.noteRelease_measurement (s : State) (o : Obj) (key agent scope : Nat) : (s.noteRelease o key agent scope).measurement = s.measurement := rfl
@[simp] theorem State.noteRelease_lockets (s : State) (o : Obj) (key agent scope : Nat) : (s.noteRelease o key agent scope).lockets = s.lockets := rfl
@[simp] theorem State.noteRelease_audits (s : State) (o : Obj) (key agent scope : Nat) : (s.noteRelease o key agent scope).audits = s.audits := rfl
@[simp] theorem State.noteRelease_host (s : State) (o : Obj) (key agent scope : Nat) : (s.noteRelease o key agent scope).host = s.host := rfl
@[simp] theorem State.noteRelease_rel (s : State) (o : Obj) (key agent scope : Nat) : (s.noteRelease o key agent scope).rel = { obj := o, key := key, agent := agent, scope := scope, step := s.stepNo } :: s.rel.filter fun p => !(p.obj.place == o.place && p.key == key && p.agent == agent && p.scope == scope) := rfl

/-! ### `Group.setS` -/

@[simp] theorem Group.setS_num (g : Group) (n : Nat) (v : W64) : (g.setS n v).num = g.num := by simp only [Group.setS]
@[simp] theorem Group.setS_role (g : Group) (n : Nat) (v : W64) : (g.setS n v).role = g.role := by simp only [Group.setS]
@[simp] theorem Group.setS_roleIdx (g : Group) (n : Nat) (v : W64) : (g.setS n v).roleIdx = g.roleIdx := by simp only [Group.setS]
@[simp] theorem Group.setS_vmax (g : Group) (n : Nat) (v : W64) : (g.setS n v).vmax = g.vmax := by simp only [Group.setS]
@[simp] theorem Group.setS_tmax (g : Group) (n : Nat) (v : W64) : (g.setS n v).tmax = g.tmax := by simp only [Group.setS]
@[simp] theorem Group.setS_life (g : Group) (n : Nat) (v : W64) : (g.setS n v).life = g.life := by simp only [Group.setS]
@[simp] theorem Group.setS_inSet (g : Group) (n : Nat) (v : W64) : (g.setS n v).inSet = g.inSet := by simp only [Group.setS]
@[simp] theorem Group.setS_readySince (g : Group) (n : Nat) (v : W64) : (g.setS n v).readySince = g.readySince := by simp only [Group.setS]
@[simp] theorem Group.setS_asleep (g : Group) (n : Nat) (v : W64) : (g.setS n v).asleep = g.asleep := by simp only [Group.setS]
@[simp] theorem Group.setS_wait (g : Group) (n : Nat) (v : W64) : (g.setS n v).wait = g.wait := by simp only [Group.setS]
@[simp] theorem Group.setS_mode (g : Group) (n : Nat) (v : W64) : (g.setS n v).mode = g.mode := by simp only [Group.setS]
@[simp] theorem Group.setS_bnd (g : Group) (n : Nat) (v : W64) : (g.setS n v).bnd = g.bnd := by simp only [Group.setS]
@[simp] theorem Group.setS_bndHere (g : Group) (n : Nat) (v : W64) : (g.setS n v).bndHere = g.bndHere := by simp only [Group.setS]
@[simp] theorem Group.setS_yielded (g : Group) (n : Nat) (v : W64) : (g.setS n v).yielded = g.yielded := by simp only [Group.setS]
@[simp] theorem Group.setS_ticket (g : Group) (n : Nat) (v : W64) : (g.setS n v).ticket = g.ticket := by simp only [Group.setS]
@[simp] theorem Group.setS_entry (g : Group) (n : Nat) (v : W64) : (g.setS n v).entry = g.entry := by simp only [Group.setS]
@[simp] theorem Group.setS_nextEntry (g : Group) (n : Nat) (v : W64) : (g.setS n v).nextEntry = g.nextEntry := by simp only [Group.setS]
@[simp] theorem Group.setS_cutM (g : Group) (n : Nat) (v : W64) : (g.setS n v).cutM = g.cutM := by simp only [Group.setS]
@[simp] theorem Group.setS_cutC (g : Group) (n : Nat) (v : W64) : (g.setS n v).cutC = g.cutC := by simp only [Group.setS]
@[simp] theorem Group.setS_pcA (g : Group) (n : Nat) (v : W64) : (g.setS n v).pcA = g.pcA := by simp only [Group.setS]
@[simp] theorem Group.setS_pcB (g : Group) (n : Nat) (v : W64) : (g.setS n v).pcB = g.pcB := by simp only [Group.setS]
@[simp] theorem Group.setS_pcH (g : Group) (n : Nat) (v : W64) : (g.setS n v).pcH = g.pcH := by simp only [Group.setS]
@[simp] theorem Group.setS_lastSlot (g : Group) (n : Nat) (v : W64) : (g.setS n v).lastSlot = g.lastSlot := by simp only [Group.setS]
@[simp] theorem Group.setS_blive (g : Group) (n : Nat) (v : W64) : (g.setS n v).blive = g.blive := by simp only [Group.setS]
@[simp] theorem Group.setS_bjoin (g : Group) (n : Nat) (v : W64) : (g.setS n v).bjoin = g.bjoin := by simp only [Group.setS]
@[simp] theorem Group.setS_ajoin (g : Group) (n : Nat) (v : W64) : (g.setS n v).ajoin = g.ajoin := by simp only [Group.setS]
@[simp] theorem Group.setS_alive (g : Group) (n : Nat) (v : W64) : (g.setS n v).alive = g.alive := by simp only [Group.setS]
@[simp] theorem Group.setS_clause (g : Group) (n : Nat) (v : W64) : (g.setS n v).clause = g.clause := by simp only [Group.setS]
@[simp] theorem Group.setS_exited (g : Group) (n : Nat) (v : W64) : (g.setS n v).exited = g.exited := by simp only [Group.setS]
@[simp] theorem Group.setS_dead (g : Group) (n : Nat) (v : W64) : (g.setS n v).dead = g.dead := by simp only [Group.setS]
@[simp] theorem Group.setS_deadSrc (g : Group) (n : Nat) (v : W64) : (g.setS n v).deadSrc = g.deadSrc := by simp only [Group.setS]
@[simp] theorem Group.setS_masked (g : Group) (n : Nat) (v : W64) : (g.setS n v).masked = g.masked := by simp only [Group.setS]
@[simp] theorem Group.setS_gmode (g : Group) (n : Nat) (v : W64) : (g.setS n v).gmode = g.gmode := by simp only [Group.setS]
@[simp] theorem Group.setS_dsp (g : Group) (n : Nat) (v : W64) : (g.setS n v).dsp = g.dsp := by simp only [Group.setS]
@[simp] theorem Group.setS_ops (g : Group) (n : Nat) (v : W64) : (g.setS n v).ops = g.ops := by simp only [Group.setS]
@[simp] theorem Group.setS_nextOp (g : Group) (n : Nat) (v : W64) : (g.setS n v).nextOp = g.nextOp := by simp only [Group.setS]
@[simp] theorem Group.setS_latch (g : Group) (n : Nat) (v : W64) : (g.setS n v).latch = g.latch := by simp only [Group.setS]
@[simp] theorem Group.setS_v (g : Group) (n : Nat) (v : W64) : (g.setS n v).v = g.v := by simp only [Group.setS]
@[simp] theorem Group.setS_o (g : Group) (n : Nat) (v : W64) : (g.setS n v).o = g.o := by simp only [Group.setS]
@[simp] theorem Group.setS_t (g : Group) (n : Nat) (v : W64) : (g.setS n v).t = g.t := by simp only [Group.setS]
@[simp] theorem Group.setS_mq (g : Group) (n : Nat) (v : W64) : (g.setS n v).mq = g.mq := by simp only [Group.setS]
@[simp] theorem Group.setS_rp (g : Group) (n : Nat) (v : W64) : (g.setS n v).rp = g.rp := by simp only [Group.setS]
@[simp] theorem Group.setS_late (g : Group) (n : Nat) (v : W64) : (g.setS n v).late = g.late := by simp only [Group.setS]
@[simp] theorem Group.setS_colls (g : Group) (n : Nat) (v : W64) : (g.setS n v).colls = g.colls := by simp only [Group.setS]
@[simp] theorem Group.setS_collOp (g : Group) (n : Nat) (v : W64) : (g.setS n v).collOp = g.collOp := by simp only [Group.setS]
@[simp] theorem Group.setS_lastBatch (g : Group) (n : Nat) (v : W64) : (g.setS n v).lastBatch = g.lastBatch := by simp only [Group.setS]
@[simp] theorem Group.setS_mbat (g : Group) (n : Nat) (v : W64) : (g.setS n v).mbat = g.mbat := by simp only [Group.setS]
@[simp] theorem Group.setS_lastCopyBatch (g : Group) (n : Nat) (v : W64) : (g.setS n v).lastCopyBatch = g.lastCopyBatch := by simp only [Group.setS]
@[simp] theorem Group.setS_cbat (g : Group) (n : Nat) (v : W64) : (g.setS n v).cbat = g.cbat := by simp only [Group.setS]
@[simp] theorem Group.setS_copies (g : Group) (n : Nat) (v : W64) : (g.setS n v).copies = g.copies := by simp only [Group.setS]
@[simp] theorem Group.setS_ver (g : Group) (n : Nat) (v : W64) : (g.setS n v).ver = g.ver := by simp only [Group.setS]
@[simp] theorem Group.setS_taskSeq (g : Group) (n : Nat) (v : W64) : (g.setS n v).taskSeq = g.taskSeq := by simp only [Group.setS]
@[simp] theorem Group.setS_recipe (g : Group) (n : Nat) (v : W64) : (g.setS n v).recipe = g.recipe := by simp only [Group.setS]
@[simp] theorem Group.setS_bound (g : Group) (n : Nat) (v : W64) : (g.setS n v).bound = g.bound := by simp only [Group.setS]
@[simp] theorem Group.setS_explicit (g : Group) (n : Nat) (v : W64) : (g.setS n v).explicit = g.explicit := by simp only [Group.setS]
@[simp] theorem Group.setS_ck0 (g : Group) (n : Nat) (v : W64) : (g.setS n v).ck0 = g.ck0 := by simp only [Group.setS]
@[simp] theorem Group.setS_ck1 (g : Group) (n : Nat) (v : W64) : (g.setS n v).ck1 = g.ck1 := by simp only [Group.setS]
@[simp] theorem Group.setS_ckCur (g : Group) (n : Nat) (v : W64) : (g.setS n v).ckCur = g.ckCur := by simp only [Group.setS]
@[simp] theorem Group.setS_report (g : Group) (n : Nat) (v : W64) : (g.setS n v).report = g.report := by simp only [Group.setS]
@[simp] theorem Group.setS_trapSeq (g : Group) (n : Nat) (v : W64) : (g.setS n v).trapSeq = g.trapSeq := by simp only [Group.setS]
@[simp] theorem Group.setS_pend (g : Group) (n : Nat) (v : W64) : (g.setS n v).pend = g.pend := by simp only [Group.setS]
@[simp] theorem Group.setS_deferredTrap (g : Group) (n : Nat) (v : W64) : (g.setS n v).deferredTrap = g.deferredTrap := by simp only [Group.setS]
@[simp] theorem Group.setS_sig (g : Group) (n : Nat) (v : W64) : (g.setS n v).sig = g.sig := by simp only [Group.setS]
@[simp] theorem Group.setS_laneSig (g : Group) (n : Nat) (v : W64) : (g.setS n v).laneSig = g.laneSig := by simp only [Group.setS]
@[simp] theorem Group.setS_lvq (g : Group) (n : Nat) (v : W64) : (g.setS n v).lvq = g.lvq := by simp only [Group.setS]
@[simp] theorem Group.setS_side (g : Group) (n : Nat) (v : W64) : (g.setS n v).side = g.side := by simp only [Group.setS]
@[simp] theorem Group.setS_diff1 (g : Group) (n : Nat) (v : W64) : (g.setS n v).diff1 = g.diff1 := by simp only [Group.setS]
@[simp] theorem Group.setS_killed1 (g : Group) (n : Nat) (v : W64) : (g.setS n v).killed1 = g.killed1 := by simp only [Group.setS]
@[simp] theorem Group.setS_acquire (g : Group) (n : Nat) (v : W64) : (g.setS n v).acquire = g.acquire := by simp only [Group.setS]
@[simp] theorem Group.setS_stopAt (g : Group) (n : Nat) (v : W64) : (g.setS n v).stopAt = g.stopAt := by simp only [Group.setS]
@[simp] theorem Group.setS_halted (g : Group) (n : Nat) (v : W64) : (g.setS n v).halted = g.halted := by simp only [Group.setS]
@[simp] theorem Group.setS_sbad (g : Group) (n : Nat) (v : W64) : (g.setS n v).sbad = g.sbad &&& ~~~ (1#32 <<< n) := by simp only [Group.setS]
@[simp] theorem Group.setS_s (g : Group) (n : Nat) (v : W64) : (g.setS n v).s = Vector.ofFn fun i => if i.val = n then v else g.s[i.val] := by simp only [Group.setS]

/-! ### `Group.addOp` -/

@[simp] theorem Group.addOp_num (g : Group) (x : Op) : (g.addOp x).num = g.num := by simp only [Group.addOp]
@[simp] theorem Group.addOp_role (g : Group) (x : Op) : (g.addOp x).role = g.role := by simp only [Group.addOp]
@[simp] theorem Group.addOp_roleIdx (g : Group) (x : Op) : (g.addOp x).roleIdx = g.roleIdx := by simp only [Group.addOp]
@[simp] theorem Group.addOp_vmax (g : Group) (x : Op) : (g.addOp x).vmax = g.vmax := by simp only [Group.addOp]
@[simp] theorem Group.addOp_tmax (g : Group) (x : Op) : (g.addOp x).tmax = g.tmax := by simp only [Group.addOp]
@[simp] theorem Group.addOp_life (g : Group) (x : Op) : (g.addOp x).life = g.life := by simp only [Group.addOp]
@[simp] theorem Group.addOp_inSet (g : Group) (x : Op) : (g.addOp x).inSet = g.inSet := by simp only [Group.addOp]
@[simp] theorem Group.addOp_readySince (g : Group) (x : Op) : (g.addOp x).readySince = g.readySince := by simp only [Group.addOp]
@[simp] theorem Group.addOp_asleep (g : Group) (x : Op) : (g.addOp x).asleep = g.asleep := by simp only [Group.addOp]
@[simp] theorem Group.addOp_wait (g : Group) (x : Op) : (g.addOp x).wait = g.wait := by simp only [Group.addOp]
@[simp] theorem Group.addOp_mode (g : Group) (x : Op) : (g.addOp x).mode = g.mode := by simp only [Group.addOp]
@[simp] theorem Group.addOp_bnd (g : Group) (x : Op) : (g.addOp x).bnd = g.bnd := by simp only [Group.addOp]
@[simp] theorem Group.addOp_bndHere (g : Group) (x : Op) : (g.addOp x).bndHere = g.bndHere := by simp only [Group.addOp]
@[simp] theorem Group.addOp_yielded (g : Group) (x : Op) : (g.addOp x).yielded = g.yielded := by simp only [Group.addOp]
@[simp] theorem Group.addOp_ticket (g : Group) (x : Op) : (g.addOp x).ticket = g.ticket := by simp only [Group.addOp]
@[simp] theorem Group.addOp_entry (g : Group) (x : Op) : (g.addOp x).entry = g.entry := by simp only [Group.addOp]
@[simp] theorem Group.addOp_nextEntry (g : Group) (x : Op) : (g.addOp x).nextEntry = g.nextEntry := by simp only [Group.addOp]
@[simp] theorem Group.addOp_cutM (g : Group) (x : Op) : (g.addOp x).cutM = g.cutM := by simp only [Group.addOp]
@[simp] theorem Group.addOp_cutC (g : Group) (x : Op) : (g.addOp x).cutC = g.cutC := by simp only [Group.addOp]
@[simp] theorem Group.addOp_pcA (g : Group) (x : Op) : (g.addOp x).pcA = g.pcA := by simp only [Group.addOp]
@[simp] theorem Group.addOp_pcB (g : Group) (x : Op) : (g.addOp x).pcB = g.pcB := by simp only [Group.addOp]
@[simp] theorem Group.addOp_pcH (g : Group) (x : Op) : (g.addOp x).pcH = g.pcH := by simp only [Group.addOp]
@[simp] theorem Group.addOp_lastSlot (g : Group) (x : Op) : (g.addOp x).lastSlot = g.lastSlot := by simp only [Group.addOp]
@[simp] theorem Group.addOp_blive (g : Group) (x : Op) : (g.addOp x).blive = g.blive := by simp only [Group.addOp]
@[simp] theorem Group.addOp_bjoin (g : Group) (x : Op) : (g.addOp x).bjoin = g.bjoin := by simp only [Group.addOp]
@[simp] theorem Group.addOp_ajoin (g : Group) (x : Op) : (g.addOp x).ajoin = g.ajoin := by simp only [Group.addOp]
@[simp] theorem Group.addOp_alive (g : Group) (x : Op) : (g.addOp x).alive = g.alive := by simp only [Group.addOp]
@[simp] theorem Group.addOp_clause (g : Group) (x : Op) : (g.addOp x).clause = g.clause := by simp only [Group.addOp]
@[simp] theorem Group.addOp_exited (g : Group) (x : Op) : (g.addOp x).exited = g.exited := by simp only [Group.addOp]
@[simp] theorem Group.addOp_dead (g : Group) (x : Op) : (g.addOp x).dead = g.dead := by simp only [Group.addOp]
@[simp] theorem Group.addOp_deadSrc (g : Group) (x : Op) : (g.addOp x).deadSrc = g.deadSrc := by simp only [Group.addOp]
@[simp] theorem Group.addOp_masked (g : Group) (x : Op) : (g.addOp x).masked = g.masked := by simp only [Group.addOp]
@[simp] theorem Group.addOp_gmode (g : Group) (x : Op) : (g.addOp x).gmode = g.gmode := by simp only [Group.addOp]
@[simp] theorem Group.addOp_dsp (g : Group) (x : Op) : (g.addOp x).dsp = g.dsp := by simp only [Group.addOp]
@[simp] theorem Group.addOp_latch (g : Group) (x : Op) : (g.addOp x).latch = g.latch := by simp only [Group.addOp]
@[simp] theorem Group.addOp_s (g : Group) (x : Op) : (g.addOp x).s = g.s := by simp only [Group.addOp]
@[simp] theorem Group.addOp_sbad (g : Group) (x : Op) : (g.addOp x).sbad = g.sbad := by simp only [Group.addOp]
@[simp] theorem Group.addOp_v (g : Group) (x : Op) : (g.addOp x).v = g.v := by simp only [Group.addOp]
@[simp] theorem Group.addOp_o (g : Group) (x : Op) : (g.addOp x).o = g.o := by simp only [Group.addOp]
@[simp] theorem Group.addOp_t (g : Group) (x : Op) : (g.addOp x).t = g.t := by simp only [Group.addOp]
@[simp] theorem Group.addOp_mq (g : Group) (x : Op) : (g.addOp x).mq = g.mq := by simp only [Group.addOp]
@[simp] theorem Group.addOp_rp (g : Group) (x : Op) : (g.addOp x).rp = g.rp := by simp only [Group.addOp]
@[simp] theorem Group.addOp_late (g : Group) (x : Op) : (g.addOp x).late = g.late := by simp only [Group.addOp]
@[simp] theorem Group.addOp_colls (g : Group) (x : Op) : (g.addOp x).colls = g.colls := by simp only [Group.addOp]
@[simp] theorem Group.addOp_collOp (g : Group) (x : Op) : (g.addOp x).collOp = g.collOp := by simp only [Group.addOp]
@[simp] theorem Group.addOp_lastBatch (g : Group) (x : Op) : (g.addOp x).lastBatch = g.lastBatch := by simp only [Group.addOp]
@[simp] theorem Group.addOp_mbat (g : Group) (x : Op) : (g.addOp x).mbat = g.mbat := by simp only [Group.addOp]
@[simp] theorem Group.addOp_lastCopyBatch (g : Group) (x : Op) : (g.addOp x).lastCopyBatch = g.lastCopyBatch := by simp only [Group.addOp]
@[simp] theorem Group.addOp_cbat (g : Group) (x : Op) : (g.addOp x).cbat = g.cbat := by simp only [Group.addOp]
@[simp] theorem Group.addOp_copies (g : Group) (x : Op) : (g.addOp x).copies = g.copies := by simp only [Group.addOp]
@[simp] theorem Group.addOp_ver (g : Group) (x : Op) : (g.addOp x).ver = g.ver := by simp only [Group.addOp]
@[simp] theorem Group.addOp_taskSeq (g : Group) (x : Op) : (g.addOp x).taskSeq = g.taskSeq := by simp only [Group.addOp]
@[simp] theorem Group.addOp_recipe (g : Group) (x : Op) : (g.addOp x).recipe = g.recipe := by simp only [Group.addOp]
@[simp] theorem Group.addOp_bound (g : Group) (x : Op) : (g.addOp x).bound = g.bound := by simp only [Group.addOp]
@[simp] theorem Group.addOp_explicit (g : Group) (x : Op) : (g.addOp x).explicit = g.explicit := by simp only [Group.addOp]
@[simp] theorem Group.addOp_ck0 (g : Group) (x : Op) : (g.addOp x).ck0 = g.ck0 := by simp only [Group.addOp]
@[simp] theorem Group.addOp_ck1 (g : Group) (x : Op) : (g.addOp x).ck1 = g.ck1 := by simp only [Group.addOp]
@[simp] theorem Group.addOp_ckCur (g : Group) (x : Op) : (g.addOp x).ckCur = g.ckCur := by simp only [Group.addOp]
@[simp] theorem Group.addOp_report (g : Group) (x : Op) : (g.addOp x).report = g.report := by simp only [Group.addOp]
@[simp] theorem Group.addOp_trapSeq (g : Group) (x : Op) : (g.addOp x).trapSeq = g.trapSeq := by simp only [Group.addOp]
@[simp] theorem Group.addOp_pend (g : Group) (x : Op) : (g.addOp x).pend = g.pend := by simp only [Group.addOp]
@[simp] theorem Group.addOp_deferredTrap (g : Group) (x : Op) : (g.addOp x).deferredTrap = g.deferredTrap := by simp only [Group.addOp]
@[simp] theorem Group.addOp_sig (g : Group) (x : Op) : (g.addOp x).sig = g.sig := by simp only [Group.addOp]
@[simp] theorem Group.addOp_laneSig (g : Group) (x : Op) : (g.addOp x).laneSig = g.laneSig := by simp only [Group.addOp]
@[simp] theorem Group.addOp_lvq (g : Group) (x : Op) : (g.addOp x).lvq = g.lvq := by simp only [Group.addOp]
@[simp] theorem Group.addOp_side (g : Group) (x : Op) : (g.addOp x).side = g.side := by simp only [Group.addOp]
@[simp] theorem Group.addOp_diff1 (g : Group) (x : Op) : (g.addOp x).diff1 = g.diff1 := by simp only [Group.addOp]
@[simp] theorem Group.addOp_killed1 (g : Group) (x : Op) : (g.addOp x).killed1 = g.killed1 := by simp only [Group.addOp]
@[simp] theorem Group.addOp_acquire (g : Group) (x : Op) : (g.addOp x).acquire = g.acquire := by simp only [Group.addOp]
@[simp] theorem Group.addOp_stopAt (g : Group) (x : Op) : (g.addOp x).stopAt = g.stopAt := by simp only [Group.addOp]
@[simp] theorem Group.addOp_halted (g : Group) (x : Op) : (g.addOp x).halted = g.halted := by simp only [Group.addOp]
@[simp] theorem Group.addOp_ops (g : Group) (x : Op) : (g.addOp x).ops = g.ops ++ [x] := by simp only [Group.addOp]
@[simp] theorem Group.addOp_nextOp (g : Group) (x : Op) : (g.addOp x).nextOp = g.nextOp + 1 := by simp only [Group.addOp]

/-! ### `Group.dropOp` -/

@[simp] theorem Group.dropOp_num (g : Group) (n : Nat) : (g.dropOp n).num = g.num := by simp only [Group.dropOp]
@[simp] theorem Group.dropOp_role (g : Group) (n : Nat) : (g.dropOp n).role = g.role := by simp only [Group.dropOp]
@[simp] theorem Group.dropOp_roleIdx (g : Group) (n : Nat) : (g.dropOp n).roleIdx = g.roleIdx := by simp only [Group.dropOp]
@[simp] theorem Group.dropOp_vmax (g : Group) (n : Nat) : (g.dropOp n).vmax = g.vmax := by simp only [Group.dropOp]
@[simp] theorem Group.dropOp_tmax (g : Group) (n : Nat) : (g.dropOp n).tmax = g.tmax := by simp only [Group.dropOp]
@[simp] theorem Group.dropOp_life (g : Group) (n : Nat) : (g.dropOp n).life = g.life := by simp only [Group.dropOp]
@[simp] theorem Group.dropOp_inSet (g : Group) (n : Nat) : (g.dropOp n).inSet = g.inSet := by simp only [Group.dropOp]
@[simp] theorem Group.dropOp_readySince (g : Group) (n : Nat) : (g.dropOp n).readySince = g.readySince := by simp only [Group.dropOp]
@[simp] theorem Group.dropOp_asleep (g : Group) (n : Nat) : (g.dropOp n).asleep = g.asleep := by simp only [Group.dropOp]
@[simp] theorem Group.dropOp_wait (g : Group) (n : Nat) : (g.dropOp n).wait = g.wait := by simp only [Group.dropOp]
@[simp] theorem Group.dropOp_mode (g : Group) (n : Nat) : (g.dropOp n).mode = g.mode := by simp only [Group.dropOp]
@[simp] theorem Group.dropOp_bnd (g : Group) (n : Nat) : (g.dropOp n).bnd = g.bnd := by simp only [Group.dropOp]
@[simp] theorem Group.dropOp_bndHere (g : Group) (n : Nat) : (g.dropOp n).bndHere = g.bndHere := by simp only [Group.dropOp]
@[simp] theorem Group.dropOp_yielded (g : Group) (n : Nat) : (g.dropOp n).yielded = g.yielded := by simp only [Group.dropOp]
@[simp] theorem Group.dropOp_ticket (g : Group) (n : Nat) : (g.dropOp n).ticket = g.ticket := by simp only [Group.dropOp]
@[simp] theorem Group.dropOp_entry (g : Group) (n : Nat) : (g.dropOp n).entry = g.entry := by simp only [Group.dropOp]
@[simp] theorem Group.dropOp_nextEntry (g : Group) (n : Nat) : (g.dropOp n).nextEntry = g.nextEntry := by simp only [Group.dropOp]
@[simp] theorem Group.dropOp_cutM (g : Group) (n : Nat) : (g.dropOp n).cutM = g.cutM := by simp only [Group.dropOp]
@[simp] theorem Group.dropOp_cutC (g : Group) (n : Nat) : (g.dropOp n).cutC = g.cutC := by simp only [Group.dropOp]
@[simp] theorem Group.dropOp_pcA (g : Group) (n : Nat) : (g.dropOp n).pcA = g.pcA := by simp only [Group.dropOp]
@[simp] theorem Group.dropOp_pcB (g : Group) (n : Nat) : (g.dropOp n).pcB = g.pcB := by simp only [Group.dropOp]
@[simp] theorem Group.dropOp_pcH (g : Group) (n : Nat) : (g.dropOp n).pcH = g.pcH := by simp only [Group.dropOp]
@[simp] theorem Group.dropOp_lastSlot (g : Group) (n : Nat) : (g.dropOp n).lastSlot = g.lastSlot := by simp only [Group.dropOp]
@[simp] theorem Group.dropOp_blive (g : Group) (n : Nat) : (g.dropOp n).blive = g.blive := by simp only [Group.dropOp]
@[simp] theorem Group.dropOp_bjoin (g : Group) (n : Nat) : (g.dropOp n).bjoin = g.bjoin := by simp only [Group.dropOp]
@[simp] theorem Group.dropOp_ajoin (g : Group) (n : Nat) : (g.dropOp n).ajoin = g.ajoin := by simp only [Group.dropOp]
@[simp] theorem Group.dropOp_alive (g : Group) (n : Nat) : (g.dropOp n).alive = g.alive := by simp only [Group.dropOp]
@[simp] theorem Group.dropOp_clause (g : Group) (n : Nat) : (g.dropOp n).clause = g.clause := by simp only [Group.dropOp]
@[simp] theorem Group.dropOp_exited (g : Group) (n : Nat) : (g.dropOp n).exited = g.exited := by simp only [Group.dropOp]
@[simp] theorem Group.dropOp_dead (g : Group) (n : Nat) : (g.dropOp n).dead = g.dead := by simp only [Group.dropOp]
@[simp] theorem Group.dropOp_deadSrc (g : Group) (n : Nat) : (g.dropOp n).deadSrc = g.deadSrc := by simp only [Group.dropOp]
@[simp] theorem Group.dropOp_masked (g : Group) (n : Nat) : (g.dropOp n).masked = g.masked := by simp only [Group.dropOp]
@[simp] theorem Group.dropOp_gmode (g : Group) (n : Nat) : (g.dropOp n).gmode = g.gmode := by simp only [Group.dropOp]
@[simp] theorem Group.dropOp_dsp (g : Group) (n : Nat) : (g.dropOp n).dsp = g.dsp := by simp only [Group.dropOp]
@[simp] theorem Group.dropOp_nextOp (g : Group) (n : Nat) : (g.dropOp n).nextOp = g.nextOp := by simp only [Group.dropOp]
@[simp] theorem Group.dropOp_latch (g : Group) (n : Nat) : (g.dropOp n).latch = g.latch := by simp only [Group.dropOp]
@[simp] theorem Group.dropOp_s (g : Group) (n : Nat) : (g.dropOp n).s = g.s := by simp only [Group.dropOp]
@[simp] theorem Group.dropOp_sbad (g : Group) (n : Nat) : (g.dropOp n).sbad = g.sbad := by simp only [Group.dropOp]
@[simp] theorem Group.dropOp_v (g : Group) (n : Nat) : (g.dropOp n).v = g.v := by simp only [Group.dropOp]
@[simp] theorem Group.dropOp_o (g : Group) (n : Nat) : (g.dropOp n).o = g.o := by simp only [Group.dropOp]
@[simp] theorem Group.dropOp_t (g : Group) (n : Nat) : (g.dropOp n).t = g.t := by simp only [Group.dropOp]
@[simp] theorem Group.dropOp_mq (g : Group) (n : Nat) : (g.dropOp n).mq = g.mq := by simp only [Group.dropOp]
@[simp] theorem Group.dropOp_rp (g : Group) (n : Nat) : (g.dropOp n).rp = g.rp := by simp only [Group.dropOp]
@[simp] theorem Group.dropOp_late (g : Group) (n : Nat) : (g.dropOp n).late = g.late := by simp only [Group.dropOp]
@[simp] theorem Group.dropOp_colls (g : Group) (n : Nat) : (g.dropOp n).colls = g.colls := by simp only [Group.dropOp]
@[simp] theorem Group.dropOp_collOp (g : Group) (n : Nat) : (g.dropOp n).collOp = g.collOp := by simp only [Group.dropOp]
@[simp] theorem Group.dropOp_lastBatch (g : Group) (n : Nat) : (g.dropOp n).lastBatch = g.lastBatch := by simp only [Group.dropOp]
@[simp] theorem Group.dropOp_mbat (g : Group) (n : Nat) : (g.dropOp n).mbat = g.mbat := by simp only [Group.dropOp]
@[simp] theorem Group.dropOp_lastCopyBatch (g : Group) (n : Nat) : (g.dropOp n).lastCopyBatch = g.lastCopyBatch := by simp only [Group.dropOp]
@[simp] theorem Group.dropOp_cbat (g : Group) (n : Nat) : (g.dropOp n).cbat = g.cbat := by simp only [Group.dropOp]
@[simp] theorem Group.dropOp_copies (g : Group) (n : Nat) : (g.dropOp n).copies = g.copies := by simp only [Group.dropOp]
@[simp] theorem Group.dropOp_ver (g : Group) (n : Nat) : (g.dropOp n).ver = g.ver := by simp only [Group.dropOp]
@[simp] theorem Group.dropOp_taskSeq (g : Group) (n : Nat) : (g.dropOp n).taskSeq = g.taskSeq := by simp only [Group.dropOp]
@[simp] theorem Group.dropOp_recipe (g : Group) (n : Nat) : (g.dropOp n).recipe = g.recipe := by simp only [Group.dropOp]
@[simp] theorem Group.dropOp_bound (g : Group) (n : Nat) : (g.dropOp n).bound = g.bound := by simp only [Group.dropOp]
@[simp] theorem Group.dropOp_explicit (g : Group) (n : Nat) : (g.dropOp n).explicit = g.explicit := by simp only [Group.dropOp]
@[simp] theorem Group.dropOp_ck0 (g : Group) (n : Nat) : (g.dropOp n).ck0 = g.ck0 := by simp only [Group.dropOp]
@[simp] theorem Group.dropOp_ck1 (g : Group) (n : Nat) : (g.dropOp n).ck1 = g.ck1 := by simp only [Group.dropOp]
@[simp] theorem Group.dropOp_ckCur (g : Group) (n : Nat) : (g.dropOp n).ckCur = g.ckCur := by simp only [Group.dropOp]
@[simp] theorem Group.dropOp_report (g : Group) (n : Nat) : (g.dropOp n).report = g.report := by simp only [Group.dropOp]
@[simp] theorem Group.dropOp_trapSeq (g : Group) (n : Nat) : (g.dropOp n).trapSeq = g.trapSeq := by simp only [Group.dropOp]
@[simp] theorem Group.dropOp_pend (g : Group) (n : Nat) : (g.dropOp n).pend = g.pend := by simp only [Group.dropOp]
@[simp] theorem Group.dropOp_deferredTrap (g : Group) (n : Nat) : (g.dropOp n).deferredTrap = g.deferredTrap := by simp only [Group.dropOp]
@[simp] theorem Group.dropOp_sig (g : Group) (n : Nat) : (g.dropOp n).sig = g.sig := by simp only [Group.dropOp]
@[simp] theorem Group.dropOp_laneSig (g : Group) (n : Nat) : (g.dropOp n).laneSig = g.laneSig := by simp only [Group.dropOp]
@[simp] theorem Group.dropOp_lvq (g : Group) (n : Nat) : (g.dropOp n).lvq = g.lvq := by simp only [Group.dropOp]
@[simp] theorem Group.dropOp_side (g : Group) (n : Nat) : (g.dropOp n).side = g.side := by simp only [Group.dropOp]
@[simp] theorem Group.dropOp_diff1 (g : Group) (n : Nat) : (g.dropOp n).diff1 = g.diff1 := by simp only [Group.dropOp]
@[simp] theorem Group.dropOp_killed1 (g : Group) (n : Nat) : (g.dropOp n).killed1 = g.killed1 := by simp only [Group.dropOp]
@[simp] theorem Group.dropOp_acquire (g : Group) (n : Nat) : (g.dropOp n).acquire = g.acquire := by simp only [Group.dropOp]
@[simp] theorem Group.dropOp_stopAt (g : Group) (n : Nat) : (g.dropOp n).stopAt = g.stopAt := by simp only [Group.dropOp]
@[simp] theorem Group.dropOp_halted (g : Group) (n : Nat) : (g.dropOp n).halted = g.halted := by simp only [Group.dropOp]
@[simp] theorem Group.dropOp_ops (g : Group) (n : Nat) : (g.dropOp n).ops = g.ops.filter fun o => o.id != n := by simp only [Group.dropOp]

/-! ### `Group.modClause` -/

@[simp] theorem Group.modClause_num (g : Group) (f : Clause → Clause) : (g.modClause f).num = g.num := by simp only [Group.modClause]
@[simp] theorem Group.modClause_role (g : Group) (f : Clause → Clause) : (g.modClause f).role = g.role := by simp only [Group.modClause]
@[simp] theorem Group.modClause_roleIdx (g : Group) (f : Clause → Clause) : (g.modClause f).roleIdx = g.roleIdx := by simp only [Group.modClause]
@[simp] theorem Group.modClause_vmax (g : Group) (f : Clause → Clause) : (g.modClause f).vmax = g.vmax := by simp only [Group.modClause]
@[simp] theorem Group.modClause_tmax (g : Group) (f : Clause → Clause) : (g.modClause f).tmax = g.tmax := by simp only [Group.modClause]
@[simp] theorem Group.modClause_life (g : Group) (f : Clause → Clause) : (g.modClause f).life = g.life := by simp only [Group.modClause]
@[simp] theorem Group.modClause_inSet (g : Group) (f : Clause → Clause) : (g.modClause f).inSet = g.inSet := by simp only [Group.modClause]
@[simp] theorem Group.modClause_readySince (g : Group) (f : Clause → Clause) : (g.modClause f).readySince = g.readySince := by simp only [Group.modClause]
@[simp] theorem Group.modClause_asleep (g : Group) (f : Clause → Clause) : (g.modClause f).asleep = g.asleep := by simp only [Group.modClause]
@[simp] theorem Group.modClause_wait (g : Group) (f : Clause → Clause) : (g.modClause f).wait = g.wait := by simp only [Group.modClause]
@[simp] theorem Group.modClause_mode (g : Group) (f : Clause → Clause) : (g.modClause f).mode = g.mode := by simp only [Group.modClause]
@[simp] theorem Group.modClause_bnd (g : Group) (f : Clause → Clause) : (g.modClause f).bnd = g.bnd := by simp only [Group.modClause]
@[simp] theorem Group.modClause_bndHere (g : Group) (f : Clause → Clause) : (g.modClause f).bndHere = g.bndHere := by simp only [Group.modClause]
@[simp] theorem Group.modClause_yielded (g : Group) (f : Clause → Clause) : (g.modClause f).yielded = g.yielded := by simp only [Group.modClause]
@[simp] theorem Group.modClause_ticket (g : Group) (f : Clause → Clause) : (g.modClause f).ticket = g.ticket := by simp only [Group.modClause]
@[simp] theorem Group.modClause_entry (g : Group) (f : Clause → Clause) : (g.modClause f).entry = g.entry := by simp only [Group.modClause]
@[simp] theorem Group.modClause_nextEntry (g : Group) (f : Clause → Clause) : (g.modClause f).nextEntry = g.nextEntry := by simp only [Group.modClause]
@[simp] theorem Group.modClause_cutM (g : Group) (f : Clause → Clause) : (g.modClause f).cutM = g.cutM := by simp only [Group.modClause]
@[simp] theorem Group.modClause_cutC (g : Group) (f : Clause → Clause) : (g.modClause f).cutC = g.cutC := by simp only [Group.modClause]
@[simp] theorem Group.modClause_pcA (g : Group) (f : Clause → Clause) : (g.modClause f).pcA = g.pcA := by simp only [Group.modClause]
@[simp] theorem Group.modClause_pcB (g : Group) (f : Clause → Clause) : (g.modClause f).pcB = g.pcB := by simp only [Group.modClause]
@[simp] theorem Group.modClause_pcH (g : Group) (f : Clause → Clause) : (g.modClause f).pcH = g.pcH := by simp only [Group.modClause]
@[simp] theorem Group.modClause_lastSlot (g : Group) (f : Clause → Clause) : (g.modClause f).lastSlot = g.lastSlot := by simp only [Group.modClause]
@[simp] theorem Group.modClause_blive (g : Group) (f : Clause → Clause) : (g.modClause f).blive = g.blive := by simp only [Group.modClause]
@[simp] theorem Group.modClause_bjoin (g : Group) (f : Clause → Clause) : (g.modClause f).bjoin = g.bjoin := by simp only [Group.modClause]
@[simp] theorem Group.modClause_ajoin (g : Group) (f : Clause → Clause) : (g.modClause f).ajoin = g.ajoin := by simp only [Group.modClause]
@[simp] theorem Group.modClause_alive (g : Group) (f : Clause → Clause) : (g.modClause f).alive = g.alive := by simp only [Group.modClause]
@[simp] theorem Group.modClause_exited (g : Group) (f : Clause → Clause) : (g.modClause f).exited = g.exited := by simp only [Group.modClause]
@[simp] theorem Group.modClause_dead (g : Group) (f : Clause → Clause) : (g.modClause f).dead = g.dead := by simp only [Group.modClause]
@[simp] theorem Group.modClause_deadSrc (g : Group) (f : Clause → Clause) : (g.modClause f).deadSrc = g.deadSrc := by simp only [Group.modClause]
@[simp] theorem Group.modClause_masked (g : Group) (f : Clause → Clause) : (g.modClause f).masked = g.masked := by simp only [Group.modClause]
@[simp] theorem Group.modClause_gmode (g : Group) (f : Clause → Clause) : (g.modClause f).gmode = g.gmode := by simp only [Group.modClause]
@[simp] theorem Group.modClause_dsp (g : Group) (f : Clause → Clause) : (g.modClause f).dsp = g.dsp := by simp only [Group.modClause]
@[simp] theorem Group.modClause_ops (g : Group) (f : Clause → Clause) : (g.modClause f).ops = g.ops := by simp only [Group.modClause]
@[simp] theorem Group.modClause_nextOp (g : Group) (f : Clause → Clause) : (g.modClause f).nextOp = g.nextOp := by simp only [Group.modClause]
@[simp] theorem Group.modClause_latch (g : Group) (f : Clause → Clause) : (g.modClause f).latch = g.latch := by simp only [Group.modClause]
@[simp] theorem Group.modClause_s (g : Group) (f : Clause → Clause) : (g.modClause f).s = g.s := by simp only [Group.modClause]
@[simp] theorem Group.modClause_sbad (g : Group) (f : Clause → Clause) : (g.modClause f).sbad = g.sbad := by simp only [Group.modClause]
@[simp] theorem Group.modClause_v (g : Group) (f : Clause → Clause) : (g.modClause f).v = g.v := by simp only [Group.modClause]
@[simp] theorem Group.modClause_o (g : Group) (f : Clause → Clause) : (g.modClause f).o = g.o := by simp only [Group.modClause]
@[simp] theorem Group.modClause_t (g : Group) (f : Clause → Clause) : (g.modClause f).t = g.t := by simp only [Group.modClause]
@[simp] theorem Group.modClause_mq (g : Group) (f : Clause → Clause) : (g.modClause f).mq = g.mq := by simp only [Group.modClause]
@[simp] theorem Group.modClause_rp (g : Group) (f : Clause → Clause) : (g.modClause f).rp = g.rp := by simp only [Group.modClause]
@[simp] theorem Group.modClause_late (g : Group) (f : Clause → Clause) : (g.modClause f).late = g.late := by simp only [Group.modClause]
@[simp] theorem Group.modClause_colls (g : Group) (f : Clause → Clause) : (g.modClause f).colls = g.colls := by simp only [Group.modClause]
@[simp] theorem Group.modClause_collOp (g : Group) (f : Clause → Clause) : (g.modClause f).collOp = g.collOp := by simp only [Group.modClause]
@[simp] theorem Group.modClause_lastBatch (g : Group) (f : Clause → Clause) : (g.modClause f).lastBatch = g.lastBatch := by simp only [Group.modClause]
@[simp] theorem Group.modClause_mbat (g : Group) (f : Clause → Clause) : (g.modClause f).mbat = g.mbat := by simp only [Group.modClause]
@[simp] theorem Group.modClause_lastCopyBatch (g : Group) (f : Clause → Clause) : (g.modClause f).lastCopyBatch = g.lastCopyBatch := by simp only [Group.modClause]
@[simp] theorem Group.modClause_cbat (g : Group) (f : Clause → Clause) : (g.modClause f).cbat = g.cbat := by simp only [Group.modClause]
@[simp] theorem Group.modClause_copies (g : Group) (f : Clause → Clause) : (g.modClause f).copies = g.copies := by simp only [Group.modClause]
@[simp] theorem Group.modClause_ver (g : Group) (f : Clause → Clause) : (g.modClause f).ver = g.ver := by simp only [Group.modClause]
@[simp] theorem Group.modClause_taskSeq (g : Group) (f : Clause → Clause) : (g.modClause f).taskSeq = g.taskSeq := by simp only [Group.modClause]
@[simp] theorem Group.modClause_recipe (g : Group) (f : Clause → Clause) : (g.modClause f).recipe = g.recipe := by simp only [Group.modClause]
@[simp] theorem Group.modClause_bound (g : Group) (f : Clause → Clause) : (g.modClause f).bound = g.bound := by simp only [Group.modClause]
@[simp] theorem Group.modClause_explicit (g : Group) (f : Clause → Clause) : (g.modClause f).explicit = g.explicit := by simp only [Group.modClause]
@[simp] theorem Group.modClause_ck0 (g : Group) (f : Clause → Clause) : (g.modClause f).ck0 = g.ck0 := by simp only [Group.modClause]
@[simp] theorem Group.modClause_ck1 (g : Group) (f : Clause → Clause) : (g.modClause f).ck1 = g.ck1 := by simp only [Group.modClause]
@[simp] theorem Group.modClause_ckCur (g : Group) (f : Clause → Clause) : (g.modClause f).ckCur = g.ckCur := by simp only [Group.modClause]
@[simp] theorem Group.modClause_report (g : Group) (f : Clause → Clause) : (g.modClause f).report = g.report := by simp only [Group.modClause]
@[simp] theorem Group.modClause_trapSeq (g : Group) (f : Clause → Clause) : (g.modClause f).trapSeq = g.trapSeq := by simp only [Group.modClause]
@[simp] theorem Group.modClause_pend (g : Group) (f : Clause → Clause) : (g.modClause f).pend = g.pend := by simp only [Group.modClause]
@[simp] theorem Group.modClause_deferredTrap (g : Group) (f : Clause → Clause) : (g.modClause f).deferredTrap = g.deferredTrap := by simp only [Group.modClause]
@[simp] theorem Group.modClause_sig (g : Group) (f : Clause → Clause) : (g.modClause f).sig = g.sig := by simp only [Group.modClause]
@[simp] theorem Group.modClause_laneSig (g : Group) (f : Clause → Clause) : (g.modClause f).laneSig = g.laneSig := by simp only [Group.modClause]
@[simp] theorem Group.modClause_lvq (g : Group) (f : Clause → Clause) : (g.modClause f).lvq = g.lvq := by simp only [Group.modClause]
@[simp] theorem Group.modClause_side (g : Group) (f : Clause → Clause) : (g.modClause f).side = g.side := by simp only [Group.modClause]
@[simp] theorem Group.modClause_diff1 (g : Group) (f : Clause → Clause) : (g.modClause f).diff1 = g.diff1 := by simp only [Group.modClause]
@[simp] theorem Group.modClause_killed1 (g : Group) (f : Clause → Clause) : (g.modClause f).killed1 = g.killed1 := by simp only [Group.modClause]
@[simp] theorem Group.modClause_acquire (g : Group) (f : Clause → Clause) : (g.modClause f).acquire = g.acquire := by simp only [Group.modClause]
@[simp] theorem Group.modClause_stopAt (g : Group) (f : Clause → Clause) : (g.modClause f).stopAt = g.stopAt := by simp only [Group.modClause]
@[simp] theorem Group.modClause_halted (g : Group) (f : Clause → Clause) : (g.modClause f).halted = g.halted := by simp only [Group.modClause]
@[simp] theorem Group.modClause_clause (g : Group) (f : Clause → Clause) : (g.modClause f).clause = g.clause.map f := by simp only [Group.modClause]

end Sys2Proof.Machine
end

