-- ==== Sys2Proof/Laws/Memory.lean ====
section
/-! SUPPORT. Finite maps in canonical form: a read after a write, the canonical form kept by every write (log entry 2), and
what writes at their homes leave alone. -/

namespace Sys2Proof.Machine

open Sys2Proof

/-! ### Maps -/

section Maps

variable {α : Type} [DecidableEq α] (d : α)

/-- A key that is not above the lower bound is not listed. -/
theorem mapGet_below {k : Nat} : ∀ (m : List (Nat × α)) (lo : Nat), mapWfFrom d (some lo) m = true → k ≤ lo → mapGet d m k = d
  | [], _, _, _ => rfl
  | (a, x) :: m, lo, h, hk => by
    simp only [mapWfFrom, Bool.and_eq_true, decide_eq_true_eq] at h
    have ha : a ≠ k := by omega
    simp only [mapGet, if_neg ha]
    exact mapGet_below m a h.2 (by omega)

/-- A canonical map stays canonical under a weaker lower bound. -/
theorem mapWfFrom_none (lo : Option Nat) (m : List (Nat × α)) (h : mapWfFrom d lo m = true) : mapWfFrom d none m = true := by
  cases m with
  | nil => rfl
  | cons p m => obtain ⟨a, x⟩ := p; simp only [mapWfFrom, Bool.and_eq_true, decide_eq_true_eq, Bool.true_and] at h ⊢; exact ⟨h.1.2, h.2⟩

/-- A canonical map stays canonical under a lower bound below its first key. -/
theorem mapWfFrom_some (lo lo' : Nat) (m : List (Nat × α)) (h : mapWfFrom d (some lo) m = true) (hl : lo' ≤ lo) :
    mapWfFrom d (some lo') m = true := by
  cases m with
  | nil => rfl
  | cons p m =>
    obtain ⟨a, x⟩ := p
    simp only [mapWfFrom, Bool.and_eq_true, decide_eq_true_eq] at h ⊢
    exact ⟨⟨by omega, h.1.2⟩, h.2⟩

/-- A write reads back. -/
theorem mapGet_mapPut_same (k : Nat) (v : α) :
    ∀ (m : List (Nat × α)) (lo : Option Nat), mapWfFrom d lo m = true → mapGet d (mapPut d m k v) k = v
  | [], _, _ => by by_cases hv : v = d <;> simp [mapPut, mapGet, hv]
  | (a, x) :: m, lo, h => by
    simp only [mapWfFrom, Bool.and_eq_true, decide_eq_true_eq] at h
    rcases Nat.lt_trichotomy k a with hk | hk | hk
    · have hn : a ≠ k := by omega
      by_cases hv : v = d
      · simp only [mapPut, if_pos hk, if_pos hv, mapGet, if_neg hn]
        rw [hv]; exact mapGet_below d m a h.2 (by omega)
      · simp [mapPut, hk, hv, mapGet]
    · subst hk
      by_cases hv : v = d
      · simp only [mapPut, if_neg (Nat.lt_irrefl k), if_pos hv, if_true]
        rw [hv]; exact mapGet_below d m k h.2 (Nat.le_refl _)
      · simp [mapPut, hv, mapGet]
    · have h1 : ¬ k < a := by omega
      have h2 : ¬ k = a := by omega
      have h3 : ¬ a = k := by omega
      simp only [mapPut, if_neg h1, if_neg h2, mapGet, if_neg h3]
      exact mapGet_mapPut_same k v m (some a) h.2

/-- A write leaves every other key alone. -/
theorem mapGet_mapPut_other (k j : Nat) (v : α) (hj : j ≠ k) :
    ∀ (m : List (Nat × α)), mapGet d (mapPut d m k v) j = mapGet d m j
  | [] => by by_cases hv : v = d <;> simp [mapPut, mapGet, hv, Ne.symm hj]
  | (a, x) :: m => by
    rcases Nat.lt_trichotomy k a with hk | hk | hk
    · by_cases hv : v = d <;> simp [mapPut, hk, hv, mapGet, Ne.symm hj]
    · subst hk
      by_cases hv : v = d <;> simp [mapPut, hv, mapGet, Ne.symm hj]
    · have h1 : ¬ k < a := by omega
      have h2 : ¬ k = a := by omega
      simp only [mapPut, if_neg h1, if_neg h2, mapGet, mapGet_mapPut_other k j v hj m]

/-- A write above a lower bound keeps the canonical form from that bound. -/
theorem mapPut_wfFrom (k : Nat) (v : α) :
    ∀ (m : List (Nat × α)) (lo : Option Nat), mapWfFrom d lo m = true → (∀ l, lo = some l → l < k) →
      mapWfFrom d lo (mapPut d m k v) = true
  | [], lo, _, hl => by
    by_cases hv : v = d
    · simp [mapPut, hv, mapWfFrom]
    · cases lo with
      | none => simp [mapPut, hv, mapWfFrom]
      | some l => simp [mapPut, hv, mapWfFrom, hl l rfl]
  | (a, x) :: m, lo, h, hl => by
    simp only [mapWfFrom, Bool.and_eq_true, decide_eq_true_eq] at h
    have hlo : ∀ l, lo = some l → l < a := by
      intro l e; subst e; simpa using h.1.1
    rcases Nat.lt_trichotomy k a with hk | hk | hk
    · by_cases hv : v = d
      · cases lo <;> simp_all [mapPut, mapWfFrom]
      · cases lo <;> simp_all [mapPut, mapWfFrom]
    · subst hk
      by_cases hv : v = d
      · simp only [mapPut, if_neg (Nat.lt_irrefl k), if_pos hv, if_true]
        cases lo with
        | none => exact mapWfFrom_none d _ m h.2
        | some l => exact mapWfFrom_some d k l m h.2 (by have := hlo l rfl; omega)
      · cases lo <;> simp_all [mapPut, mapWfFrom]
    · have h1 : ¬ k < a := by omega
      have h2 : ¬ k = a := by omega
      have h3 := mapPut_wfFrom k v m (some a) h.2 (by simpa using hk)
      simp only [mapPut, if_neg h1, if_neg h2, mapWfFrom, h3, Bool.and_true, Bool.and_eq_true, decide_eq_true_eq]
      exact ⟨h.1.1, h.1.2⟩

/-- Every write keeps the canonical form. -/
theorem mapPut_wf (m : List (Nat × α)) (k : Nat) (v : α) (h : mapWfFrom d none m = true) :
    mapWfFrom d none (mapPut d m k v) = true := mapPut_wfFrom d k v m none h (by simp)

/-- Removing entries keeps the canonical form. -/
theorem mapFilter_wfFrom (p : Nat × α → Bool) :
    ∀ (m : List (Nat × α)) (lo : Option Nat), mapWfFrom d lo m = true → mapWfFrom d lo (m.filter p) = true
  | [], _, _ => rfl
  | (a, x) :: m, lo, h => by
    have h' := h
    simp only [mapWfFrom, Bool.and_eq_true, decide_eq_true_eq] at h
    have ih := mapFilter_wfFrom p m (some a) h.2
    by_cases hp : p (a, x) = true
    · simp only [List.filter_cons_of_pos hp, mapWfFrom, ih, Bool.and_true, Bool.and_eq_true, decide_eq_true_eq]
      exact ⟨h.1.1, h.1.2⟩
    · rw [List.filter_cons_of_neg hp]
      cases lo with
      | none => exact mapWfFrom_none d _ _ ih
      | some l => exact mapWfFrom_some d a l _ ih (by have := h.1.1; simp at this; omega)

end Maps

/-! ### Bytes -/

/-- A byte written reads back. -/
theorem memByte_mapPut_same (m : List (Nat × Byte)) (a : Nat) (b : Byte) (h : Memory.wf m = true) :
    memByte (mapPut 0 m a b) a = b := mapGet_mapPut_same 0 a b m none h

/-- A write of one byte leaves every other byte alone. -/
theorem memByte_mapPut_other (m : List (Nat × Byte)) (a j : Nat) (b : Byte) (hj : j ≠ a) :
    memByte (mapPut 0 m a b) j = memByte m j := mapGet_mapPut_other 0 a j b hj m

/-- Writing bytes keeps memory in canonical form. -/
theorem memWrite_wf : ∀ (l : List Byte) (m : List (Nat × Byte)) (a : Nat), Memory.wf m = true → Memory.wf (memWrite m a l) = true
  | [], _, _, h => h
  | b :: bs, m, a, h => memWrite_wf bs _ (a + 1) (mapPut_wf 0 m a b h)

/-- Writing cells keeps memory in canonical form. -/
theorem memCells_wf : ∀ (l : List (Nat × Byte)) (m : List (Nat × Byte)), Memory.wf m = true → Memory.wf (memCells m l) = true
  | [], _, h => h
  | (a, b) :: cs, m, h => memCells_wf cs _ (mapPut_wf 0 m a b h)

/-- Bytes outside a write keep their values. -/
theorem memByte_memWrite_outside (j : Nat) :
    ∀ (l : List Byte) (m : List (Nat × Byte)) (a : Nat), (j < a ∨ a + l.length ≤ j) → memByte (memWrite m a l) j = memByte m j
  | [], _, _, _ => rfl
  | b :: bs, m, a, h => by
    rw [List.length_cons] at h
    have hj : j ≠ a := by omega
    rw [memWrite, memByte_memWrite_outside j bs _ (a + 1) (by omega)]
    exact memByte_mapPut_other m a j b hj

/-- Byte `i` of a write reads back. -/
theorem memByte_memWrite_inside (i : Nat) :
    ∀ (l : List Byte) (m : List (Nat × Byte)) (a : Nat), Memory.wf m = true → (hi : i < l.length) →
      memByte (memWrite m a l) (a + i) = l[i]
  | [], _, _, _, hi => by simp at hi
  | b :: bs, m, a, h, hi => by
    cases i with
    | zero =>
      simp only [memWrite, Nat.add_zero]
      rw [memByte_memWrite_outside a bs _ (a + 1) (Or.inl (Nat.lt_succ_self a))]
      exact memByte_mapPut_same m a b h
    | succ n =>
      have := memByte_memWrite_inside n bs (mapPut 0 m a b) (a + 1) (mapPut_wf 0 m a b h) (by simpa using hi)
      rw [memWrite, show a + (n + 1) = a + 1 + n by omega, this]; rfl

/-- Cells not written keep their values. -/
theorem memByte_memCells_outside (j : Nat) :
    ∀ (l : List (Nat × Byte)) (m : List (Nat × Byte)), (∀ p ∈ l, p.1 ≠ j) → memByte (memCells m l) j = memByte m j
  | [], _, _ => rfl
  | (a, b) :: cs, m, h => by
    rw [memCells, memByte_memCells_outside j cs _ fun p hp => h p (List.mem_cons_of_mem _ hp)]
    exact memByte_mapPut_other m a j b (Ne.symm (h (a, b) List.mem_cons_self))

/-! ### The canonical form of a state -/

/-- The machine at reset has every map in canonical form. -/
theorem empty_map_wf : Memory.wf [] = true := rfl

/-- The canonical form speaks of memory, sidecars and stashes only. -/
theorem State.MemOk.of_eq {s t : State} (h : s.MemOk) (hm : t.mem = s.mem) (hs : t.side = s.side) (ht : t.teams = s.teams) : t.MemOk := by
  obtain ⟨a, b, c⟩ := h; exact ⟨hm ▸ a, hs ▸ b, ht ▸ c⟩

/-- A sidecar written keeps the canonical form. -/
theorem State.MemOk.setSidecar {s : State} (h : s.MemOk) (n : Nat) (c : Sidecar) : (s.setSidecar n c).MemOk :=
  ⟨h.1, mapPut_wf {} s.side n c h.2.1, h.2.2⟩

/-- A change of teams that keeps every stash canonical keeps the canonical form. -/
theorem State.MemOk.modTeam {s : State} (h : s.MemOk) (n : Nat) (f : Team → Team)
    (hf : ∀ t, Memory.wf t.stash = true → Memory.wf (f t).stash = true) : (s.modTeam n f).MemOk := by
  refine ⟨h.1, h.2.1, fun t ht => ?_⟩
  simp only [State.modTeam, List.mem_map] at ht
  obtain ⟨u, hu, rfl⟩ := ht
  have := h.2.2 u hu
  split
  · exact hf u this
  · exact this

/-- A change of a group keeps the stash of its team. -/
@[simp] theorem Team.modGroup_stash (t : Team) (r : GRef) (f : Group → Group) : (t.modGroup r f).stash = t.stash := by
  unfold Team.modGroup; split <;> rfl

/-- A change of a group keeps the canonical form. -/
theorem State.MemOk.modGroup {s : State} (h : s.MemOk) (r : GRef) (f : Group → Group) : (s.modGroup r f).MemOk :=
  h.modTeam r.team _ fun t ht => by rw [Team.modGroup_stash]; exact ht

/-- A fold of steps that each keep the canonical form keeps it. -/
theorem State.MemOk.foldl {α : Type} (f : State → α → State) (hf : ∀ s x, s.MemOk → (f s x).MemOk) :
    ∀ (l : List α) (s : State), s.MemOk → (l.foldl f s).MemOk
  | [], _, h => h
  | x :: l, s, h => State.MemOk.foldl f hf l (f s x) (hf s x h)

/-- A sector's CHECK verified keeps the canonical form. -/
theorem State.MemOk.checkSector {s : State} (h : s.MemOk) (handle : W64) (n : Nat) : (s.checkSector handle n).MemOk := by
  unfold State.checkSector
  split
  · exact h.setSidecar n _
  · exact h

/-- The check of a sector changes no byte of memory. -/
@[simp] theorem State.checkSector_mem (s : State) (handle : W64) (n : Nat) : (s.checkSector handle n).mem = s.mem := by
  unfold State.checkSector; split <;> rfl

/-- The bytes of a poisoned sector becoming free values keeps the canonical form. -/
theorem State.MemOk.freeSector {s : State} (h : s.MemOk) (n : Nat) : (s.freeSector n).MemOk := by
  unfold State.freeSector
  split
  · have hc := (h.checkSector 0 n).2
    refine ⟨?_, hc.1, hc.2⟩
    dsimp only
    exact memWrite_wf _ _ _ h.1
  · exact h

/-- Cells written at their homes keep the canonical form. -/
theorem State.MemOk.homeCells {s : State} (h : s.MemOk) (cells : List (Nat × Byte)) (owner : Nat) (page : Option Bool) :
    (s.homeCells cells owner page).MemOk := by
  have h2 : ((sectorsOf cells).foldl (fun t x => t.setSidecar x (s.sidecarAfter cells owner page x))
      (((sectorsOf cells).filter fun x => !coversSector cells x).foldl (fun s x => s.freeSector x) s)).MemOk :=
    State.MemOk.foldl _ (fun _ x h => h.setSidecar x _) _ _ (State.MemOk.foldl _ (fun _ x h => h.freeSector x) _ _ h)
  exact ⟨memCells_wf _ _ h2.1, h2.2⟩

/-- Bytes written at their home keep the canonical form. -/
theorem State.MemOk.homeWrite {s : State} (h : s.MemOk) (pa : Nat) (l : List Byte) (owner : Nat) (page : Option Bool) :
    (s.homeWrite pa l owner page).MemOk := h.homeCells _ _ _

/-- A write into a stash keeps its canonical form. -/
theorem Team.stashWrite_wf (t : Team) (own : Option GRef) (off : Nat) (l : List Byte) (h : Memory.wf t.stash = true) :
    Memory.wf (t.stashWrite own off l).stash = true := memWrite_wf l t.stash off h

/-- An object written keeps the canonical form. -/
theorem State.MemOk.objWrite {s : State} (h : s.MemOk) (o : Obj) (n : Nat) (l : List Byte) : (s.objWrite o n l).MemOk := by
  cases o with
  | stash t off va => exact h.modTeam t _ fun u hu => u.stashWrite_wf none _ l hu
  | glob pa va => exact h.homeWrite _ _ _ _

/-! ### What a write at its home leaves alone -/

/-- Free values in one sector leave the bytes of every other sector. -/
theorem State.freeSector_other (s : State) (n j : Nat) (h : j / 256 ≠ n) : memByte (s.freeSector n).mem j = memByte s.mem j := by
  unfold State.freeSector
  dsimp only
  split
  · dsimp only
    rw [memByte_memWrite_outside]
    rw [List.length_map, List.length_range]; omega
  · rfl

/-- A write at its home leaves the bytes of every sector that it does not touch. -/
theorem State.homeCells_outside (s : State) (cells : List (Nat × Byte)) (owner j : Nat) (page : Option Bool)
    (h : ∀ p ∈ cells, p.1 / 256 ≠ j / 256) : memByte (s.homeCells cells owner page).mem j = memByte s.mem j := by
  have free : ∀ (l : List Nat) (s : State), (∀ n ∈ l, j / 256 ≠ n) →
      memByte (l.foldl (fun s x => s.freeSector x) s).mem j = memByte s.mem j := by
    intro l
    induction l with
    | nil => intro s _; rfl
    | cons n l ih =>
      intro s hn
      rw [List.foldl_cons, ih _ fun m hm => hn m (List.mem_cons_of_mem _ hm)]
      exact s.freeSector_other n j (hn n List.mem_cons_self)
  have side : ∀ (l : List Nat) (t : State), (l.foldl (fun t x => t.setSidecar x (s.sidecarAfter cells owner page x)) t).mem = t.mem := by
    intro l
    induction l with
    | nil => intro t; rfl
    | cons n l ih => intro t; rw [List.foldl_cons, ih]; rfl
  have secs : ∀ n ∈ sectorsOf cells, j / 256 ≠ n := by
    intro n hn e
    simp only [sectorsOf, List.mem_eraseDups, List.mem_map] at hn
    obtain ⟨p, hp, rfl⟩ := hn
    exact h p hp e.symm
  show memByte (memCells _ cells) j = _
  rw [memByte_memCells_outside j _ _ fun p hp e => h p hp (by rw [e]), side, free _ _ fun n hn => secs n (List.mem_of_mem_filter hn)]

end Sys2Proof.Machine
end

