-- ==== Sys2Proof/Laws/Issue.lean ====
section
/-! SUPPORT. What an issue can do, said once (R60): the group found again after a change, the four ends of an issue, the
results of registers, what passing an instruction leaves alone, and the operations of classes a and b. -/

namespace Sys2Proof.Machine

open Sys2Proof

/-! ### Finding a team or a group after a change -/

/-- A changed team is found again. -/
theorem State.team?_modTeam_same (s : State) (n : Nat) (f : Team → Team) (hf : ∀ t, (f t).sid = t.sid) :
    (s.modTeam n f).team? n = (s.team? n).map f := by
  have go : ∀ l : List Team, (l.map fun t => if t.sid == n then f t else t).find? (fun t => t.sid == n)
      = (l.find? fun t => t.sid == n).map f := by
    intro l
    induction l with
    | nil => rfl
    | cons t l ih =>
      simp only [List.map_cons, List.find?_cons]
      by_cases h : (t.sid == n) = true
      · simp [h, hf]
      · simp only [Bool.not_eq_true] at h
        simp only [h, Bool.false_eq_true, if_false]; exact ih
  exact go s.teams

/-- Another team is found as it was. -/
theorem State.team?_modTeam_other (s : State) (n m : Nat) (f : Team → Team) (hf : ∀ t, (f t).sid = t.sid) (h : m ≠ n) :
    (s.modTeam n f).team? m = s.team? m := by
  have go : ∀ l : List Team, (l.map fun t => if t.sid == n then f t else t).find? (fun t => t.sid == m)
      = l.find? fun t => t.sid == m := by
    intro l
    induction l with
    | nil => rfl
    | cons t l ih =>
      simp only [List.map_cons, List.find?_cons, ih]
      by_cases hn : (t.sid == n) = true
      · have h1 : (t.sid == m) = false := by simp only [beq_iff_eq] at hn; simpa [hn] using Ne.symm h
        simp only [hn, if_true, hf, h1]
      · simp only [Bool.not_eq_true] at hn; simp [hn]
  exact go s.teams

/-- A change of a group keeps its team's number. -/
@[simp] theorem Team.modGroup_sid (t : Team) (r : GRef) (f : Group → Group) : (t.modGroup r f).sid = t.sid := by
  unfold Team.modGroup; split <;> rfl

/-- A changed group of a team. -/
theorem Team.group?_modGroup_same (t : Team) (r : GRef) (f : Group → Group) : (t.modGroup r f).group? r = (t.group? r).map f := by
  unfold Team.modGroup Team.group?
  cases r.sh <;> simp [modAt]

/-- Another group of a team. -/
theorem Team.group?_modGroup_other (t : Team) (r q : GRef) (f : Group → Group) (h : q.grp ≠ r.grp ∨ q.sh ≠ r.sh) :
    (t.modGroup r f).group? q = t.group? q := by
  unfold Team.modGroup Team.group?
  cases hr : r.sh <;> cases hq : q.sh <;>
    simp only [hr, hq, ne_eq, not_true_eq_false, or_false, Bool.false_eq_true, if_false, if_true, modAt] at h ⊢
  all_goals exact List.getElem?_modify_ne _ _ (Ne.symm h)

/-- A changed group is found again. -/
theorem State.group?_modGroup_same (s : State) (r : GRef) (f : Group → Group) : (s.modGroup r f).group? r = (s.group? r).map f := by
  unfold State.group? State.modGroup
  rw [State.team?_modTeam_same s _ _ (by simp)]
  cases s.team? r.team <;> simp [Team.group?_modGroup_same]

/-- Another group is found as it was. -/
theorem State.group?_modGroup_other (s : State) (r q : GRef) (f : Group → Group) (h : q ≠ r) :
    (s.modGroup r f).group? q = s.group? q := by
  unfold State.group? State.modGroup
  by_cases ht : q.team = r.team
  · rw [ht, State.team?_modTeam_same s _ _ (by simp)]
    have h1 : q.grp ≠ r.grp ∨ q.sh ≠ r.sh := by
      by_contra hc; push Not at hc
      exact h (by cases q; cases r; simp_all)
    cases s.team? r.team <;> simp [Team.group?_modGroup_other _ _ _ _ h1]
  · rw [State.team?_modTeam_other s _ _ _ (by simp) ht]

/-- Two changes of one group are one. -/
theorem State.modGroup_modGroup (s : State) (r : GRef) (f h : Group → Group) :
    (s.modGroup r f).modGroup r h = s.modGroup r fun g => h (f g) := by
  unfold State.modGroup State.modTeam
  simp only [List.map_map]
  congr 1
  refine List.map_congr_left fun t _ => ?_
  simp only [Function.comp]
  by_cases ht : (t.sid == r.team) = true
  · simp only [ht, if_true, Team.modGroup_sid]
    unfold Team.modGroup
    cases r.sh <;> simp only [modAt, Bool.false_eq_true, if_false, if_true, List.modify_modify_eq] <;> rfl
  · simp [ht]

/-! ### The context of an issue -/

/-- What the context of a group says about the state. -/
theorem State.ctxOf_spec {s : State} {r : GRef} {c : Ctx} (h : s.ctxOf r = some c) :
    c.g = r ∧ s.team? r.team = some c.team ∧ c.team.group? r = some c.grp ∧ s.bezel? c.team.bezel = some c.bez ∧
    c.bez.kernel? c.team.kslot = some c.kern ∧ c.grp.clause = some c.cl ∧ c.now = s.stepNo := by
  unfold State.ctxOf at h
  split at h
  · simp at h
  · rename_i t ht
    split at h
    · rename_i g b hg hb
      split at h
      · rename_i cl k hc hk
        simp only [Option.some.injEq] at h
        subst h
        exact ⟨rfl, ht, hg, hb, hk, hc, rfl⟩
      · simp at h
    · simp at h

/-- The issuing group is the group that the context names. -/
theorem State.ctx_spec {s : State} {c : Ctx} (h : s.ctx = some c) : s.cur = some c.g ∧ s.ctxOf c.g = some c := by
  unfold State.ctx at h
  cases hc : s.cur with
  | none => simp [hc] at h
  | some r =>
    simp only [hc, Option.bind_some] at h
    have := (State.ctxOf_spec h).1
    exact ⟨by rw [this], by rw [this]; exact h⟩

/-- The issuing group as the state holds it. -/
theorem State.ctx_group {s : State} {c : Ctx} (h : s.ctx = some c) : s.group? c.g = some c.grp := by
  obtain ⟨-, h2⟩ := State.ctx_spec h
  obtain ⟨-, h3, h4, -⟩ := State.ctxOf_spec h2
  simp [State.group?, h3, h4]

/-! ### The ends of an issue -/

/-- An issue whose effect succeeds moves its group past the instruction. -/
theorem issue_ok {i : Instr} {s : State} {c : Ctx} {f : Ctx → State → Res} {t : State}
    (h : Issuing i c s) (hf : f c s = .ok t) : issue i s f = .next (c.past t) := by
  simp [issue, h.ctx, h.checks, h.sound, hf, settle, Ctx.past]

/-- An issue whose own check fails takes the trap. -/
theorem issue_trap {i : Instr} {s : State} {c : Ctx} {f : Ctx → State → Res} {code : Nat} {a : W64} {sw : BitVec 16}
    (h : Issuing i c s) (hf : f c s = .error (.trap code a sw)) : issue i s f = .next (s.raise c code a sw c.here) := by
  simp [issue, h.ctx, h.checks, h.sound, hf, settle]

/-- An issue that fails a check of R60 steps 3 to 5 takes the trap. -/
theorem issue_refused_check {i : Instr} {s : State} {c : Ctx} {f : Ctx → State → Res} {code : Nat}
    (h : s.ctx = some c) (hp : precheck c i = some code) : issue i s f = .next (s.raise c code 0 0 c.here) := by
  simp [issue, h, hp, settle]

/-- An issue that must wait leaves the group waiting. -/
theorem issue_wait {i : Instr} {s : State} {c : Ctx} {f : Ctx → State → Res} {w : Wait} {t : State}
    (h : Issuing i c s) (hf : f c s = .error (.wait w t)) : issue i s f = .next (c.waits t w) := by
  simp [issue, h.ctx, h.checks, h.sound, hf, settle, Ctx.waits]

/-- An issue that ends the group's or the team's run leaves what the effect says. -/
theorem issue_done {i : Instr} {s : State} {c : Ctx} {f : Ctx → State → Res} {t : State}
    (h : Issuing i c s) (hf : f c s = .error (.done t)) : issue i s f = .next t := by
  simp [issue, h.ctx, h.checks, h.sound, hf, settle]

/-- An issue whose scalar unit reads a failed register ends the team (R361). -/
theorem issue_poison {i : Instr} {s : State} {c : Ctx} {f : Ctx → State → Res} (h : s.ctx = some c) (hp : precheck c i = none)
    (hs : c.sound i s = none) : issue i s f = .next (s.terminate c.g 19 12 (c.pc.setWidth 64)) := by
  simp [issue, h, hp, hs]

/-- An issue that reads failed lanes runs in the context that is left when they have been killed (R361). -/
theorem issue_sound {i : Instr} {s s1 : State} {c c1 : Ctx} {f : Ctx → State → Res} (h : s.ctx = some c) (hp : precheck c i = none)
    (hs : c.sound i s = some (c1, s1)) : issue i s f = .next (settle s1 c1 (f c1 s1)) := by
  simp [issue, h, hp, hs]

/-- Everything that an instruction's own effect can end in. -/
theorem settle_cases (s : State) (c : Ctx) (x : Res) :
    (∃ u, x = .ok u ∧ settle s c x = c.past u) ∨
    (∃ code a sw, x = .error (.trap code a sw) ∧ settle s c x = s.raise c code a sw c.here) ∨
    (∃ w u, x = .error (.wait w u) ∧ settle s c x = c.waits u w) ∨
    (∃ u, x = .error (.done u) ∧ settle s c x = u) := by
  cases x with
  | ok u => exact Or.inl ⟨u, rfl, rfl⟩
  | error e =>
    cases e with
    | trap code a sw => exact Or.inr (Or.inl ⟨code, a, sw, rfl, rfl⟩)
    | wait w u => exact Or.inr (Or.inr (Or.inl ⟨w, u, rfl, rfl⟩))
    | done u => exact Or.inr (Or.inr (Or.inr ⟨u, rfl, rfl⟩))

/-- Everything that an issue can do: its group traps at a check, its team ends at a failed register, or its effect, in the lanes that
are left, succeeds, traps, waits or ends. -/
theorem issue_cases {i : Instr} {s : State} {f : Ctx → State → Res} {t : State} (h : issue i s f = .next t) :
    ∃ c, s.ctx = some c ∧
      ((∃ code, precheck c i = some code ∧ t = c.traps s code 0) ∨
       (precheck c i = none ∧
         (t = s.terminate c.g 19 12 (c.pc.setWidth 64) ∨ ∃ c1 s1, c.sound i s = some (c1, s1) ∧
         ((∃ u, f c1 s1 = .ok u ∧ t = c1.past u) ∨
          (∃ code a sw, f c1 s1 = .error (.trap code a sw) ∧ t = s1.raise c1 code a sw c1.here) ∨
          (∃ w u, f c1 s1 = .error (.wait w u) ∧ t = c1.waits u w) ∨
          (∃ u, f c1 s1 = .error (.done u) ∧ t = u))))) := by
  unfold issue at h
  split at h
  · simp at h
  · rename_i c hc
    refine ⟨c, hc, ?_⟩
    simp only [Host.Outcome.next.injEq] at h
    subst h
    cases hp : precheck c i with
    | some code => exact Or.inl ⟨code, rfl, rfl⟩
    | none =>
      refine Or.inr ⟨rfl, ?_⟩
      cases hs : c.sound i s with
      | none => exact Or.inl rfl
      | some p =>
        refine Or.inr ⟨p.1, p.2, rfl, ?_⟩
        obtain h | ⟨code, a, sw, h, h'⟩ | ⟨w, u, h, h'⟩ | h := settle_cases p.2 p.1 (f p.1 p.2)
        · exact Or.inl h
        · exact Or.inr (Or.inl ⟨code, a, sw, h, h'⟩)
        · exact Or.inr (Or.inr (Or.inl ⟨w, u, h, h'⟩))
        · exact Or.inr (Or.inr (Or.inr h))

/-- A step without a word answers what its event leaves. -/
theorem eventStep_ok {s t : State} {name : String} {f : Event → Option State} {e : Event} (h : s.input = some e) (hf : f e = some t) :
    eventStep s name f = .next t := by
  simp [eventStep, h, hf]

/-- A step without a word whose event is impossible is refused by name. -/
theorem eventStep_refused {s : State} {name : String} {f : Event → Option State} (h : s.input.bind f = none) :
    eventStep s name f = .refused (.notEnabled name) := by
  simp [eventStep, h]

/-! ### Registers -/

/-- A scalar register after a write. -/
theorem Group.setS_sreg (g : Group) (n m : Nat) (v : W64) : (g.setS n v).sreg m = if m = n ∧ m < 32 then v else g.sreg m := by
  unfold Group.sreg Group.setS
  by_cases h : m < 32
  · simp only [h, dif_pos, Vector.getElem_ofFn, and_true]
  · simp [h]

/-- A scalar result changes the register that its code names, and no other (R57). -/
theorem Group.resultS_sreg (g : Group) (d : BitVec 8) (v : W64) (m : Nat) :
    (g.resultS d v).sreg m = if m < 32 ∧ d.toNat = 0xD0 + m then v else g.sreg m := by
  unfold Group.resultS
  by_cases h : (decide (0xD0 ≤ d.toNat) && decide (d.toNat < 0xF0)) = true
  · simp only [h, if_true, Group.setS_sreg]
    simp only [Bool.and_eq_true, decide_eq_true_eq] at h
    have : (m = d.toNat - 0xD0 ∧ m < 32) ↔ (m < 32 ∧ d.toNat = 0xD0 + m) := by omega
    simp only [this]
  · simp only [h, if_false, Bool.false_eq_true]
    simp only [Bool.and_eq_true, decide_eq_true_eq, not_and, not_lt] at h
    have : ¬ (m < 32 ∧ d.toNat = 0xD0 + m) := by omega
    simp only [this, if_false]

/-- A scalar result changes nothing but scalar registers and their poison. -/
theorem Group.resultS_frame (g : Group) (d : BitVec 8) (v : W64) : { g.resultS d v with s := g.s, sbad := g.sbad } = g := by
  unfold Group.resultS Group.setS; split <;> rfl

/-- A vector result changes vector registers, the operand file and the latch at most. -/
theorem Group.resultV_frame (g : Group) (d : BitVec 8) (em : W32) (tag : Tag) (l : Lanes) :
    { g.resultV d em tag l with v := g.v, o := g.o, latch := g.latch } = g := by
  unfold Group.resultV Group.setLatch Group.writeV Group.setVreg
  repeat' split
  all_goals rfl

/-- A vector result keeps the number of registers allocated. -/
theorem Group.resultV_length (g : Group) (d : BitVec 8) (em : W32) (tag : Tag) (l : Lanes) :
    (g.resultV d em tag l).v.length = g.v.length := by
  unfold Group.resultV Group.setLatch Group.writeV Group.setVreg
  repeat' split
  all_goals simp [modAt]

/-! ### Passing an instruction -/

/-- The end of a clause leaves the body of the group alone. -/
theorem Group.endClause_body (g : Group) (c : Clause) : (g.endClause c).body = g.body := by
  unfold Group.endClause Group.closeBatches Group.setPc Group.body
  repeat' split
  all_goals rfl

/-- Moving past an instruction leaves the body of the group alone (R46, R50, R93, R176, R199, R283). -/
theorem Group.advance_body (g : Group) : g.advance.body = g.body := by
  have fwd : ∀ g : Group, g.forward.body = g.body := by
    intro g
    unfold Group.forward
    split
    · rfl
    · split
      · rfl
      · exact g.endClause_body _
  have rec_ : ∀ (g : Group) (c : Clause), (g.reCkpt c).body = g.body := by
    intro g c; unfold Group.reCkpt Group.body; dsimp only; split <;> rfl
  have key : ({ g with bnd := .idle, bndHere := false, wait := .none } : Group).forward.body = g.body := by
    rw [fwd]; rfl
  unfold Group.advance
  dsimp only
  split
  · split
    · rw [rec_]; exact key
    · exact key
  · exact key

/-! ### Operations of classes a and b -/

/-- An operation of class a that has room joins the outstanding operations (R51, R97). -/
theorem issueA_room {c : Ctx} {s : State} {dest : List Deliver} {what : OpWhat} {ck : Bool} (h : c.RoomA s) :
    issueA c s dest what ck = .ok (c.opA s dest what ck) := by
  obtain ⟨g, hg, hr, hq⟩ := h
  cases hs : c.shadowed with
  | false => simp [issueA, hg, hr, hs, Ctx.opA, Ctx.nextOp]
  | true =>
    have hl : ¬ 8 ≤ g.lvq.length := by have := hq hs; omega
    simp [issueA, hg, hr, hs, hl, Ctx.opA, Ctx.nextOp, Group.addOp]

/-- An operation of class b that has room joins the outstanding operations (R51). -/
theorem issueB_room {c : Ctx} {s : State} {what : OpWhat} {k : Nat → State → Res} (h : c.RoomB s) :
    issueB c s what k = k (c.nextOp s) (c.opB s what) := by
  obtain ⟨g, hg, hr⟩ := h
  simp only [issueB, hg, hr, Bool.not_true, Bool.false_eq_true, if_false, Ctx.nextOp, Option.map_some, Option.getD_some, Ctx.opB]

/-- An instruction of class a with nothing to do completes at once when there is room for it. -/
theorem instantA_room {c : Ctx} {s : State} (h : c.RoomA s) : instantA c s = .ok (c.noneA s) := by
  obtain ⟨g, hg, hr, hq⟩ := h
  cases hs : c.shadowed with
  | false => simp [instantA, hg, hr, hs, Ctx.noneA]
  | true =>
    have hl : ¬ 8 ≤ g.lvq.length := by have := hq hs; omega
    simp [instantA, hg, hr, hs, hl, Ctx.noneA]

/-- An instruction of class b that completes at its issue goes on when there is room for it. -/
theorem instantB_room {c : Ctx} {s : State} {k : State → Res} (h : c.RoomB s) : instantB c s k = k s := by
  obtain ⟨g, hg, hr⟩ := h
  simp [instantB, hg, hr]

/-- An instruction deferred to the commit is held, or delivered at once. -/
theorem defer_room {c : Ctx} {s : State} {mk : Nat → Deferred} (h : c.RoomB s) : defer c s mk = .ok (c.held s mk) := by
  unfold defer Ctx.held
  rw [issueB_room h]

/-- The issuing group's room at issue, as the gates test it. -/
theorem gateA_room {c : Ctx} {s t : State} (hg : s.group? c.g = some c.grp) (h : c.RoomA s) : gateA c t = .ok () := by
  obtain ⟨g, hg', hr, hq⟩ := h
  obtain rfl : g = c.grp := by simpa [hg'] using hg
  cases hs : c.shadowed with
  | false => simp [gateA, hr, hs]
  | true =>
    have hl : ¬ 8 ≤ c.grp.lvq.length := by have := hq hs; omega
    simp [gateA, hr, hs, hl]

/-- The issuing group's room at issue, as the gate of class b tests it. -/
theorem gateB_room {c : Ctx} {s t : State} (hg : s.group? c.g = some c.grp) (h : c.RoomB s) : gateB c t = .ok () := by
  obtain ⟨g, hg', hr⟩ := h
  obtain rfl : g = c.grp := by simpa [hg'] using hg
  simp [gateB, hr]

/-- An operation raises the count of its flag by 1 and of no other (R51). -/
theorem Group.addOp_count (g : Group) (o : Op) (f : Nat) :
    (g.addOp o).flagCount f = g.flagCount f + (if o.flag = some f then 1 else 0) := by
  by_cases h : o.flag = some f <;> simp [Group.flagCount, Group.addOp, List.filter_append, h]

end Sys2Proof.Machine
end

