-- ==== Sys2Proof/Laws/Access.lean ====
section
/-! SUPPORT. What the shared checks of memory accesses, records, objects, units and commits answer where nothing stands in their
way (R155, R160, R169, R190, R222, R285). -/

namespace Sys2Proof.Machine

open Sys2Proof

/-! ### Groups stay as they are while memory is read -/

theorem State.group?_of_teams {s t : State} (r : GRef) (h : (t.team? r.team).map (fun u => (u.groups, u.shadows)) =
    (s.team? r.team).map fun u => (u.groups, u.shadows)) : t.group? r = s.group? r := by
  unfold State.group?
  rcases hs : s.team? r.team with _ | a <;> rcases ht : t.team? r.team with _ | b <;> simp [hs, ht] at h ⊢
  obtain ⟨h1, h2⟩ := h
  simp [Team.group?, h1, h2]

/-- A change of a team that leaves its groups alone. -/
theorem State.group?_modTeam_of (s : State) (n : Nat) (f : Team → Team) (r : GRef)
    (hf : ∀ t, (f t).sid = t.sid ∧ (f t).groups = t.groups ∧ (f t).shadows = t.shadows) : (s.modTeam n f).group? r = s.group? r := by
  apply State.group?_of_teams
  by_cases h : r.team = n
  · rw [h, State.team?_modTeam_same _ _ _ (fun t => (hf t).1)]
    cases s.team? n <;> simp [(hf _).2.1, (hf _).2.2]
  · rw [State.team?_modTeam_other _ _ _ _ (fun t => (hf t).1) h]

@[simp] theorem State.fillTlb_teams (s : State) (b : Bezel) (core va : Nat) : (s.fillTlb b core va).teams = s.teams := by
  unfold State.fillTlb State.putTlb
  repeat' split
  all_goals rfl

@[simp] theorem State.touch_teams (s : State) (b : Bezel) (core : Nat) (ads : List W64) : (s.touch b core ads).teams = s.teams := by
  unfold State.touch
  induction ads generalizing s with
  | nil => rfl
  | cons a l ih => simp only [List.foldl_cons]; rw [ih]; split <;> simp

@[simp] theorem State.takeLease_teams (s : State) (r : GRef) (core acq : Nat) (p : Place) : (s.takeLease r core acq p).teams = s.teams := by
  unfold State.takeLease
  repeat' split
  all_goals rfl

theorem State.group?_touch (s : State) (b : Bezel) (core : Nat) (ads : List W64) (r : GRef) : (s.touch b core ads).group? r = s.group? r := by
  simp [State.group?, State.team?]

theorem State.group?_takeLease (s : State) (w : GRef) (core acq : Nat) (p : Place) (r : GRef) : (s.takeLease w core acq p).group? r = s.group? r := by
  simp [State.group?, State.team?]

theorem State.group?_fillBlock (s : State) (sid off : Nat) (r : GRef) : (s.fillBlock sid off).group? r = s.group? r := by
  unfold State.fillBlock
  repeat' split
  all_goals first | rfl | exact State.group?_modTeam_of _ _ _ _ fun _ => ⟨rfl, rfl, rfl⟩

theorem State.group?_fillPlaces (s : State) (ps : List Place) (r : GRef) : (s.fillPlaces ps).group? r = s.group? r := by
  unfold State.fillPlaces
  induction ps generalizing s with
  | nil => rfl
  | cons p l ih => simp only [List.foldl_cons]; rw [ih]; split <;> simp [State.group?_fillBlock]

theorem State.group?_reading (c : Ctx) (s : State) (a : W64) (p : Place) (r : GRef) : (c.reading s a p).group? r = s.group? r := by
  simp [Ctx.reading, State.group?_takeLease, State.group?_fillPlaces, State.group?_touch]

/-! ### The checks pass -/

/-- R169: where every lane's access reaches a place, the checks answer those places and kill no lane. -/
theorem checkLanes_reach {c : Ctx} {s : State} {k : Acc} {lanes : List Nat} {ad : Nat → W64} {al : Nat} {pl : Nat → Place}
    (h : ∀ i ∈ lanes, c.Reaches s k al (ad i) (pl i)) :
    checkLanes c s k lanes ad al = .ok (s.touch c.bez c.core (lanes.map ad), lanes.map fun i => (i, pl i), []) := by
  have hp : ∀ i ∈ lanes, s.place c.team c.kern c.bez k (ad i) = .ok (pl i) := fun i hi => (h i hi).place
  unfold checkLanes firstLane
  have h1 : lanes.find? (fun i => badVa (ad i)) = none := by
    rw [List.find?_eq_none]; intro i hi; have := (h i hi).inMap; simp only [badVa, decide_eq_true_eq]; omega
  have h2 : lanes.find? (fun i => decide ((ad i).toNat % al ≠ 0)) = none := by
    rw [List.find?_eq_none]; intro i hi; simp [(h i hi).aligned]
  simp only [h1, h2]
  have h3 : ∀ {α : Type} (f : Nat → Option α), (∀ i ∈ lanes, f i = none) → lanes.findSome? (fun i => (f i).map fun x => (i, x)) = none := by
    intro α f hf; rw [List.findSome?_eq_none_iff]; intro i hi; simp [hf i hi]
  rw [h3 _ (fun i hi => by simp [hp i hi]), h3 _ (fun i hi => by simp [hp i hi]), h3 _ (fun i hi => by simp [hp i hi])]
  have h4 : lanes.any (fun i => s.place c.team c.kern c.bez k (ad i) == .migrating) = false := by
    rw [List.any_eq_false]; intro i hi; rw [hp i hi]; simp
  have h5 : lanes.any (fun i => s.place c.team c.kern c.bez k (ad i) == .uncorr) = false := by
    rw [List.any_eq_false]; intro i hi; rw [hp i hi]; simp
  have h6 : lanes.filter (fun i => s.place c.team c.kern c.bez k (ad i) == .kill) = [] := by
    rw [List.filter_eq_nil_iff]; intro i hi; rw [hp i hi]; simp
  have h7 : ∀ f : Nat → Option (Nat × Place), (∀ i ∈ lanes, f i = some (i, pl i)) → lanes.filterMap f = lanes.map fun i => (i, pl i) := by
    intro f hf
    rw [List.filterMap_congr (g := fun i => some (i, pl i)) hf]
    simp
  simp only [h4, h5, h6]
  rw [h7 _ (fun i hi => by simp [hp i hi])]
  have h8 : (lanes.map fun i => (i, pl i)).findSome? (fun p => s.heldBlock c.g p.2) = none := by
    rw [List.findSome?_eq_none_iff]; intro x hx; obtain ⟨i, hi, rfl⟩ := List.mem_map.1 hx; exact (h i hi).free
  simp only [h8, Bool.false_eq_true, if_false]
  rw [h3 _ (fun i hi => by simp [hp i hi])]

/-! ### Poison -/

@[simp] theorem State.fillTlb_poisoned (s : State) (b : Bezel) (core va x : Nat) : (s.fillTlb b core va).poisoned x = s.poisoned x := by
  unfold State.fillTlb State.putTlb
  repeat' split
  all_goals rfl

@[simp] theorem State.touch_poisoned (s : State) (b : Bezel) (core : Nat) (ads : List W64) (x : Nat) :
    (s.touch b core ads).poisoned x = s.poisoned x := by
  unfold State.touch
  induction ads generalizing s with
  | nil => rfl
  | cons a l ih => simp only [List.foldl_cons]; rw [ih]; split <;> simp

@[simp] theorem State.takeLease_poisoned (s : State) (r : GRef) (core acq : Nat) (p : Place) (x : Nat) : (s.takeLease r core acq p).poisoned x = s.poisoned x := by
  unfold State.takeLease
  repeat' split
  all_goals rfl

/-- Poison of places depends on the stashes and on the poison of sectors alone. -/
theorem State.sane_of {s t : State} (h1 : t.teams = s.teams) (h2 : ∀ x, t.poisoned x = s.poisoned x) {p : Place} (h : s.Sane p) : t.Sane p := by
  obtain ⟨ha, hb⟩ := h
  refine ⟨?_, fun sid off va u m e hu hm ho hf => ?_⟩
  · cases p <;> simpa [State.placePoisoned, State.team?, h1, h2] using ha
  · rw [h2]; exact hb sid off va u m e (by simpa [State.team?, h1] using hu) hm ho hf

theorem State.sane_touch {s : State} {b : Bezel} {core : Nat} {ads : List W64} {p : Place} (h : s.Sane p) : (s.touch b core ads).Sane p :=
  State.sane_of (State.touch_teams _ _ _ _) (State.touch_poisoned _ _ _ _) h

theorem State.sane_takeLease {s : State} {r : GRef} {core acq : Nat} {q p : Place} (h : s.Sane p) : (s.takeLease r core acq q).Sane p :=
  State.sane_of (State.takeLease_teams _ _ _ _ _) (State.takeLease_poisoned _ _ _ _ _) h

/-- R166: the block of a sound place is filled with a sound sector, so that no sector becomes poisoned by it. -/
theorem State.poisoned_fillBlock {s : State} {sid off x : Nat} {va : W64} (h : s.Sane (.stash sid off va))
    (hx : (s.fillBlock sid off).poisoned x = true) : s.poisoned x = true := by
  obtain ⟨-, hb⟩ := h
  unfold State.fillBlock at hx
  split at hx
  · exact hx
  · rename_i t ht
    split at hx
    · exact hx
    · rename_i m hm
      have hm1 := List.find?_some hm
      simp only [Bool.and_eq_true, beq_iff_eq, Bool.not_eq_true'] at hm1
      have hs := hb sid off va t m rfl ht (List.mem_of_find?_eq_some hm) hm1.1 hm1.2
      simp only [hs, Bool.false_eq_true, if_false, List.nil_append] at hx
      simp only [State.poisoned, Bool.or_eq_true] at hx ⊢
      refine hx.imp id fun hx => ?_
      simp only [State.blockBad, State.modTeam, List.any_eq_true, List.mem_map, Bool.and_eq_true, List.contains_eq_mem, decide_eq_true_eq,
        beq_iff_eq] at hx ⊢
      obtain ⟨u, ⟨w, hw, rfl⟩, y, hy, ⟨h1, h2⟩, h3⟩ := hx
      refine ⟨w, hw, ?_⟩
      split at hy
      · rename_i e
        rw [if_pos e] at h3
        simp only [List.mem_map] at hy
        simp only [List.mem_filter, bne_iff_ne, ne_eq] at h3
        obtain ⟨z, hz, rfl⟩ := hy
        split at h1
        · rename_i e2
          rw [if_pos e2] at h3
          exact absurd (by rw [e2]) h3.2
        · rename_i e2
          rw [if_neg e2] at h2 h3
          exact ⟨z, hz, ⟨h1, h2⟩, h3.1⟩
      · rename_i e
        rw [if_neg e] at h3
        exact ⟨y, hy, ⟨h1, h2⟩, h3⟩

theorem State.unpoisoned_fillBlock {s : State} {sid off x : Nat} {va : W64} (h : s.Sane (.stash sid off va)) (hx : s.poisoned x = false) :
    (s.fillBlock sid off).poisoned x = false := by
  by_contra hc
  rw [Bool.not_eq_false] at hc
  rw [State.poisoned_fillBlock h hc] at hx
  cases hx

/-- R166: filling the block of a sound place brings no poison where there is none. -/
theorem State.sane_fillBlock {s : State} {sid off : Nat} {w : W64} {p : Place} (hq : s.Sane (.stash sid off w)) (h : s.Sane p) :
    (s.fillBlock sid off).Sane p := by
  have hpo := fun x => State.unpoisoned_fillBlock (x := x) hq
  obtain ⟨ha, hb⟩ := h
  cases p with
  | glob pa sy ow va => exact ⟨hpo _ ha, fun _ _ _ _ _ e => by cases e⟩
  | stash q o va =>
    have hf2 : ∀ u m, (s.fillBlock sid off).team? q = some u → m ∈ u.mapped → m.off = o / 256 * 256 → m.filled = false →
        s.poisoned m.sector = false := by
      intro u m' hu hm' ho hf
      unfold State.fillBlock at hu
      split at hu
      · exact hb q o va u m' rfl hu hm' ho hf
      · rename_i t ht
        split at hu
        · exact hb q o va u m' rfl hu hm' ho hf
        · by_cases hs : q = sid
          · subst hs
            rw [State.team?_modTeam_same _ _ _ (by intro _; rfl), ht] at hu
            simp only [Option.map_some, Option.some.injEq] at hu
            subst hu
            simp only [List.mem_map] at hm'
            obtain ⟨y, hy, rfl⟩ := hm'
            split at hf
            · cases hf
            · rename_i hy2
              simp only [hy2] at ho hf ⊢
              exact hb q o va t y rfl ht hy ho hf
          · rw [State.team?_modTeam_other _ _ _ _ (by intro _; rfl) hs] at hu
            exact hb q o va u m' rfl hu hm' ho hf
    refine ⟨?_, fun sid' off' va' u m' e hu hm' ho hf => ?_⟩
    · simp only [State.placePoisoned] at ha ⊢
      unfold State.fillBlock
      split
      · exact ha
      · rename_i t ht
        split
        · exact ha
        · rename_i m hm
          by_cases hs : q = sid
          · subst hs
            have hm1 := List.find?_some hm
            simp only [Bool.and_eq_true, beq_iff_eq, Bool.not_eq_true'] at hm1
            have hn := hq.2 q off w t m rfl ht (List.mem_of_find?_eq_some hm) hm1.1 hm1.2
            rw [State.team?_modTeam_same _ _ _ (by intro _; rfl), ht]
            simp only [ht, Option.any_some, List.contains_eq_mem, decide_eq_false_iff_not] at ha
            simp [hn, ha]
          · rwa [State.team?_modTeam_other _ _ _ _ (by intro _; rfl) hs]
    · cases e
      exact hpo _ (hf2 u m' hu hm' ho hf)

theorem State.sane_fillPlaces {s : State} {ps : List Place} {p : Place} (hq : ∀ q ∈ ps, s.Sane q) (h : s.Sane p) : (s.fillPlaces ps).Sane p := by
  unfold State.fillPlaces
  induction ps generalizing s with
  | nil => exact h
  | cons q l ih =>
    simp only [List.foldl_cons]
    cases q with
    | stash => exact ih (fun q hl => State.sane_fillBlock (hq _ List.mem_cons_self) (hq q (List.mem_cons_of_mem _ hl))) (State.sane_fillBlock (hq _ List.mem_cons_self) h)
    | glob => exact ih (fun q hl => hq q (by simp [hl])) h

/-! ### Records, counters and objects -/

/-- R155, R160, R219: a record that the group can read is read. -/
theorem readRecordAs_reads {c : Ctx} {s t : State} {k : Acc} {a : W64} {n : Nat} {r : List Byte} (hc : s.group? c.g = some c.grp)
    (h : c.Reads s k a n r t) : readRecordAs k c s a n = .ok (t, r) := by
  obtain ⟨p, hp, hs, rfl, rfl⟩ := h
  unfold readRecordAs
  rw [checkLanes_reach (lanes := [0]) (pl := fun _ => p) (fun i _ => hp)]
  have hg : (c.reading s a p).group? c.g = some c.grp := by rw [State.group?_reading, hc]
  have hn : (c.reading s a p).placePoisoned p = false := (State.sane_takeLease (State.sane_fillPlaces (by simpa using State.sane_touch hs) (State.sane_touch hs))).1
  simp only [Ctx.reading, List.map_cons, List.map_nil] at hg hn ⊢
  simp [bind, Except.bind, hn, hg]

/-- R190: a counter that the group can name is found. -/
theorem counterAt_counter {c : Ctx} {s t : State} {k : Acc} {a : W64} {o : Obj} (h : c.Counter s k a o t) : counterAt c s k a = .ok (t, o) := by
  obtain ⟨pa, ow, hp, hs, rfl, rfl⟩ := h
  unfold counterAt
  rw [checkLanes_reach (lanes := [0]) (pl := fun _ => .glob pa true ow a) (fun i _ => hp)]
  simp [bind, Except.bind, State.placePoisoned, hs]

/-- R181, R182: an object that the group can name is found. -/
theorem objAt_object {c : Ctx} {s t : State} {k : Acc} {a : W64} {o : Obj} {use : Bool} (h : c.Object s k a o t) :
    objAt c s k a use = .ok (t, o) := by
  obtain ⟨hw, pa, ow, hp, hs, rfl, rfl⟩ | ⟨hw, rfl, sid, off, hp, hm, hs, rfl⟩ := h
  · unfold objAt
    rw [hw, if_neg (by decide), checkLanes_reach (lanes := [0]) (pl := fun _ => .glob pa true ow a) (fun i _ => hp)]
    simp [bind, Except.bind, State.placePoisoned, hs, Place.obj, Except.map]
  · unfold objAt
    rw [hw, if_pos rfl, checkLanes_reach (lanes := [0]) (pl := fun _ => .stash sid off a) (fun i _ => hp)]
    have h1 : (s.touch c.bez c.core [a]).objMapped sid off = false := by simpa [State.objMapped, State.team?] using hm
    have h2 : (s.touch c.bez c.core [a]).placePoisoned (.stash sid off a) = false := by simpa [State.placePoisoned, State.team?] using hs
    simp [bind, Except.bind, h1, h2, Place.obj]

/-- R277: an image that the group can read is read. -/
theorem readPieces_pieces {c : Ctx} {s t : State} {a : W64} {n : Nat} {r : List Byte} (h : c.Pieces s a n r t) : readPieces c s a n = .ok (t, r) := by
  obtain ⟨pl, ad, u, ha, hp, rfl, rfl, hs, rfl⟩ := h
  obtain rfl : ad = fun k => a + BitVec.ofNat 64 (64 * k) := funext ha
  unfold readPieces
  rw [checkLanes_reach (pl := pl) (fun i hi => hp i (List.mem_range.1 hi))]
  simp only [bind, Except.bind, List.map_map, List.any_map, List.flatMap_map, Function.comp_def]
  rw [if_neg]
  simp only [List.any_eq_true, List.mem_range, not_exists, not_and, Bool.not_eq_true]
  exact fun k hk => hs k hk

theorem find?_pair {α : Type} {qs : List Nat} {f : Nat → α} {q : Nat} (h : q ∈ qs) :
    (qs.map fun i => (i, f i)).find? (fun p => p.1 == q) = some (q, f q) := by
  induction qs with
  | nil => cases h
  | cons x l ih =>
    by_cases hx : x = q
    · subst hx; simp
    · simp only [List.map_cons, List.find?_cons]
      rw [show (x == q) = false by simpa using hx]
      exact ih (by simpa [Ne.symm hx] using h)

theorem mapM_ok {α β ε : Type} {l : List α} {f : α → Except ε β} {g : α → β} (h : ∀ x ∈ l, f x = .ok (g x)) : l.mapM f = .ok (l.map g) := by
  induction l with
  | nil => rfl
  | cons x l ih =>
    rw [List.mapM_cons, h x (by simp), ih fun y hy => h y (by simp [hy])]
    rfl

/-- R267: the ring objects that the sequencer can read are read. -/
theorem collPeers_peers {c : Ctx} {s t : State} {ring : Ring} {pas : List Nat} (h : c.Peers s ring pas t) : collPeers c s ring = .ok (t, pas) := by
  obtain ⟨qs, pl, pa, va, u, hq, hp, rfl, hu, hx, rfl, rfl⟩ := h
  unfold collPeers
  rw [← hq]
  simp only
  rw [checkLanes_reach (pl := pl) hp]
  simp only [bind, Except.bind, List.map_map, List.any_map, Function.comp_def]
  generalize (s.touch c.bez c.core (qs.map fun q => ring.peers + BitVec.ofNat 64 (16 * q))).fillPlaces (qs.map pl) = v at hu ⊢
  rw [if_neg]
  · choose! sy ow y hy using fun q hq => (hu q hq).2.2
    have hc : ∀ q ∈ qs, peerCtrl c v (qs.map fun i => (i, pl i)) q = va q := fun q hq => by
      simp only [peerCtrl, find?_pair hq, (hu q hq).2.1]
    rw [checkLanes_reach (lanes := qs) (pl := fun q => .glob (pa q) (sy q) (ow q) (y q)) (fun q hq => by rw [hc q hq]; exact hy q hq),
      List.map_congr_left hc]
    simp only
    rw [mapM_ok (g := pa) fun q hr => ?_]
    split
    · rename_i e
      obtain ⟨x, ow, hx⟩ := hx
      simp [Ring.home, hx, e]
    · rename_i e
      rw [find?_pair (by rw [hq]; simpa [e] using hr)]
  · simp only [List.any_eq_true, not_exists, not_and, Bool.not_eq_true]
    exact fun k hk => (hu k hk).1

/-! ### Units and commits -/

/-- R285: units within the bound are counted. -/
theorem countUnits_fit {c : Ctx} {s : State} {ps : List Place} (h : c.UnitsFit s ps) : countUnits c s ps = .ok (c.counted s ps) := by
  unfold countUnits Ctx.counted
  rcases h with h | ⟨g, hg, h1, h2⟩
  · simp [h]
  · split
    · rfl
    · simp [hg, h2, Nat.not_lt.2 h1, Ctx.mod]

/-- R222, R287: the commit that needs no wait is made. -/
theorem boundary_commit {c : Ctx} {s : State} (here : Bool) (h : c.MayCommit s) : boundary c s here = .ok (c.commit s here) := by
  unfold boundary Ctx.commit
  rcases h with h | ⟨h0, h1, h2⟩
  · simp [h]
  · have : (!c.shadowed || c.grp.mode == .handler) = true := by
      rcases h2 with h2 | h2 <;> simp [h2]
    simp [h0, h1, this]

end Sys2Proof.Machine
end

