-- ==== Sys2Proof/Laws/Exec.lean ====
section
/-! SUPPORT. The meaning of each instruction, one lemma per constructor of `Instr`, so that no proof unfolds `exec`. -/

namespace Sys2Proof.Machine

open Sys2Proof

@[simp] theorem exec_bra (o : BitVec 24) (s : State) : exec (.bra o) s = execBra o s := rfl
@[simp] theorem exec_brz (d : BitVec 8) (imm : BitVec 16) (s : State) : exec (.brz d imm) s = execBrz d imm s := rfl
@[simp] theorem exec_brnz (d : BitVec 8) (imm : BitVec 16) (s : State) : exec (.brnz d imm) s = execBrnz d imm s := rfl
@[simp] theorem exec_call (d : BitVec 8) (imm : BitVec 16) (s : State) : exec (.call d imm) s = execCall d imm s := rfl
@[simp] theorem exec_ret (a : BitVec 8) (s : State) : exec (.ret a) s = execRet a s := rfl
@[simp] theorem exec_brx (d : BitVec 8) (a : BitVec 8) (n : BitVec 8) (s : State) : exec (.brx d a n) s = execBrx d a n s := rfl
@[simp] theorem exec_split (imm : BitVec 16) (s : State) : exec (.split imm) s = execSplit imm s := rfl
@[simp] theorem exec_join (s : State) : exec .join s = execJoin s := rfl
@[simp] theorem exec_dpush (s : State) : exec .dpush s = execDpush s := rfl
@[simp] theorem exec_dpop (s : State) : exec .dpop s = execDpop s := rfl
@[simp] theorem exec_exit (s : State) : exec .exit s = execExit s := rfl
@[simp] theorem exec_yield (s : State) : exec .yield s = execYield s := rfl
@[simp] theorem exec_mode (imm : BitVec 16) (s : State) : exec (.mode imm) s = execMode imm s := rfl
@[simp] theorem exec_nop (s : State) : exec .nop s = execNop s := rfl
@[simp] theorem exec_ballot (d : BitVec 8) (a : BitVec 8) (f : BitVec 8) (s : State) : exec (.ballot d a f) s = execBallot d a f s := rfl
@[simp] theorem exec_vall (d : BitVec 8) (a : BitVec 8) (s : State) : exec (.vall d a) s = execVall d a s := rfl
@[simp] theorem exec_vany (d : BitVec 8) (a : BitVec 8) (s : State) : exec (.vany d a) s = execVany d a s := rfl
@[simp] theorem exec_shfl (d : BitVec 8) (a : BitVec 8) (b : BitVec 8) (s : State) : exec (.shfl d a b) s = execShfl d a b s := rfl
@[simp] theorem exec_shflx (d : BitVec 8) (a : BitVec 8) (n : BitVec 8) (s : State) : exec (.shflx d a n) s = execShflx d a n s := rfl
@[simp] theorem exec_shflu (d : BitVec 8) (a : BitVec 8) (n : BitVec 8) (s : State) : exec (.shflu d a n) s = execShflu d a n s := rfl
@[simp] theorem exec_shfld (d : BitVec 8) (a : BitVec 8) (n : BitVec 8) (s : State) : exec (.shfld d a n) s = execShfld d a n s := rfl
@[simp] theorem exec_rdlane (d : BitVec 8) (a : BitVec 8) (n : BitVec 8) (s : State) : exec (.rdlane d a n) s = execRdlane d a n s := rfl
@[simp] theorem exec_wrlane (d : BitVec 8) (a : BitVec 8) (n : BitVec 8) (s : State) : exec (.wrlane d a n) s = execWrlane d a n s := rfl
@[simp] theorem exec_lsum (d : BitVec 8) (a : BitVec 8) (s : State) : exec (.lsum d a) s = execLsum d a s := rfl
@[simp] theorem exec_lmax (d : BitVec 8) (a : BitVec 8) (s : State) : exec (.lmax d a) s = execLmax d a s := rfl
@[simp] theorem exec_lmin (d : BitVec 8) (a : BitVec 8) (s : State) : exec (.lmin d a) s = execLmin d a s := rfl
@[simp] theorem exec_scan (d : BitVec 8) (a : BitVec 8) (f : BitVec 8) (s : State) : exec (.scan d a f) s = execScan d a f s := rfl
@[simp] theorem exec_mcount (d : BitVec 8) (a : BitVec 8) (f : BitVec 8) (s : State) : exec (.mcount d a f) s = execMcount d a f s := rfl
@[simp] theorem exec_sadd (d : BitVec 8) (a : BitVec 8) (b : BitVec 8) (s : State) : exec (.sadd d a b) s = execSadd d a b s := rfl
@[simp] theorem exec_ssub (d : BitVec 8) (a : BitVec 8) (b : BitVec 8) (s : State) : exec (.ssub d a b) s = execSsub d a b s := rfl
@[simp] theorem exec_smul (d : BitVec 8) (a : BitVec 8) (b : BitVec 8) (s : State) : exec (.smul d a b) s = execSmul d a b s := rfl
@[simp] theorem exec_smulh (d : BitVec 8) (a : BitVec 8) (b : BitVec 8) (s : State) : exec (.smulh d a b) s = execSmulh d a b s := rfl
@[simp] theorem exec_smulhu (d : BitVec 8) (a : BitVec 8) (b : BitVec 8) (s : State) : exec (.smulhu d a b) s = execSmulhu d a b s := rfl
@[simp] theorem exec_sdivu (d : BitVec 8) (a : BitVec 8) (b : BitVec 8) (s : State) : exec (.sdivu d a b) s = execSdivu d a b s := rfl
@[simp] theorem exec_sremu (d : BitVec 8) (a : BitVec 8) (b : BitVec 8) (s : State) : exec (.sremu d a b) s = execSremu d a b s := rfl
@[simp] theorem exec_sand (d : BitVec 8) (a : BitVec 8) (b : BitVec 8) (s : State) : exec (.sand d a b) s = execSand d a b s := rfl
@[simp] theorem exec_sor (d : BitVec 8) (a : BitVec 8) (b : BitVec 8) (s : State) : exec (.sor d a b) s = execSor d a b s := rfl
@[simp] theorem exec_sxor (d : BitVec 8) (a : BitVec 8) (b : BitVec 8) (s : State) : exec (.sxor d a b) s = execSxor d a b s := rfl
@[simp] theorem exec_sandn (d : BitVec 8) (a : BitVec 8) (b : BitVec 8) (s : State) : exec (.sandn d a b) s = execSandn d a b s := rfl
@[simp] theorem exec_sshl (d : BitVec 8) (a : BitVec 8) (b : BitVec 8) (s : State) : exec (.sshl d a b) s = execSshl d a b s := rfl
@[simp] theorem exec_sshr (d : BitVec 8) (a : BitVec 8) (b : BitVec 8) (s : State) : exec (.sshr d a b) s = execSshr d a b s := rfl
@[simp] theorem exec_ssar (d : BitVec 8) (a : BitVec 8) (b : BitVec 8) (s : State) : exec (.ssar d a b) s = execSsar d a b s := rfl
@[simp] theorem exec_smin (d : BitVec 8) (a : BitVec 8) (b : BitVec 8) (s : State) : exec (.smin d a b) s = execSmin d a b s := rfl
@[simp] theorem exec_smax (d : BitVec 8) (a : BitVec 8) (b : BitVec 8) (s : State) : exec (.smax d a b) s = execSmax d a b s := rfl
@[simp] theorem exec_sminu (d : BitVec 8) (a : BitVec 8) (b : BitVec 8) (s : State) : exec (.sminu d a b) s = execSminu d a b s := rfl
@[simp] theorem exec_smaxu (d : BitVec 8) (a : BitVec 8) (b : BitVec 8) (s : State) : exec (.smaxu d a b) s = execSmaxu d a b s := rfl
@[simp] theorem exec_seq (d : BitVec 8) (a : BitVec 8) (b : BitVec 8) (s : State) : exec (.seq d a b) s = execSeq d a b s := rfl
@[simp] theorem exec_slt (d : BitVec 8) (a : BitVec 8) (b : BitVec 8) (s : State) : exec (.slt d a b) s = execSlt d a b s := rfl
@[simp] theorem exec_sltu (d : BitVec 8) (a : BitVec 8) (b : BitVec 8) (s : State) : exec (.sltu d a b) s = execSltu d a b s := rfl
@[simp] theorem exec_ssel (d : BitVec 8) (a : BitVec 8) (b : BitVec 8) (s : State) : exec (.ssel d a b) s = execSsel d a b s := rfl
@[simp] theorem exec_sbfe (d : BitVec 8) (a : BitVec 8) (b : BitVec 8) (s : State) : exec (.sbfe d a b) s = execSbfe d a b s := rfl
@[simp] theorem exec_sbfi (d : BitVec 8) (a : BitVec 8) (b : BitVec 8) (s : State) : exec (.sbfi d a b) s = execSbfi d a b s := rfl
@[simp] theorem exec_spopc (d : BitVec 8) (a : BitVec 8) (s : State) : exec (.spopc d a) s = execSpopc d a s := rfl
@[simp] theorem exec_sclz (d : BitVec 8) (a : BitVec 8) (s : State) : exec (.sclz d a) s = execSclz d a s := rfl
@[simp] theorem exec_sctz (d : BitVec 8) (a : BitVec 8) (s : State) : exec (.sctz d a) s = execSctz d a s := rfl
@[simp] theorem exec_smov (d : BitVec 8) (a : BitVec 8) (s : State) : exec (.smov d a) s = execSmov d a s := rfl
@[simp] theorem exec_smovi (d : BitVec 8) (imm : BitVec 16) (s : State) : exec (.smovi d imm) s = execSmovi d imm s := rfl
@[simp] theorem exec_smovh (d : BitVec 8) (imm : BitVec 16) (s : State) : exec (.smovh d imm) s = execSmovh d imm s := rfl
@[simp] theorem exec_add (d : BitVec 8) (a : BitVec 8) (b : BitVec 8) (s : State) : exec (.add d a b) s = execAdd d a b s := rfl
@[simp] theorem exec_sub (d : BitVec 8) (a : BitVec 8) (b : BitVec 8) (s : State) : exec (.sub d a b) s = execSub d a b s := rfl
@[simp] theorem exec_mul (d : BitVec 8) (a : BitVec 8) (b : BitVec 8) (s : State) : exec (.mul d a b) s = execMul d a b s := rfl
@[simp] theorem exec_fma (d : BitVec 8) (a : BitVec 8) (b : BitVec 8) (s : State) : exec (.fma d a b) s = execFma d a b s := rfl
@[simp] theorem exec_fms (d : BitVec 8) (a : BitVec 8) (b : BitVec 8) (s : State) : exec (.fms d a b) s = execFms d a b s := rfl
@[simp] theorem exec_fnma (d : BitVec 8) (a : BitVec 8) (b : BitVec 8) (s : State) : exec (.fnma d a b) s = execFnma d a b s := rfl
@[simp] theorem exec_min (d : BitVec 8) (a : BitVec 8) (b : BitVec 8) (s : State) : exec (.min d a b) s = execMin d a b s := rfl
@[simp] theorem exec_max (d : BitVec 8) (a : BitVec 8) (b : BitVec 8) (s : State) : exec (.max d a b) s = execMax d a b s := rfl
@[simp] theorem exec_abs (d : BitVec 8) (a : BitVec 8) (s : State) : exec (.abs d a) s = execAbs d a s := rfl
@[simp] theorem exec_neg (d : BitVec 8) (a : BitVec 8) (s : State) : exec (.neg d a) s = execNeg d a s := rfl
@[simp] theorem exec_mov (d : BitVec 8) (a : BitVec 8) (s : State) : exec (.mov d a) s = execMov d a s := rfl
@[simp] theorem exec_and (d : BitVec 8) (a : BitVec 8) (b : BitVec 8) (s : State) : exec (.and d a b) s = execAnd d a b s := rfl
@[simp] theorem exec_or (d : BitVec 8) (a : BitVec 8) (b : BitVec 8) (s : State) : exec (.or d a b) s = execOr d a b s := rfl
@[simp] theorem exec_xor (d : BitVec 8) (a : BitVec 8) (b : BitVec 8) (s : State) : exec (.xor d a b) s = execXor d a b s := rfl
@[simp] theorem exec_not (d : BitVec 8) (a : BitVec 8) (s : State) : exec (.not d a) s = execNot d a s := rfl
@[simp] theorem exec_shl (d : BitVec 8) (a : BitVec 8) (b : BitVec 8) (s : State) : exec (.shl d a b) s = execShl d a b s := rfl
@[simp] theorem exec_shr (d : BitVec 8) (a : BitVec 8) (b : BitVec 8) (s : State) : exec (.shr d a b) s = execShr d a b s := rfl
@[simp] theorem exec_sar (d : BitVec 8) (a : BitVec 8) (b : BitVec 8) (s : State) : exec (.sar d a b) s = execSar d a b s := rfl
@[simp] theorem exec_mulhi (d : BitVec 8) (a : BitVec 8) (b : BitVec 8) (s : State) : exec (.mulhi d a b) s = execMulhi d a b s := rfl
@[simp] theorem exec_clamp (d : BitVec 8) (a : BitVec 8) (b : BitVec 8) (s : State) : exec (.clamp d a b) s = execClamp d a b s := rfl
@[simp] theorem exec_sel (d : BitVec 8) (a : BitVec 8) (b : BitVec 8) (s : State) : exec (.sel d a b) s = execSel d a b s := rfl
@[simp] theorem exec_cmpeq (d : BitVec 8) (a : BitVec 8) (b : BitVec 8) (s : State) : exec (.cmpeq d a b) s = execCmpeq d a b s := rfl
@[simp] theorem exec_cmpne (d : BitVec 8) (a : BitVec 8) (b : BitVec 8) (s : State) : exec (.cmpne d a b) s = execCmpne d a b s := rfl
@[simp] theorem exec_cmplt (d : BitVec 8) (a : BitVec 8) (b : BitVec 8) (s : State) : exec (.cmplt d a b) s = execCmplt d a b s := rfl
@[simp] theorem exec_cmple (d : BitVec 8) (a : BitVec 8) (b : BitVec 8) (s : State) : exec (.cmple d a b) s = execCmple d a b s := rfl
@[simp] theorem exec_cmpun (d : BitVec 8) (a : BitVec 8) (b : BitVec 8) (s : State) : exec (.cmpun d a b) s = execCmpun d a b s := rfl
@[simp] theorem exec_floor (d : BitVec 8) (a : BitVec 8) (s : State) : exec (.floor d a) s = execFloor d a s := rfl
@[simp] theorem exec_ceil (d : BitVec 8) (a : BitVec 8) (s : State) : exec (.ceil d a) s = execCeil d a s := rfl
@[simp] theorem exec_rnde (d : BitVec 8) (a : BitVec 8) (s : State) : exec (.rnde d a) s = execRnde d a s := rfl
@[simp] theorem exec_trunc (d : BitVec 8) (a : BitVec 8) (s : State) : exec (.trunc d a) s = execTrunc d a s := rfl
@[simp] theorem exec_fract (d : BitVec 8) (a : BitVec 8) (s : State) : exec (.fract d a) s = execFract d a s := rfl
@[simp] theorem exec_copysign (d : BitVec 8) (a : BitVec 8) (b : BitVec 8) (s : State) : exec (.copysign d a b) s = execCopysign d a b s := rfl
@[simp] theorem exec_popc (d : BitVec 8) (a : BitVec 8) (s : State) : exec (.popc d a) s = execPopc d a s := rfl
@[simp] theorem exec_clz (d : BitVec 8) (a : BitVec 8) (s : State) : exec (.clz d a) s = execClz d a s := rfl
@[simp] theorem exec_bfe (d : BitVec 8) (a : BitVec 8) (b : BitVec 8) (s : State) : exec (.bfe d a b) s = execBfe d a b s := rfl
@[simp] theorem exec_bfi (d : BitVec 8) (a : BitVec 8) (b : BitVec 8) (s : State) : exec (.bfi d a b) s = execBfi d a b s := rfl
@[simp] theorem exec_dot2 (d : BitVec 8) (a : BitVec 8) (b : BitVec 8) (s : State) : exec (.dot2 d a b) s = execDot2 d a b s := rfl
@[simp] theorem exec_swaph (d : BitVec 8) (a : BitVec 8) (f : BitVec 8) (s : State) : exec (.swaph d a f) s = execSwaph d a f s := rfl
@[simp] theorem exec_perm (d : BitVec 8) (a : BitVec 8) (b : BitVec 8) (s : State) : exec (.perm d a b) s = execPerm d a b s := rfl
@[simp] theorem exec_lanes (d : BitVec 8) (a : BitVec 8) (b : BitVec 8) (s : State) : exec (.lanes d a b) s = execLanes d a b s := rfl
@[simp] theorem exec_ldexp (d : BitVec 8) (a : BitVec 8) (b : BitVec 8) (s : State) : exec (.ldexp d a b) s = execLdexp d a b s := rfl
@[simp] theorem exec_cvt (d : BitVec 8) (a : BitVec 8) (f : BitVec 4) (g : BitVec 4) (s : State) : exec (.cvt d a f g) s = execCvt d a f g s := rfl
@[simp] theorem exec_cvtf (d : BitVec 8) (a : BitVec 8) (e : BitVec 1) (j : BitVec 4) (sc : BitVec 3) (s : State) : exec (.cvtf d a e j sc) s = execCvtf d a e j sc s := rfl
@[simp] theorem exec_pack (d : BitVec 8) (a : BitVec 8) (b : BitVec 8) (s : State) : exec (.pack d a b) s = execPack d a b s := rfl
@[simp] theorem exec_unpkl (d : BitVec 8) (a : BitVec 8) (s : State) : exec (.unpkl d a) s = execUnpkl d a s := rfl
@[simp] theorem exec_unpkh (d : BitVec 8) (a : BitVec 8) (s : State) : exec (.unpkh d a) s = execUnpkh d a s := rfl
@[simp] theorem exec_rcp (d : BitVec 8) (a : BitVec 8) (s : State) : exec (.rcp d a) s = execRcp d a s := rfl
@[simp] theorem exec_rsq (d : BitVec 8) (a : BitVec 8) (s : State) : exec (.rsq d a) s = execRsq d a s := rfl
@[simp] theorem exec_sqrt (d : BitVec 8) (a : BitVec 8) (s : State) : exec (.sqrt d a) s = execSqrt d a s := rfl
@[simp] theorem exec_exp2 (d : BitVec 8) (a : BitVec 8) (s : State) : exec (.exp2 d a) s = execExp2 d a s := rfl
@[simp] theorem exec_log2 (d : BitVec 8) (a : BitVec 8) (s : State) : exec (.log2 d a) s = execLog2 d a s := rfl
@[simp] theorem exec_sinpi (d : BitVec 8) (a : BitVec 8) (s : State) : exec (.sinpi d a) s = execSinpi d a s := rfl
@[simp] theorem exec_cospi (d : BitVec 8) (a : BitVec 8) (s : State) : exec (.cospi d a) s = execCospi d a s := rfl
@[simp] theorem exec_rred (d : BitVec 8) (a : BitVec 8) (s : State) : exec (.rred d a) s = execRred d a s := rfl
@[simp] theorem exec_tanh (d : BitVec 8) (a : BitVec 8) (s : State) : exec (.tanh d a) s = execTanh d a s := rfl
@[simp] theorem exec_div (d : BitVec 8) (a : BitVec 8) (b : BitVec 8) (s : State) : exec (.div d a b) s = execDiv d a b s := rfl
@[simp] theorem exec_rgrow (d : BitVec 8) (imm : BitVec 16) (s : State) : exec (.rgrow d imm) s = execRgrow d imm s := rfl
@[simp] theorem exec_rshrink (imm : BitVec 16) (s : State) : exec (.rshrink imm) s = execRshrink imm s := rfl
@[simp] theorem exec_trgrow (d : BitVec 8) (imm : BitVec 16) (s : State) : exec (.trgrow d imm) s = execTrgrow d imm s := rfl
@[simp] theorem exec_trshrink (imm : BitVec 16) (s : State) : exec (.trshrink imm) s = execTrshrink imm s := rfl
@[simp] theorem exec_vshape (d : BitVec 8) (a : BitVec 8) (f : BitVec 8) (s : State) : exec (.vshape d a f) s = execVshape d a f s := rfl
@[simp] theorem exec_sread (d : BitVec 8) (n : BitVec 8) (s : State) : exec (.sread d n) s = execSread d n s := rfl
@[simp] theorem exec_swrite (a : BitVec 8) (n : BitVec 8) (s : State) : exec (.swrite a n) s = execSwrite a n s := rfl
@[simp] theorem exec_slit (d : BitVec 8) (n : BitVec 8) (s : State) : exec (.slit d n) s = execSlit d n s := rfl
@[simp] theorem exec_ld (d : BitVec 8) (a : BitVec 8) (b : BitVec 8) (s : State) : exec (.ld d a b) s = execLd d a b s := rfl
@[simp] theorem exec_ld16 (d : BitVec 8) (a : BitVec 8) (b : BitVec 8) (s : State) : exec (.ld16 d a b) s = execLd16 d a b s := rfl
@[simp] theorem exec_ld8 (d : BitVec 8) (a : BitVec 8) (b : BitVec 8) (s : State) : exec (.ld8 d a b) s = execLd8 d a b s := rfl
@[simp] theorem exec_st (d : BitVec 8) (a : BitVec 8) (b : BitVec 8) (s : State) : exec (.st d a b) s = execSt d a b s := rfl
@[simp] theorem exec_st16 (d : BitVec 8) (a : BitVec 8) (b : BitVec 8) (s : State) : exec (.st16 d a b) s = execSt16 d a b s := rfl
@[simp] theorem exec_st8 (d : BitVec 8) (a : BitVec 8) (b : BitVec 8) (s : State) : exec (.st8 d a b) s = execSt8 d a b s := rfl
@[simp] theorem exec_lds (d : BitVec 8) (a : BitVec 8) (b : BitVec 8) (s : State) : exec (.lds d a b) s = execLds d a b s := rfl
@[simp] theorem exec_sts (d : BitVec 8) (a : BitVec 8) (b : BitVec 8) (s : State) : exec (.sts d a b) s = execSts d a b s := rfl
@[simp] theorem exec_ldb (d : BitVec 8) (a : BitVec 8) (b : BitVec 8) (s : State) : exec (.ldb d a b) s = execLdb d a b s := rfl
@[simp] theorem exec_stb (d : BitVec 8) (a : BitVec 8) (b : BitVec 8) (s : State) : exec (.stb d a b) s = execStb d a b s := rfl
@[simp] theorem exec_smap (d : BitVec 8) (a : BitVec 8) (b : BitVec 8) (s : State) : exec (.smap d a b) s = execSmap d a b s := rfl
@[simp] theorem exec_sunmap (a : BitVec 8) (s : State) : exec (.sunmap a) s = execSunmap a s := rfl
@[simp] theorem exec_sflush (a : BitVec 8) (s : State) : exec (.sflush a) s = execSflush a s := rfl
@[simp] theorem exec_fence (l : BitVec 1) (k : BitVec 2) (sc : BitVec 3) (s : State) : exec (.fence l k sc) s = execFence l k sc s := rfl
@[simp] theorem exec_cpy (d : BitVec 8) (a : BitVec 8) (b : BitVec 8) (s : State) : exec (.cpy d a b) s = execCpy d a b s := rfl
@[simp] theorem exec_pref (a : BitVec 8) (b : BitVec 8) (s : State) : exec (.pref a b) s = execPref a b s := rfl
@[simp] theorem exec_binit (d : BitVec 8) (a : BitVec 8) (b : BitVec 8) (s : State) : exec (.binit d a b) s = execBinit d a b s := rfl
@[simp] theorem exec_barr (a : BitVec 8) (f : BitVec 8) (s : State) : exec (.barr a f) s = execBarr a f s := rfl
@[simp] theorem exec_barx (a : BitVec 8) (b : BitVec 8) (s : State) : exec (.barx a b) s = execBarx a b s := rfl
@[simp] theorem exec_bwait (a : BitVec 8) (b : BitVec 8) (s : State) : exec (.bwait a b) s = execBwait a b s := rfl
@[simp] theorem exec_atadd (d : BitVec 8) (a : BitVec 8) (b : BitVec 8) (s : State) : exec (.atadd d a b) s = execAtadd d a b s := rfl
@[simp] theorem exec_atmin (d : BitVec 8) (a : BitVec 8) (b : BitVec 8) (s : State) : exec (.atmin d a b) s = execAtmin d a b s := rfl
@[simp] theorem exec_atmax (d : BitVec 8) (a : BitVec 8) (b : BitVec 8) (s : State) : exec (.atmax d a b) s = execAtmax d a b s := rfl
@[simp] theorem exec_atand (d : BitVec 8) (a : BitVec 8) (b : BitVec 8) (s : State) : exec (.atand d a b) s = execAtand d a b s := rfl
@[simp] theorem exec_ator (d : BitVec 8) (a : BitVec 8) (b : BitVec 8) (s : State) : exec (.ator d a b) s = execAtor d a b s := rfl
@[simp] theorem exec_atxor (d : BitVec 8) (a : BitVec 8) (b : BitVec 8) (s : State) : exec (.atxor d a b) s = execAtxor d a b s := rfl
@[simp] theorem exec_atxch (d : BitVec 8) (a : BitVec 8) (b : BitVec 8) (s : State) : exec (.atxch d a b) s = execAtxch d a b s := rfl
@[simp] theorem exec_atcas (d : BitVec 8) (a : BitVec 8) (b : BitVec 8) (s : State) : exec (.atcas d a b) s = execAtcas d a b s := rfl
@[simp] theorem exec_tlincSignal (d : BitVec 8) (a : BitVec 8) (s : State) : exec (.tlincSignal d a) s = execTlincSignal d a s := rfl
@[simp] theorem exec_tlincReserve (d : BitVec 8) (a : BitVec 8) (s : State) : exec (.tlincReserve d a) s = execTlincReserve d a s := rfl
@[simp] theorem exec_tlincComplete (d : BitVec 8) (a : BitVec 8) (s : State) : exec (.tlincComplete d a) s = execTlincComplete d a s := rfl
@[simp] theorem exec_tlrd (d : BitVec 8) (a : BitVec 8) (f : BitVec 8) (s : State) : exec (.tlrd d a f) s = execTlrd d a f s := rfl
@[simp] theorem exec_tzero (t : BitVec 4) (s : State) : exec (.tzero t) s = execTzero t s := rfl
@[simp] theorem exec_mma (t : BitVec 4) (a : BitVec 8) (b : BitVec 8) (s : State) : exec (.mma t a b) s = execMma t a b s := rfl
@[simp] theorem exec_tld (t : BitVec 4) (a : BitVec 8) (s : State) : exec (.tld t a) s = execTld t a s := rfl
@[simp] theorem exec_tst (t : BitVec 4) (a : BitVec 8) (s : State) : exec (.tst t a) s = execTst t a s := rfl
@[simp] theorem exec_tcvt (t : BitVec 4) (u : BitVec 4) (f : BitVec 4) (g : BitVec 4) (s : State) : exec (.tcvt t u f g) s = execTcvt t u f g s := rfl
@[simp] theorem exec_tcolr (d : BitVec 8) (u : BitVec 4) (c : BitVec 8) (s : State) : exec (.tcolr d u c) s = execTcolr d u c s := rfl
@[simp] theorem exec_tcolw (t : BitVec 4) (a : BitVec 8) (c : BitVec 8) (s : State) : exec (.tcolw t a c) s = execTcolw t a c s := rfl
@[simp] theorem exec_mfence (s : State) : exec .mfence s = execMfence s := rfl
@[simp] theorem exec_rprd (d : BitVec 8) (f : BitVec 8) (s : State) : exec (.rprd d f) s = execRprd d f s := rfl
@[simp] theorem exec_stest (t : BitVec 4) (s : State) : exec (.stest t) s = execStest t s := rfl
@[simp] theorem exec_tscale (t : BitVec 4) (a : BitVec 8) (f : BitVec 8) (s : State) : exec (.tscale t a f) s = execTscale t a f s := rfl
@[simp] theorem exec_fopen (d : BitVec 8) (a : BitVec 8) (s : State) : exec (.fopen d a) s = execFopen d a s := rfl
@[simp] theorem exec_fsend (d : BitVec 8) (a : BitVec 8) (b : BitVec 8) (s : State) : exec (.fsend d a b) s = execFsend d a b s := rfl
@[simp] theorem exec_fmcast (d : BitVec 8) (a : BitVec 8) (b : BitVec 8) (s : State) : exec (.fmcast d a b) s = execFmcast d a b s := rfl
@[simp] theorem exec_freseed (a : BitVec 8) (s : State) : exec (.freseed a) s = execFreseed a s := rfl
@[simp] theorem exec_fclose (a : BitVec 8) (s : State) : exec (.fclose a) s = execFclose a s := rfl
@[simp] theorem exec_fstat (d : BitVec 8) (a : BitVec 8) (f : BitVec 8) (s : State) : exec (.fstat d a f) s = execFstat d a f s := rfl
@[simp] theorem exec_coll (d : BitVec 8) (a : BitVec 8) (b : BitVec 8) (s : State) : exec (.coll d a b) s = execColl d a b s := rfl
@[simp] theorem exec_cringCfg (a : BitVec 8) (n : BitVec 3) (s : State) : exec (.cringCfg a n) s = execCringCfg a n s := rfl
@[simp] theorem exec_cringRel (a : BitVec 8) (n : BitVec 3) (s : State) : exec (.cringRel a n) s = execCringRel a n s := rfl
@[simp] theorem exec_cringClose (a : BitVec 8) (n : BitVec 3) (s : State) : exec (.cringClose a n) s = execCringClose a n s := rfl
@[simp] theorem exec_tcopy (d : BitVec 8) (a : BitVec 8) (b : BitVec 8) (s : State) : exec (.tcopy d a b) s = execTcopy d a b s := rfl
@[simp] theorem exec_xroute (d : BitVec 8) (a : BitVec 8) (b : BitVec 8) (s : State) : exec (.xroute d a b) s = execXroute d a b s := rfl
@[simp] theorem exec_xtable (a : BitVec 8) (s : State) : exec (.xtable a) s = execXtable a s := rfl
@[simp] theorem exec_task (n : BitVec 8) (r : BitVec 8) (s : State) : exec (.task n r) s = execTask n r s := rfl
@[simp] theorem exec_trap (d : BitVec 8) (imm : BitVec 16) (s : State) : exec (.trap d imm) s = execTrap d imm s := rfl
@[simp] theorem exec_tret (s : State) : exec .tret s = execTret s := rfl
@[simp] theorem exec_tmask (s : State) : exec .tmask s = execTmask s := rfl
@[simp] theorem exec_tunmask (s : State) : exec .tunmask s = execTunmask s := rfl
@[simp] theorem exec_lkill (s : State) : exec .lkill s = execLkill s := rfl
@[simp] theorem exec_mbrecv (d : BitVec 8) (a : BitVec 8) (s : State) : exec (.mbrecv d a) s = execMbrecv d a s := rfl
@[simp] theorem exec_mbsend (d : BitVec 8) (a : BitVec 8) (b : BitVec 8) (s : State) : exec (.mbsend d a b) s = execMbsend d a b s := rfl
@[simp] theorem exec_mbpeek (d : BitVec 8) (a : BitVec 8) (f : BitVec 8) (s : State) : exec (.mbpeek d a f) s = execMbpeek d a f s := rfl
@[simp] theorem exec_launch (d : BitVec 8) (a : BitVec 8) (s : State) : exec (.launch d a) s = execLaunch d a s := rfl
@[simp] theorem exec_kquery (d : BitVec 8) (a : BitVec 8) (f : BitVec 8) (s : State) : exec (.kquery d a f) s = execKquery d a f s := rfl
@[simp] theorem exec_kcancel (a : BitVec 8) (s : State) : exec (.kcancel a) s = execKcancel a s := rfl
@[simp] theorem exec_kpreemptSave (a : BitVec 8) (s : State) : exec (.kpreemptSave a) s = execKpreemptSave a s := rfl
@[simp] theorem exec_kpreemptDiscard (a : BitVec 8) (s : State) : exec (.kpreemptDiscard a) s = execKpreemptDiscard a s := rfl
@[simp] theorem exec_aopen (d : BitVec 8) (a : BitVec 8) (s : State) : exec (.aopen d a) s = execAopen d a s := rfl
@[simp] theorem exec_astep (d : BitVec 8) (a : BitVec 8) (b : BitVec 8) (s : State) : exec (.astep d a b) s = execAstep d a b s := rfl
@[simp] theorem exec_aclose (a : BitVec 8) (s : State) : exec (.aclose a) s = execAclose a s := rfl
@[simp] theorem exec_aabandon (a : BitVec 8) (s : State) : exec (.aabandon a) s = execAabandon a s := rfl
@[simp] theorem exec_aquery (d : BitVec 8) (a : BitVec 8) (f : BitVec 8) (s : State) : exec (.aquery d a f) s = execAquery d a f s := rfl
@[simp] theorem exec_aresolve (a : BitVec 8) (b : BitVec 8) (s : State) : exec (.aresolve a b) s = execAresolve a b s := rfl
@[simp] theorem exec_acret (a : BitVec 8) (s : State) : exec (.acret a) s = execAcret a s := rfl
@[simp] theorem exec_pvsub (d : BitVec 8) (a : BitVec 8) (b : BitVec 8) (s : State) : exec (.pvsub d a b) s = execPvsub d a b s := rfl
@[simp] theorem exec_pvfill (d : BitVec 8) (a : BitVec 8) (s : State) : exec (.pvfill d a) s = execPvfill d a s := rfl
@[simp] theorem exec_pvstat (d : BitVec 8) (a : BitVec 8) (f : BitVec 8) (s : State) : exec (.pvstat d a f) s = execPvstat d a f s := rfl
@[simp] theorem exec_pvNop (s : State) : exec .pvNop s = execPvNop s := rfl
@[simp] theorem exec_pvVec (o : BitVec 14) (n : BitVec 14) (s : State) : exec (.pvVec o n) s = execPvVec o n s := rfl
@[simp] theorem exec_pvRows (f : BitVec 15) (n : BitVec 10) (s : State) : exec (.pvRows f n) s = execPvRows f n s := rfl
@[simp] theorem exec_pvMac (c : BitVec 14) (l : BitVec 14) (s : State) : exec (.pvMac c l) s = execPvMac c l s := rfl
@[simp] theorem exec_pvScale (sc : BitVec 16) (s : State) : exec (.pvScale sc) s = execPvScale sc s := rfl
@[simp] theorem exec_pvOut (s : State) : exec .pvOut s = execPvOut s := rfl
@[simp] theorem exec_pvSync (s : State) : exec .pvSync s = execPvSync s := rfl
@[simp] theorem exec_pvEnd (s : State) : exec .pvEnd s = execPvEnd s := rfl
@[simp] theorem exec_bzreq (d : BitVec 8) (a : BitVec 8) (s : State) : exec (.bzreq d a) s = execBzreq d a s := rfl
@[simp] theorem exec_keygenGenerate (d : BitVec 8) (a : BitVec 8) (s : State) : exec (.keygenGenerate d a) s = execKeygenGenerate d a s := rfl
@[simp] theorem exec_keygenDestroy (d : BitVec 8) (a : BitVec 8) (s : State) : exec (.keygenDestroy d a) s = execKeygenDestroy d a s := rfl
@[simp] theorem exec_keyseal (d : BitVec 8) (a : BitVec 8) (b : BitVec 8) (s : State) : exec (.keyseal d a b) s = execKeyseal d a b s := rfl
@[simp] theorem exec_attest (d : BitVec 8) (a : BitVec 8) (b : BitVec 8) (s : State) : exec (.attest d a b) s = execAttest d a b s := rfl
@[simp] theorem exec_locketw (d : BitVec 8) (a : BitVec 8) (c : BitVec 8) (s : State) : exec (.locketw d a c) s = execLocketw d a c s := rfl
@[simp] theorem exec_caprd (d : BitVec 8) (a : BitVec 8) (f : BitVec 8) (s : State) : exec (.caprd d a f) s = execCaprd d a f s := rfl
@[simp] theorem exec_tlbinv (a : BitVec 8) (f : BitVec 8) (s : State) : exec (.tlbinv a f) s = execTlbinv a f s := rfl
@[simp] theorem exec_fltret (a : BitVec 8) (s : State) : exec (.fltret a) s = execFltret a s := rfl
@[simp] theorem exec_clauseFetch (s : State) : exec .clauseFetch s = execClauseFetch s := rfl
@[simp] theorem exec_clauseStart (s : State) : exec .clauseStart s = execClauseStart s := rfl
@[simp] theorem exec_operationCompletion (s : State) : exec .operationCompletion s = execOperationCompletion s := rfl
@[simp] theorem exec_groupSwap (s : State) : exec .groupSwap s = execGroupSwap s := rfl
@[simp] theorem exec_groupExitDrain (s : State) : exec .groupExitDrain s = execGroupExitDrain s := rfl
@[simp] theorem exec_shareGrant (s : State) : exec .shareGrant s = execShareGrant s := rfl
@[simp] theorem exec_pageWalkComplete (s : State) : exec .pageWalkComplete s = execPageWalkComplete s := rfl
@[simp] theorem exec_faultRecordDelivery (s : State) : exec .faultRecordDelivery s = execFaultRecordDelivery s := rfl
@[simp] theorem exec_stashRecall (s : State) : exec .stashRecall s = execStashRecall s := rfl
@[simp] theorem exec_blockedAccessResume (s : State) : exec .blockedAccessResume s = execBlockedAccessResume s := rfl
@[simp] theorem exec_copyEngineComplete (s : State) : exec .copyEngineComplete s = execCopyEngineComplete s := rfl
@[simp] theorem exec_leaseExpiry (s : State) : exec .leaseExpiry s = execLeaseExpiry s := rfl
@[simp] theorem exec_postedStoreArrival (s : State) : exec .postedStoreArrival s = execPostedStoreArrival s := rfl
@[simp] theorem exec_bwaitSatisfied (s : State) : exec .bwaitSatisfied s = execBwaitSatisfied s := rfl
@[simp] theorem exec_ticketDrawResume (s : State) : exec .ticketDrawResume s = execTicketDrawResume s := rfl
@[simp] theorem exec_matrixOpComplete (s : State) : exec .matrixOpComplete s = execMatrixOpComplete s := rfl
@[simp] theorem exec_transferStart (s : State) : exec .transferStart s = execTransferStart s := rfl
@[simp] theorem exec_chunkArrival (s : State) : exec .chunkArrival s = execChunkArrival s := rfl
@[simp] theorem exec_trailerArrival (s : State) : exec .trailerArrival s = execTrailerArrival s := rfl
@[simp] theorem exec_nackArrival (s : State) : exec .nackArrival s = execNackArrival s := rfl
@[simp] theorem exec_ackArrival (s : State) : exec .ackArrival s = execAckArrival s := rfl
@[simp] theorem exec_absentRetryTimer (s : State) : exec .absentRetryTimer s = execAbsentRetryTimer s := rfl
@[simp] theorem exec_reseedArrival (s : State) : exec .reseedArrival s = execReseedArrival s := rfl
@[simp] theorem exec_flowCloseComplete (s : State) : exec .flowCloseComplete s = execFlowCloseComplete s := rfl
@[simp] theorem exec_tcopyCreditGrant (s : State) : exec .tcopyCreditGrant s = execTcopyCreditGrant s := rfl
@[simp] theorem exec_ringLineReport (s : State) : exec .ringLineReport s = execRingLineReport s := rfl
@[simp] theorem exec_descriptorReceive (s : State) : exec .descriptorReceive s = execDescriptorReceive s := rfl
@[simp] theorem exec_contribEntryHead (s : State) : exec .contribEntryHead s = execContribEntryHead s := rfl
@[simp] theorem exec_collectiveComplete (s : State) : exec .collectiveComplete s = execCollectiveComplete s := rfl
@[simp] theorem exec_capacityClaim (s : State) : exec .capacityClaim s = execCapacityClaim s := rfl
@[simp] theorem exec_claimReply (s : State) : exec .claimReply s = execClaimReply s := rfl
@[simp] theorem exec_taskCommit (s : State) : exec .taskCommit s = execTaskCommit s := rfl
@[simp] theorem exec_trapDelivery (s : State) : exec .trapDelivery s = execTrapDelivery s := rfl
@[simp] theorem exec_deferredTrapTake (s : State) : exec .deferredTrapTake s = execDeferredTrapTake s := rfl
@[simp] theorem exec_stopComplete (s : State) : exec .stopComplete s = execStopComplete s := rfl
@[simp] theorem exec_maskedHoldTimeout (s : State) : exec .maskedHoldTimeout s = execMaskedHoldTimeout s := rfl
@[simp] theorem exec_contextRestore (s : State) : exec .contextRestore s = execContextRestore s := rfl
@[simp] theorem exec_sealArrival (s : State) : exec .sealArrival s = execSealArrival s := rfl
@[simp] theorem exec_mailboxFieldStore (s : State) : exec .mailboxFieldStore s = execMailboxFieldStore s := rfl
@[simp] theorem exec_hostMailboxWrite (s : State) : exec .hostMailboxWrite s = execHostMailboxWrite s := rfl
@[simp] theorem exec_outboundPhaseAdvance (s : State) : exec .outboundPhaseAdvance s = execOutboundPhaseAdvance s := rfl
@[simp] theorem exec_teamDispatch (s : State) : exec .teamDispatch s = execTeamDispatch s := rfl
@[simp] theorem exec_retirementComplete (s : State) : exec .retirementComplete s = execRetirementComplete s := rfl
@[simp] theorem exec_compensatorLaunch (s : State) : exec .compensatorLaunch s = execCompensatorLaunch s := rfl
@[simp] theorem exec_compensatorRetire (s : State) : exec .compensatorRetire s = execCompensatorRetire s := rfl
@[simp] theorem exec_paveCommandStart (s : State) : exec .paveCommandStart s = execPaveCommandStart s := rfl
@[simp] theorem exec_paveCommandComplete (s : State) : exec .paveCommandComplete s = execPaveCommandComplete s := rfl
@[simp] theorem exec_paveFillComplete (s : State) : exec .paveFillComplete s = execPaveFillComplete s := rfl
@[simp] theorem exec_rehashSweepComplete (s : State) : exec .rehashSweepComplete s = execRehashSweepComplete s := rfl
@[simp] theorem exec_unitScrubComplete (s : State) : exec .unitScrubComplete s = execUnitScrubComplete s := rfl
@[simp] theorem exec_keyDrawComplete (s : State) : exec .keyDrawComplete s = execKeyDrawComplete s := rfl
@[simp] theorem exec_generatorRetest (s : State) : exec .generatorRetest s = execGeneratorRetest s := rfl
@[simp] theorem exec_hostMemWrite (s : State) : exec .hostMemWrite s = execHostMemWrite s := rfl
@[simp] theorem exec_hostMemRead (s : State) : exec .hostMemRead s = execHostMemRead s := rfl
@[simp] theorem exec_auditRecordDelivery (s : State) : exec .auditRecordDelivery s = execAuditRecordDelivery s := rfl
@[simp] theorem exec_mcmdLock (s : State) : exec .mcmdLock s = execMcmdLock s := rfl
@[simp] theorem exec_mcmdRun (s : State) : exec .mcmdRun s = execMcmdRun s := rfl
@[simp] theorem exec_mcmdDrawOpenKey (s : State) : exec .mcmdDrawOpenKey s = execMcmdDrawOpenKey s := rfl
@[simp] theorem exec_bar0Write (s : State) : exec .bar0Write s = execBar0Write s := rfl
@[simp] theorem exec_throttleStep (s : State) : exec .throttleStep s = execThrottleStep s := rfl
@[simp] theorem exec_coldReset (s : State) : exec .coldReset s = execColdReset s := rfl
@[simp] theorem exec_warmReset (s : State) : exec .warmReset s = execWarmReset s := rfl
@[simp] theorem exec_bar0Read (s : State) : exec .bar0Read s = execBar0Read s := rfl

end Sys2Proof.Machine
end

