-- ==== Sys2Proof/Laws/PerInstr.lean ====
section
/-! SUPPORT. Statements about each instruction as syntax. `Shape`: the four leading bits of an instruction's word name its
group of opcodes (R55, R61 and R345), the digit by which `decode` and `decodePave` first choose. -/

namespace Sys2Proof.Laws.Shape

/-- The four leading bits of the words of an instruction, by the opcode tables; 0 for a step without a word. -/
def major : Instr → BitVec 4
  | .bra _ | .brz _ _ | .brnz _ _ | .call _ _ | .ret _ | .brx _ _ _ | .split _ | .join | .dpush | .dpop | .exit
    | .yield | .mode _ | .nop | .pvNop => 0
  | .ballot _ _ _ | .vall _ _ | .vany _ _ | .shfl _ _ _ | .shflx _ _ _ | .shflu _ _ _ | .shfld _ _ _ | .rdlane _ _ _
    | .wrlane _ _ _ | .lsum _ _ | .lmax _ _ | .lmin _ _ | .scan _ _ _ | .mcount _ _ _ | .pvVec _ _ => 1
  | .sadd _ _ _ | .ssub _ _ _ | .smul _ _ _ | .smulh _ _ _ | .smulhu _ _ _ | .sdivu _ _ _ | .sremu _ _ _
    | .sand _ _ _ | .sor _ _ _ | .sxor _ _ _ | .sandn _ _ _ | .sshl _ _ _ | .sshr _ _ _ | .ssar _ _ _ | .smin _ _ _
    | .smax _ _ _ | .pvRows _ _ => 2
  | .sminu _ _ _ | .smaxu _ _ _ | .seq _ _ _ | .slt _ _ _ | .sltu _ _ _ | .ssel _ _ _ | .sbfe _ _ _ | .sbfi _ _ _
    | .spopc _ _ | .sclz _ _ | .sctz _ _ | .smov _ _ | .smovi _ _ | .smovh _ _ | .pvMac _ _ => 3
  | .add _ _ _ | .sub _ _ _ | .mul _ _ _ | .fma _ _ _ | .fms _ _ _ | .fnma _ _ _ | .min _ _ _ | .max _ _ _ | .abs _ _
    | .neg _ _ | .mov _ _ | .and _ _ _ | .or _ _ _ | .xor _ _ _ | .not _ _ | .shl _ _ _ | .pvScale _ => 4
  | .shr _ _ _ | .sar _ _ _ | .mulhi _ _ _ | .clamp _ _ _ | .sel _ _ _ | .cmpeq _ _ _ | .cmpne _ _ _ | .cmplt _ _ _
    | .cmple _ _ _ | .cmpun _ _ _ | .floor _ _ | .ceil _ _ | .rnde _ _ | .trunc _ _ | .fract _ _ | .copysign _ _ _
    | .pvOut => 5
  | .popc _ _ | .clz _ _ | .bfe _ _ _ | .bfi _ _ _ | .dot2 _ _ _ | .swaph _ _ _ | .perm _ _ _ | .lanes _ _ _
    | .ldexp _ _ _ | .pvSync => 6
  | .cvt _ _ _ _ | .cvtf _ _ _ _ _ | .pack _ _ _ | .unpkl _ _ | .unpkh _ _ | .rcp _ _ | .rsq _ _ | .sqrt _ _
    | .exp2 _ _ | .log2 _ _ | .sinpi _ _ | .cospi _ _ | .rred _ _ | .tanh _ _ | .div _ _ _ | .pvEnd => 7
  | .rgrow _ _ | .rshrink _ | .trgrow _ _ | .trshrink _ | .vshape _ _ _ | .sread _ _ | .swrite _ _ | .slit _ _ => 8
  | .ld _ _ _ | .ld16 _ _ _ | .ld8 _ _ _ | .st _ _ _ | .st16 _ _ _ | .st8 _ _ _ | .lds _ _ _ | .sts _ _ _
    | .ldb _ _ _ | .stb _ _ _ | .smap _ _ _ | .sunmap _ | .sflush _ | .fence _ _ _ | .cpy _ _ _ | .pref _ _ => 9
  | .binit _ _ _ | .barr _ _ | .barx _ _ | .bwait _ _ | .atadd _ _ _ | .atmin _ _ _ | .atmax _ _ _ | .atand _ _ _
    | .ator _ _ _ | .atxor _ _ _ | .atxch _ _ _ | .atcas _ _ _ | .tlincSignal _ _ | .tlincReserve _ _
    | .tlincComplete _ _ | .tlrd _ _ _ => 10
  | .tzero _ | .mma _ _ _ | .tld _ _ | .tst _ _ | .tcvt _ _ _ _ | .tcolr _ _ _ | .tcolw _ _ _ | .mfence | .rprd _ _
    | .stest _ | .tscale _ _ _ => 11
  | .fopen _ _ | .fsend _ _ _ | .fmcast _ _ _ | .freseed _ | .fclose _ | .fstat _ _ _ | .coll _ _ _ | .cringCfg _ _
    | .cringRel _ _ | .cringClose _ _ | .tcopy _ _ _ | .xroute _ _ _ | .xtable _ => 12
  | .task _ _ | .trap _ _ | .tret | .tmask | .tunmask | .lkill | .mbrecv _ _ | .mbsend _ _ _ | .mbpeek _ _ _
    | .launch _ _ | .kquery _ _ _ | .kcancel _ | .kpreemptSave _ | .kpreemptDiscard _ => 13
  | .aopen _ _ | .astep _ _ _ | .aclose _ | .aabandon _ | .aquery _ _ _ | .aresolve _ _ | .acret _ | .pvsub _ _ _
    | .pvfill _ _ | .pvstat _ _ _ => 14
  | .bzreq _ _ | .keygenGenerate _ _ | .keygenDestroy _ _ | .keyseal _ _ _ | .attest _ _ _ | .locketw _ _ _
    | .caprd _ _ _ | .tlbinv _ _ | .fltret _ => 15
  | .clauseFetch | .clauseStart | .operationCompletion | .groupSwap | .groupExitDrain | .shareGrant
    | .pageWalkComplete | .faultRecordDelivery | .stashRecall | .blockedAccessResume | .copyEngineComplete
    | .leaseExpiry | .postedStoreArrival | .bwaitSatisfied | .ticketDrawResume | .matrixOpComplete | .transferStart
    | .chunkArrival | .trailerArrival | .nackArrival | .ackArrival | .absentRetryTimer | .reseedArrival
    | .flowCloseComplete | .tcopyCreditGrant | .ringLineReport | .descriptorReceive | .contribEntryHead
    | .collectiveComplete | .capacityClaim | .claimReply | .taskCommit | .trapDelivery | .deferredTrapTake
    | .stopComplete | .maskedHoldTimeout | .contextRestore | .sealArrival | .mailboxFieldStore | .hostMailboxWrite
    | .outboundPhaseAdvance | .teamDispatch | .retirementComplete | .compensatorLaunch | .compensatorRetire
    | .paveCommandStart | .paveCommandComplete | .paveFillComplete | .rehashSweepComplete | .unitScrubComplete
    | .keyDrawComplete | .generatorRetest | .hostMemWrite | .hostMemRead | .auditRecordDelivery | .mcmdLock
    | .mcmdRun | .mcmdDrawOpenKey | .bar0Write | .throttleStep | .coldReset | .warmReset | .bar0Read => 0

/-- Every word of the instruction begins with its group's digit. -/
def Statement (i : Instr) : Prop := ∀ w : W32, encode i = some w → w.extractLsb' 28 4 = major i

theorem of_8_24 {i : Instr} (x0 : BitVec 8) (x1 : BitVec 24) (e : encode i = some (x0 ++ x1))
    (h : x0.extractLsb' 4 4 = major i) : Statement i := by
  intro w hw
  obtain rfl := Option.some.inj (e.symm.trans hw)
  rw [← h]
  rw [BitVec.extractLsb'_append_eq_of_le (by decide)]

theorem of_8_8_16 {i : Instr} (x0 : BitVec 8) (x1 : BitVec 8) (x2 : BitVec 16) (e : encode i = some (x0 ++ x1 ++ x2))
    (h : x0.extractLsb' 4 4 = major i) : Statement i := by
  intro w hw
  obtain rfl := Option.some.inj (e.symm.trans hw)
  rw [← h]
  rw [BitVec.extractLsb'_append_eq_of_le (by decide), BitVec.extractLsb'_append_eq_of_le (by decide)]

theorem of_16_8_8 {i : Instr} (x0 : BitVec 16) (x1 : BitVec 8) (x2 : BitVec 8) (e : encode i = some (x0 ++ x1 ++ x2))
    (h : x0.extractLsb' 12 4 = major i) : Statement i := by
  intro w hw
  obtain rfl := Option.some.inj (e.symm.trans hw)
  rw [← h]
  rw [BitVec.extractLsb'_append_eq_of_le (by decide), BitVec.extractLsb'_append_eq_of_le (by decide)]

theorem of_8_8_8_8 {i : Instr} (x0 : BitVec 8) (x1 : BitVec 8) (x2 : BitVec 8) (x3 : BitVec 8) (e : encode i = some (x0 ++ x1 ++ x2 ++ x3))
    (h : x0.extractLsb' 4 4 = major i) : Statement i := by
  intro w hw
  obtain rfl := Option.some.inj (e.symm.trans hw)
  rw [← h]
  rw [BitVec.extractLsb'_append_eq_of_le (by decide), BitVec.extractLsb'_append_eq_of_le (by decide), BitVec.extractLsb'_append_eq_of_le (by decide)]

theorem of_16_16 {i : Instr} (x0 : BitVec 16) (x1 : BitVec 16) (e : encode i = some (x0 ++ x1))
    (h : x0.extractLsb' 12 4 = major i) : Statement i := by
  intro w hw
  obtain rfl := Option.some.inj (e.symm.trans hw)
  rw [← h]
  rw [BitVec.extractLsb'_append_eq_of_le (by decide)]

theorem of_32 {i : Instr} (x0 : BitVec 32) (e : encode i = some (x0))
    (h : x0.extractLsb' 28 4 = major i) : Statement i := by
  intro w hw
  obtain rfl := Option.some.inj (e.symm.trans hw)
  rw [← h]

theorem of_8_8_8_4_4 {i : Instr} (x0 : BitVec 8) (x1 : BitVec 8) (x2 : BitVec 8) (x3 : BitVec 4) (x4 : BitVec 4) (e : encode i = some (x0 ++ x1 ++ x2 ++ x3 ++ x4))
    (h : x0.extractLsb' 4 4 = major i) : Statement i := by
  intro w hw
  obtain rfl := Option.some.inj (e.symm.trans hw)
  rw [← h]
  rw [BitVec.extractLsb'_append_eq_of_le (by decide), BitVec.extractLsb'_append_eq_of_le (by decide), BitVec.extractLsb'_append_eq_of_le (by decide), BitVec.extractLsb'_append_eq_of_le (by decide)]

theorem of_8_8_8_1_4_3 {i : Instr} (x0 : BitVec 8) (x1 : BitVec 8) (x2 : BitVec 8) (x3 : BitVec 1) (x4 : BitVec 4) (x5 : BitVec 3) (e : encode i = some (x0 ++ x1 ++ x2 ++ x3 ++ x4 ++ x5))
    (h : x0.extractLsb' 4 4 = major i) : Statement i := by
  intro w hw
  obtain rfl := Option.some.inj (e.symm.trans hw)
  rw [← h]
  rw [BitVec.extractLsb'_append_eq_of_le (by decide), BitVec.extractLsb'_append_eq_of_le (by decide), BitVec.extractLsb'_append_eq_of_le (by decide), BitVec.extractLsb'_append_eq_of_le (by decide), BitVec.extractLsb'_append_eq_of_le (by decide)]

theorem of_26_1_2_3 {i : Instr} (x0 : BitVec 26) (x1 : BitVec 1) (x2 : BitVec 2) (x3 : BitVec 3) (e : encode i = some (x0 ++ x1 ++ x2 ++ x3))
    (h : x0.extractLsb' 22 4 = major i) : Statement i := by
  intro w hw
  obtain rfl := Option.some.inj (e.symm.trans hw)
  rw [← h]
  rw [BitVec.extractLsb'_append_eq_of_le (by decide), BitVec.extractLsb'_append_eq_of_le (by decide), BitVec.extractLsb'_append_eq_of_le (by decide)]

theorem of_12_4_16 {i : Instr} (x0 : BitVec 12) (x1 : BitVec 4) (x2 : BitVec 16) (e : encode i = some (x0 ++ x1 ++ x2))
    (h : x0.extractLsb' 8 4 = major i) : Statement i := by
  intro w hw
  obtain rfl := Option.some.inj (e.symm.trans hw)
  rw [← h]
  rw [BitVec.extractLsb'_append_eq_of_le (by decide), BitVec.extractLsb'_append_eq_of_le (by decide)]

theorem of_12_4_8_8 {i : Instr} (x0 : BitVec 12) (x1 : BitVec 4) (x2 : BitVec 8) (x3 : BitVec 8) (e : encode i = some (x0 ++ x1 ++ x2 ++ x3))
    (h : x0.extractLsb' 8 4 = major i) : Statement i := by
  intro w hw
  obtain rfl := Option.some.inj (e.symm.trans hw)
  rw [← h]
  rw [BitVec.extractLsb'_append_eq_of_le (by decide), BitVec.extractLsb'_append_eq_of_le (by decide), BitVec.extractLsb'_append_eq_of_le (by decide)]

theorem of_12_4_4_4_4_4 {i : Instr} (x0 : BitVec 12) (x1 : BitVec 4) (x2 : BitVec 4) (x3 : BitVec 4) (x4 : BitVec 4) (x5 : BitVec 4) (e : encode i = some (x0 ++ x1 ++ x2 ++ x3 ++ x4 ++ x5))
    (h : x0.extractLsb' 8 4 = major i) : Statement i := by
  intro w hw
  obtain rfl := Option.some.inj (e.symm.trans hw)
  rw [← h]
  rw [BitVec.extractLsb'_append_eq_of_le (by decide), BitVec.extractLsb'_append_eq_of_le (by decide), BitVec.extractLsb'_append_eq_of_le (by decide), BitVec.extractLsb'_append_eq_of_le (by decide), BitVec.extractLsb'_append_eq_of_le (by decide)]

theorem of_8_8_4_4_8 {i : Instr} (x0 : BitVec 8) (x1 : BitVec 8) (x2 : BitVec 4) (x3 : BitVec 4) (x4 : BitVec 8) (e : encode i = some (x0 ++ x1 ++ x2 ++ x3 ++ x4))
    (h : x0.extractLsb' 4 4 = major i) : Statement i := by
  intro w hw
  obtain rfl := Option.some.inj (e.symm.trans hw)
  rw [← h]
  rw [BitVec.extractLsb'_append_eq_of_le (by decide), BitVec.extractLsb'_append_eq_of_le (by decide), BitVec.extractLsb'_append_eq_of_le (by decide), BitVec.extractLsb'_append_eq_of_le (by decide)]

theorem of_16_8_5_3 {i : Instr} (x0 : BitVec 16) (x1 : BitVec 8) (x2 : BitVec 5) (x3 : BitVec 3) (e : encode i = some (x0 ++ x1 ++ x2 ++ x3))
    (h : x0.extractLsb' 12 4 = major i) : Statement i := by
  intro w hw
  obtain rfl := Option.some.inj (e.symm.trans hw)
  rw [← h]
  rw [BitVec.extractLsb'_append_eq_of_le (by decide), BitVec.extractLsb'_append_eq_of_le (by decide), BitVec.extractLsb'_append_eq_of_le (by decide)]

theorem of_4_14_14 {i : Instr} (x0 : BitVec 4) (x1 : BitVec 14) (x2 : BitVec 14) (e : encode i = some (x0 ++ x1 ++ x2))
    (h : x0.extractLsb' 0 4 = major i) : Statement i := by
  intro w hw
  obtain rfl := Option.some.inj (e.symm.trans hw)
  rw [← h]
  rw [BitVec.extractLsb'_append_eq_of_le (by decide), BitVec.extractLsb'_append_eq_of_le (by decide)]

theorem of_4_15_10_3 {i : Instr} (x0 : BitVec 4) (x1 : BitVec 15) (x2 : BitVec 10) (x3 : BitVec 3) (e : encode i = some (x0 ++ x1 ++ x2 ++ x3))
    (h : x0.extractLsb' 0 4 = major i) : Statement i := by
  intro w hw
  obtain rfl := Option.some.inj (e.symm.trans hw)
  rw [← h]
  rw [BitVec.extractLsb'_append_eq_of_le (by decide), BitVec.extractLsb'_append_eq_of_le (by decide), BitVec.extractLsb'_append_eq_of_le (by decide)]

theorem bra (o : BitVec 24) : Statement (.bra o) := of_8_24 _ _ rfl rfl
theorem brz (d : BitVec 8) (i : BitVec 16) : Statement (.brz d i) := of_8_8_16 _ _ _ rfl rfl
theorem brnz (d : BitVec 8) (i : BitVec 16) : Statement (.brnz d i) := of_8_8_16 _ _ _ rfl rfl
theorem call (d : BitVec 8) (i : BitVec 16) : Statement (.call d i) := of_8_8_16 _ _ _ rfl rfl
theorem ret (a : BitVec 8) : Statement (.ret a) := of_16_8_8 _ _ _ rfl rfl
theorem brx (d : BitVec 8) (a : BitVec 8) (n : BitVec 8) : Statement (.brx d a n) := of_8_8_8_8 _ _ _ _ rfl rfl
theorem split (i : BitVec 16) : Statement (.split i) := of_16_16 _ _ rfl rfl
theorem join : Statement .join := of_32 _ rfl rfl
theorem dpush : Statement .dpush := of_32 _ rfl rfl
theorem dpop : Statement .dpop := of_32 _ rfl rfl
theorem exit : Statement .exit := of_32 _ rfl rfl
theorem yield : Statement .yield := of_32 _ rfl rfl
theorem mode (i : BitVec 16) : Statement (.mode i) := of_16_16 _ _ rfl rfl
theorem nop : Statement .nop := of_32 _ rfl rfl
theorem ballot (d : BitVec 8) (a : BitVec 8) (f : BitVec 8) : Statement (.ballot d a f) := of_8_8_8_8 _ _ _ _ rfl rfl
theorem vall (d : BitVec 8) (a : BitVec 8) : Statement (.vall d a) := of_8_8_8_8 _ _ _ _ rfl rfl
theorem vany (d : BitVec 8) (a : BitVec 8) : Statement (.vany d a) := of_8_8_8_8 _ _ _ _ rfl rfl
theorem shfl (d : BitVec 8) (a : BitVec 8) (b : BitVec 8) : Statement (.shfl d a b) := of_8_8_8_8 _ _ _ _ rfl rfl
theorem shflx (d : BitVec 8) (a : BitVec 8) (n : BitVec 8) : Statement (.shflx d a n) := of_8_8_8_8 _ _ _ _ rfl rfl
theorem shflu (d : BitVec 8) (a : BitVec 8) (n : BitVec 8) : Statement (.shflu d a n) := of_8_8_8_8 _ _ _ _ rfl rfl
theorem shfld (d : BitVec 8) (a : BitVec 8) (n : BitVec 8) : Statement (.shfld d a n) := of_8_8_8_8 _ _ _ _ rfl rfl
theorem rdlane (d : BitVec 8) (a : BitVec 8) (n : BitVec 8) : Statement (.rdlane d a n) := of_8_8_8_8 _ _ _ _ rfl rfl
theorem wrlane (d : BitVec 8) (a : BitVec 8) (n : BitVec 8) : Statement (.wrlane d a n) := of_8_8_8_8 _ _ _ _ rfl rfl
theorem lsum (d : BitVec 8) (a : BitVec 8) : Statement (.lsum d a) := of_8_8_8_8 _ _ _ _ rfl rfl
theorem lmax (d : BitVec 8) (a : BitVec 8) : Statement (.lmax d a) := of_8_8_8_8 _ _ _ _ rfl rfl
theorem lmin (d : BitVec 8) (a : BitVec 8) : Statement (.lmin d a) := of_8_8_8_8 _ _ _ _ rfl rfl
theorem scan (d : BitVec 8) (a : BitVec 8) (f : BitVec 8) : Statement (.scan d a f) := of_8_8_8_8 _ _ _ _ rfl rfl
theorem mcount (d : BitVec 8) (a : BitVec 8) (f : BitVec 8) : Statement (.mcount d a f) := of_8_8_8_8 _ _ _ _ rfl rfl
theorem sadd (d : BitVec 8) (a : BitVec 8) (b : BitVec 8) : Statement (.sadd d a b) := of_8_8_8_8 _ _ _ _ rfl rfl
theorem ssub (d : BitVec 8) (a : BitVec 8) (b : BitVec 8) : Statement (.ssub d a b) := of_8_8_8_8 _ _ _ _ rfl rfl
theorem smul (d : BitVec 8) (a : BitVec 8) (b : BitVec 8) : Statement (.smul d a b) := of_8_8_8_8 _ _ _ _ rfl rfl
theorem smulh (d : BitVec 8) (a : BitVec 8) (b : BitVec 8) : Statement (.smulh d a b) := of_8_8_8_8 _ _ _ _ rfl rfl
theorem smulhu (d : BitVec 8) (a : BitVec 8) (b : BitVec 8) : Statement (.smulhu d a b) := of_8_8_8_8 _ _ _ _ rfl rfl
theorem sdivu (d : BitVec 8) (a : BitVec 8) (b : BitVec 8) : Statement (.sdivu d a b) := of_8_8_8_8 _ _ _ _ rfl rfl
theorem sremu (d : BitVec 8) (a : BitVec 8) (b : BitVec 8) : Statement (.sremu d a b) := of_8_8_8_8 _ _ _ _ rfl rfl
theorem sand (d : BitVec 8) (a : BitVec 8) (b : BitVec 8) : Statement (.sand d a b) := of_8_8_8_8 _ _ _ _ rfl rfl
theorem sor (d : BitVec 8) (a : BitVec 8) (b : BitVec 8) : Statement (.sor d a b) := of_8_8_8_8 _ _ _ _ rfl rfl
theorem sxor (d : BitVec 8) (a : BitVec 8) (b : BitVec 8) : Statement (.sxor d a b) := of_8_8_8_8 _ _ _ _ rfl rfl
theorem sandn (d : BitVec 8) (a : BitVec 8) (b : BitVec 8) : Statement (.sandn d a b) := of_8_8_8_8 _ _ _ _ rfl rfl
theorem sshl (d : BitVec 8) (a : BitVec 8) (b : BitVec 8) : Statement (.sshl d a b) := of_8_8_8_8 _ _ _ _ rfl rfl
theorem sshr (d : BitVec 8) (a : BitVec 8) (b : BitVec 8) : Statement (.sshr d a b) := of_8_8_8_8 _ _ _ _ rfl rfl
theorem ssar (d : BitVec 8) (a : BitVec 8) (b : BitVec 8) : Statement (.ssar d a b) := of_8_8_8_8 _ _ _ _ rfl rfl
theorem smin (d : BitVec 8) (a : BitVec 8) (b : BitVec 8) : Statement (.smin d a b) := of_8_8_8_8 _ _ _ _ rfl rfl
theorem smax (d : BitVec 8) (a : BitVec 8) (b : BitVec 8) : Statement (.smax d a b) := of_8_8_8_8 _ _ _ _ rfl rfl
theorem sminu (d : BitVec 8) (a : BitVec 8) (b : BitVec 8) : Statement (.sminu d a b) := of_8_8_8_8 _ _ _ _ rfl rfl
theorem smaxu (d : BitVec 8) (a : BitVec 8) (b : BitVec 8) : Statement (.smaxu d a b) := of_8_8_8_8 _ _ _ _ rfl rfl
theorem seq (d : BitVec 8) (a : BitVec 8) (b : BitVec 8) : Statement (.seq d a b) := of_8_8_8_8 _ _ _ _ rfl rfl
theorem slt (d : BitVec 8) (a : BitVec 8) (b : BitVec 8) : Statement (.slt d a b) := of_8_8_8_8 _ _ _ _ rfl rfl
theorem sltu (d : BitVec 8) (a : BitVec 8) (b : BitVec 8) : Statement (.sltu d a b) := of_8_8_8_8 _ _ _ _ rfl rfl
theorem ssel (d : BitVec 8) (a : BitVec 8) (b : BitVec 8) : Statement (.ssel d a b) := of_8_8_8_8 _ _ _ _ rfl rfl
theorem sbfe (d : BitVec 8) (a : BitVec 8) (b : BitVec 8) : Statement (.sbfe d a b) := of_8_8_8_8 _ _ _ _ rfl rfl
theorem sbfi (d : BitVec 8) (a : BitVec 8) (b : BitVec 8) : Statement (.sbfi d a b) := of_8_8_8_8 _ _ _ _ rfl rfl
theorem spopc (d : BitVec 8) (a : BitVec 8) : Statement (.spopc d a) := of_8_8_8_8 _ _ _ _ rfl rfl
theorem sclz (d : BitVec 8) (a : BitVec 8) : Statement (.sclz d a) := of_8_8_8_8 _ _ _ _ rfl rfl
theorem sctz (d : BitVec 8) (a : BitVec 8) : Statement (.sctz d a) := of_8_8_8_8 _ _ _ _ rfl rfl
theorem smov (d : BitVec 8) (a : BitVec 8) : Statement (.smov d a) := of_8_8_8_8 _ _ _ _ rfl rfl
theorem smovi (d : BitVec 8) (i : BitVec 16) : Statement (.smovi d i) := of_8_8_16 _ _ _ rfl rfl
theorem smovh (d : BitVec 8) (i : BitVec 16) : Statement (.smovh d i) := of_8_8_16 _ _ _ rfl rfl
theorem add (d : BitVec 8) (a : BitVec 8) (b : BitVec 8) : Statement (.add d a b) := of_8_8_8_8 _ _ _ _ rfl rfl
theorem sub (d : BitVec 8) (a : BitVec 8) (b : BitVec 8) : Statement (.sub d a b) := of_8_8_8_8 _ _ _ _ rfl rfl
theorem mul (d : BitVec 8) (a : BitVec 8) (b : BitVec 8) : Statement (.mul d a b) := of_8_8_8_8 _ _ _ _ rfl rfl
theorem fma (d : BitVec 8) (a : BitVec 8) (b : BitVec 8) : Statement (.fma d a b) := of_8_8_8_8 _ _ _ _ rfl rfl
theorem fms (d : BitVec 8) (a : BitVec 8) (b : BitVec 8) : Statement (.fms d a b) := of_8_8_8_8 _ _ _ _ rfl rfl
theorem fnma (d : BitVec 8) (a : BitVec 8) (b : BitVec 8) : Statement (.fnma d a b) := of_8_8_8_8 _ _ _ _ rfl rfl
theorem min (d : BitVec 8) (a : BitVec 8) (b : BitVec 8) : Statement (.min d a b) := of_8_8_8_8 _ _ _ _ rfl rfl
theorem max (d : BitVec 8) (a : BitVec 8) (b : BitVec 8) : Statement (.max d a b) := of_8_8_8_8 _ _ _ _ rfl rfl
theorem abs (d : BitVec 8) (a : BitVec 8) : Statement (.abs d a) := of_8_8_8_8 _ _ _ _ rfl rfl
theorem neg (d : BitVec 8) (a : BitVec 8) : Statement (.neg d a) := of_8_8_8_8 _ _ _ _ rfl rfl
theorem mov (d : BitVec 8) (a : BitVec 8) : Statement (.mov d a) := of_8_8_8_8 _ _ _ _ rfl rfl
theorem and (d : BitVec 8) (a : BitVec 8) (b : BitVec 8) : Statement (.and d a b) := of_8_8_8_8 _ _ _ _ rfl rfl
theorem or (d : BitVec 8) (a : BitVec 8) (b : BitVec 8) : Statement (.or d a b) := of_8_8_8_8 _ _ _ _ rfl rfl
theorem xor (d : BitVec 8) (a : BitVec 8) (b : BitVec 8) : Statement (.xor d a b) := of_8_8_8_8 _ _ _ _ rfl rfl
theorem not (d : BitVec 8) (a : BitVec 8) : Statement (.not d a) := of_8_8_8_8 _ _ _ _ rfl rfl
theorem shl (d : BitVec 8) (a : BitVec 8) (b : BitVec 8) : Statement (.shl d a b) := of_8_8_8_8 _ _ _ _ rfl rfl
theorem shr (d : BitVec 8) (a : BitVec 8) (b : BitVec 8) : Statement (.shr d a b) := of_8_8_8_8 _ _ _ _ rfl rfl
theorem sar (d : BitVec 8) (a : BitVec 8) (b : BitVec 8) : Statement (.sar d a b) := of_8_8_8_8 _ _ _ _ rfl rfl
theorem mulhi (d : BitVec 8) (a : BitVec 8) (b : BitVec 8) : Statement (.mulhi d a b) := of_8_8_8_8 _ _ _ _ rfl rfl
theorem clamp (d : BitVec 8) (a : BitVec 8) (b : BitVec 8) : Statement (.clamp d a b) := of_8_8_8_8 _ _ _ _ rfl rfl
theorem sel (d : BitVec 8) (a : BitVec 8) (b : BitVec 8) : Statement (.sel d a b) := of_8_8_8_8 _ _ _ _ rfl rfl
theorem cmpeq (d : BitVec 8) (a : BitVec 8) (b : BitVec 8) : Statement (.cmpeq d a b) := of_8_8_8_8 _ _ _ _ rfl rfl
theorem cmpne (d : BitVec 8) (a : BitVec 8) (b : BitVec 8) : Statement (.cmpne d a b) := of_8_8_8_8 _ _ _ _ rfl rfl
theorem cmplt (d : BitVec 8) (a : BitVec 8) (b : BitVec 8) : Statement (.cmplt d a b) := of_8_8_8_8 _ _ _ _ rfl rfl
theorem cmple (d : BitVec 8) (a : BitVec 8) (b : BitVec 8) : Statement (.cmple d a b) := of_8_8_8_8 _ _ _ _ rfl rfl
theorem cmpun (d : BitVec 8) (a : BitVec 8) (b : BitVec 8) : Statement (.cmpun d a b) := of_8_8_8_8 _ _ _ _ rfl rfl
theorem floor (d : BitVec 8) (a : BitVec 8) : Statement (.floor d a) := of_8_8_8_8 _ _ _ _ rfl rfl
theorem ceil (d : BitVec 8) (a : BitVec 8) : Statement (.ceil d a) := of_8_8_8_8 _ _ _ _ rfl rfl
theorem rnde (d : BitVec 8) (a : BitVec 8) : Statement (.rnde d a) := of_8_8_8_8 _ _ _ _ rfl rfl
theorem trunc (d : BitVec 8) (a : BitVec 8) : Statement (.trunc d a) := of_8_8_8_8 _ _ _ _ rfl rfl
theorem fract (d : BitVec 8) (a : BitVec 8) : Statement (.fract d a) := of_8_8_8_8 _ _ _ _ rfl rfl
theorem copysign (d : BitVec 8) (a : BitVec 8) (b : BitVec 8) : Statement (.copysign d a b) := of_8_8_8_8 _ _ _ _ rfl rfl
theorem popc (d : BitVec 8) (a : BitVec 8) : Statement (.popc d a) := of_8_8_8_8 _ _ _ _ rfl rfl
theorem clz (d : BitVec 8) (a : BitVec 8) : Statement (.clz d a) := of_8_8_8_8 _ _ _ _ rfl rfl
theorem bfe (d : BitVec 8) (a : BitVec 8) (b : BitVec 8) : Statement (.bfe d a b) := of_8_8_8_8 _ _ _ _ rfl rfl
theorem bfi (d : BitVec 8) (a : BitVec 8) (b : BitVec 8) : Statement (.bfi d a b) := of_8_8_8_8 _ _ _ _ rfl rfl
theorem dot2 (d : BitVec 8) (a : BitVec 8) (b : BitVec 8) : Statement (.dot2 d a b) := of_8_8_8_8 _ _ _ _ rfl rfl
theorem swaph (d : BitVec 8) (a : BitVec 8) (f : BitVec 8) : Statement (.swaph d a f) := of_8_8_8_8 _ _ _ _ rfl rfl
theorem perm (d : BitVec 8) (a : BitVec 8) (b : BitVec 8) : Statement (.perm d a b) := of_8_8_8_8 _ _ _ _ rfl rfl
theorem lanes (d : BitVec 8) (a : BitVec 8) (b : BitVec 8) : Statement (.lanes d a b) := of_8_8_8_8 _ _ _ _ rfl rfl
theorem ldexp (d : BitVec 8) (a : BitVec 8) (b : BitVec 8) : Statement (.ldexp d a b) := of_8_8_8_8 _ _ _ _ rfl rfl
theorem cvt (d : BitVec 8) (a : BitVec 8) (f : BitVec 4) (g : BitVec 4) : Statement (.cvt d a f g) := of_8_8_8_4_4 _ _ _ _ _ rfl rfl
theorem cvtf (d : BitVec 8) (a : BitVec 8) (e : BitVec 1) (j : BitVec 4) (s : BitVec 3) : Statement (.cvtf d a e j s) := of_8_8_8_1_4_3 _ _ _ _ _ _ rfl rfl
theorem pack (d : BitVec 8) (a : BitVec 8) (b : BitVec 8) : Statement (.pack d a b) := of_8_8_8_8 _ _ _ _ rfl rfl
theorem unpkl (d : BitVec 8) (a : BitVec 8) : Statement (.unpkl d a) := of_8_8_8_8 _ _ _ _ rfl rfl
theorem unpkh (d : BitVec 8) (a : BitVec 8) : Statement (.unpkh d a) := of_8_8_8_8 _ _ _ _ rfl rfl
theorem rcp (d : BitVec 8) (a : BitVec 8) : Statement (.rcp d a) := of_8_8_8_8 _ _ _ _ rfl rfl
theorem rsq (d : BitVec 8) (a : BitVec 8) : Statement (.rsq d a) := of_8_8_8_8 _ _ _ _ rfl rfl
theorem sqrt (d : BitVec 8) (a : BitVec 8) : Statement (.sqrt d a) := of_8_8_8_8 _ _ _ _ rfl rfl
theorem exp2 (d : BitVec 8) (a : BitVec 8) : Statement (.exp2 d a) := of_8_8_8_8 _ _ _ _ rfl rfl
theorem log2 (d : BitVec 8) (a : BitVec 8) : Statement (.log2 d a) := of_8_8_8_8 _ _ _ _ rfl rfl
theorem sinpi (d : BitVec 8) (a : BitVec 8) : Statement (.sinpi d a) := of_8_8_8_8 _ _ _ _ rfl rfl
theorem cospi (d : BitVec 8) (a : BitVec 8) : Statement (.cospi d a) := of_8_8_8_8 _ _ _ _ rfl rfl
theorem rred (d : BitVec 8) (a : BitVec 8) : Statement (.rred d a) := of_8_8_8_8 _ _ _ _ rfl rfl
theorem tanh (d : BitVec 8) (a : BitVec 8) : Statement (.tanh d a) := of_8_8_8_8 _ _ _ _ rfl rfl
theorem div (d : BitVec 8) (a : BitVec 8) (b : BitVec 8) : Statement (.div d a b) := of_8_8_8_8 _ _ _ _ rfl rfl
theorem rgrow (d : BitVec 8) (i : BitVec 16) : Statement (.rgrow d i) := of_8_8_16 _ _ _ rfl rfl
theorem rshrink (i : BitVec 16) : Statement (.rshrink i) := of_16_16 _ _ rfl rfl
theorem trgrow (d : BitVec 8) (i : BitVec 16) : Statement (.trgrow d i) := of_8_8_16 _ _ _ rfl rfl
theorem trshrink (i : BitVec 16) : Statement (.trshrink i) := of_16_16 _ _ rfl rfl
theorem vshape (d : BitVec 8) (a : BitVec 8) (f : BitVec 8) : Statement (.vshape d a f) := of_8_8_8_8 _ _ _ _ rfl rfl
theorem sread (d : BitVec 8) (n : BitVec 8) : Statement (.sread d n) := of_8_8_8_8 _ _ _ _ rfl rfl
theorem swrite (a : BitVec 8) (n : BitVec 8) : Statement (.swrite a n) := of_16_8_8 _ _ _ rfl rfl
theorem slit (d : BitVec 8) (n : BitVec 8) : Statement (.slit d n) := of_8_8_8_8 _ _ _ _ rfl rfl
theorem ld (d : BitVec 8) (a : BitVec 8) (b : BitVec 8) : Statement (.ld d a b) := of_8_8_8_8 _ _ _ _ rfl rfl
theorem ld16 (d : BitVec 8) (a : BitVec 8) (b : BitVec 8) : Statement (.ld16 d a b) := of_8_8_8_8 _ _ _ _ rfl rfl
theorem ld8 (d : BitVec 8) (a : BitVec 8) (b : BitVec 8) : Statement (.ld8 d a b) := of_8_8_8_8 _ _ _ _ rfl rfl
theorem st (d : BitVec 8) (a : BitVec 8) (b : BitVec 8) : Statement (.st d a b) := of_8_8_8_8 _ _ _ _ rfl rfl
theorem st16 (d : BitVec 8) (a : BitVec 8) (b : BitVec 8) : Statement (.st16 d a b) := of_8_8_8_8 _ _ _ _ rfl rfl
theorem st8 (d : BitVec 8) (a : BitVec 8) (b : BitVec 8) : Statement (.st8 d a b) := of_8_8_8_8 _ _ _ _ rfl rfl
theorem lds (d : BitVec 8) (a : BitVec 8) (b : BitVec 8) : Statement (.lds d a b) := of_8_8_8_8 _ _ _ _ rfl rfl
theorem sts (d : BitVec 8) (a : BitVec 8) (b : BitVec 8) : Statement (.sts d a b) := of_8_8_8_8 _ _ _ _ rfl rfl
theorem ldb (d : BitVec 8) (a : BitVec 8) (b : BitVec 8) : Statement (.ldb d a b) := of_8_8_8_8 _ _ _ _ rfl rfl
theorem stb (d : BitVec 8) (a : BitVec 8) (b : BitVec 8) : Statement (.stb d a b) := of_8_8_8_8 _ _ _ _ rfl rfl
theorem smap (d : BitVec 8) (a : BitVec 8) (b : BitVec 8) : Statement (.smap d a b) := of_8_8_8_8 _ _ _ _ rfl rfl
theorem sunmap (a : BitVec 8) : Statement (.sunmap a) := of_16_8_8 _ _ _ rfl rfl
theorem sflush (a : BitVec 8) : Statement (.sflush a) := of_16_8_8 _ _ _ rfl rfl
theorem fence (l : BitVec 1) (k : BitVec 2) (s : BitVec 3) : Statement (.fence l k s) := of_26_1_2_3 _ _ _ _ rfl rfl
theorem cpy (d : BitVec 8) (a : BitVec 8) (b : BitVec 8) : Statement (.cpy d a b) := of_8_8_8_8 _ _ _ _ rfl rfl
theorem pref (a : BitVec 8) (b : BitVec 8) : Statement (.pref a b) := of_16_8_8 _ _ _ rfl rfl
theorem binit (d : BitVec 8) (a : BitVec 8) (b : BitVec 8) : Statement (.binit d a b) := of_8_8_8_8 _ _ _ _ rfl rfl
theorem barr (a : BitVec 8) (f : BitVec 8) : Statement (.barr a f) := of_16_8_8 _ _ _ rfl rfl
theorem barx (a : BitVec 8) (b : BitVec 8) : Statement (.barx a b) := of_16_8_8 _ _ _ rfl rfl
theorem bwait (a : BitVec 8) (b : BitVec 8) : Statement (.bwait a b) := of_16_8_8 _ _ _ rfl rfl
theorem atadd (d : BitVec 8) (a : BitVec 8) (b : BitVec 8) : Statement (.atadd d a b) := of_8_8_8_8 _ _ _ _ rfl rfl
theorem atmin (d : BitVec 8) (a : BitVec 8) (b : BitVec 8) : Statement (.atmin d a b) := of_8_8_8_8 _ _ _ _ rfl rfl
theorem atmax (d : BitVec 8) (a : BitVec 8) (b : BitVec 8) : Statement (.atmax d a b) := of_8_8_8_8 _ _ _ _ rfl rfl
theorem atand (d : BitVec 8) (a : BitVec 8) (b : BitVec 8) : Statement (.atand d a b) := of_8_8_8_8 _ _ _ _ rfl rfl
theorem ator (d : BitVec 8) (a : BitVec 8) (b : BitVec 8) : Statement (.ator d a b) := of_8_8_8_8 _ _ _ _ rfl rfl
theorem atxor (d : BitVec 8) (a : BitVec 8) (b : BitVec 8) : Statement (.atxor d a b) := of_8_8_8_8 _ _ _ _ rfl rfl
theorem atxch (d : BitVec 8) (a : BitVec 8) (b : BitVec 8) : Statement (.atxch d a b) := of_8_8_8_8 _ _ _ _ rfl rfl
theorem atcas (d : BitVec 8) (a : BitVec 8) (b : BitVec 8) : Statement (.atcas d a b) := of_8_8_8_8 _ _ _ _ rfl rfl
theorem tlincSignal (d : BitVec 8) (a : BitVec 8) : Statement (.tlincSignal d a) := of_8_8_8_8 _ _ _ _ rfl rfl
theorem tlincReserve (d : BitVec 8) (a : BitVec 8) : Statement (.tlincReserve d a) := of_8_8_8_8 _ _ _ _ rfl rfl
theorem tlincComplete (d : BitVec 8) (a : BitVec 8) : Statement (.tlincComplete d a) := of_8_8_8_8 _ _ _ _ rfl rfl
theorem tlrd (d : BitVec 8) (a : BitVec 8) (f : BitVec 8) : Statement (.tlrd d a f) := of_8_8_8_8 _ _ _ _ rfl rfl
theorem tzero (t : BitVec 4) : Statement (.tzero t) := of_12_4_16 _ _ _ rfl rfl
theorem mma (t : BitVec 4) (a : BitVec 8) (b : BitVec 8) : Statement (.mma t a b) := of_12_4_8_8 _ _ _ _ rfl rfl
theorem tld (t : BitVec 4) (a : BitVec 8) : Statement (.tld t a) := of_12_4_8_8 _ _ _ _ rfl rfl
theorem tst (t : BitVec 4) (a : BitVec 8) : Statement (.tst t a) := of_12_4_8_8 _ _ _ _ rfl rfl
theorem tcvt (t : BitVec 4) (u : BitVec 4) (f : BitVec 4) (g : BitVec 4) : Statement (.tcvt t u f g) := of_12_4_4_4_4_4 _ _ _ _ _ _ rfl rfl
theorem tcolr (d : BitVec 8) (u : BitVec 4) (c : BitVec 8) : Statement (.tcolr d u c) := of_8_8_4_4_8 _ _ _ _ _ rfl rfl
theorem tcolw (t : BitVec 4) (a : BitVec 8) (c : BitVec 8) : Statement (.tcolw t a c) := of_12_4_8_8 _ _ _ _ rfl rfl
theorem mfence : Statement .mfence := of_32 _ rfl rfl
theorem rprd (d : BitVec 8) (f : BitVec 8) : Statement (.rprd d f) := of_8_8_8_8 _ _ _ _ rfl rfl
theorem stest (t : BitVec 4) : Statement (.stest t) := of_12_4_16 _ _ _ rfl rfl
theorem tscale (t : BitVec 4) (a : BitVec 8) (f : BitVec 8) : Statement (.tscale t a f) := of_12_4_8_8 _ _ _ _ rfl rfl
theorem fopen (d : BitVec 8) (a : BitVec 8) : Statement (.fopen d a) := of_8_8_8_8 _ _ _ _ rfl rfl
theorem fsend (d : BitVec 8) (a : BitVec 8) (b : BitVec 8) : Statement (.fsend d a b) := of_8_8_8_8 _ _ _ _ rfl rfl
theorem fmcast (d : BitVec 8) (a : BitVec 8) (b : BitVec 8) : Statement (.fmcast d a b) := of_8_8_8_8 _ _ _ _ rfl rfl
theorem freseed (a : BitVec 8) : Statement (.freseed a) := of_16_8_8 _ _ _ rfl rfl
theorem fclose (a : BitVec 8) : Statement (.fclose a) := of_16_8_8 _ _ _ rfl rfl
theorem fstat (d : BitVec 8) (a : BitVec 8) (f : BitVec 8) : Statement (.fstat d a f) := of_8_8_8_8 _ _ _ _ rfl rfl
theorem coll (d : BitVec 8) (a : BitVec 8) (b : BitVec 8) : Statement (.coll d a b) := of_8_8_8_8 _ _ _ _ rfl rfl
theorem cringCfg (a : BitVec 8) (n : BitVec 3) : Statement (.cringCfg a n) := of_16_8_5_3 _ _ _ _ rfl rfl
theorem cringRel (a : BitVec 8) (n : BitVec 3) : Statement (.cringRel a n) := of_16_8_5_3 _ _ _ _ rfl rfl
theorem cringClose (a : BitVec 8) (n : BitVec 3) : Statement (.cringClose a n) := of_16_8_5_3 _ _ _ _ rfl rfl
theorem tcopy (d : BitVec 8) (a : BitVec 8) (b : BitVec 8) : Statement (.tcopy d a b) := of_8_8_8_8 _ _ _ _ rfl rfl
theorem xroute (d : BitVec 8) (a : BitVec 8) (b : BitVec 8) : Statement (.xroute d a b) := of_8_8_8_8 _ _ _ _ rfl rfl
theorem xtable (a : BitVec 8) : Statement (.xtable a) := of_16_8_8 _ _ _ rfl rfl
theorem task (n : BitVec 8) (r : BitVec 8) : Statement (.task n r) := of_16_8_8 _ _ _ rfl rfl
theorem trap (d : BitVec 8) (i : BitVec 16) : Statement (.trap d i) := of_8_8_16 _ _ _ rfl rfl
theorem tret : Statement .tret := of_32 _ rfl rfl
theorem tmask : Statement .tmask := of_32 _ rfl rfl
theorem tunmask : Statement .tunmask := of_32 _ rfl rfl
theorem lkill : Statement .lkill := of_32 _ rfl rfl
theorem mbrecv (d : BitVec 8) (a : BitVec 8) : Statement (.mbrecv d a) := of_8_8_8_8 _ _ _ _ rfl rfl
theorem mbsend (d : BitVec 8) (a : BitVec 8) (b : BitVec 8) : Statement (.mbsend d a b) := of_8_8_8_8 _ _ _ _ rfl rfl
theorem mbpeek (d : BitVec 8) (a : BitVec 8) (f : BitVec 8) : Statement (.mbpeek d a f) := of_8_8_8_8 _ _ _ _ rfl rfl
theorem launch (d : BitVec 8) (a : BitVec 8) : Statement (.launch d a) := of_8_8_8_8 _ _ _ _ rfl rfl
theorem kquery (d : BitVec 8) (a : BitVec 8) (f : BitVec 8) : Statement (.kquery d a f) := of_8_8_8_8 _ _ _ _ rfl rfl
theorem kcancel (a : BitVec 8) : Statement (.kcancel a) := of_16_8_8 _ _ _ rfl rfl
theorem kpreemptSave (a : BitVec 8) : Statement (.kpreemptSave a) := of_16_8_8 _ _ _ rfl rfl
theorem kpreemptDiscard (a : BitVec 8) : Statement (.kpreemptDiscard a) := of_16_8_8 _ _ _ rfl rfl
theorem aopen (d : BitVec 8) (a : BitVec 8) : Statement (.aopen d a) := of_8_8_8_8 _ _ _ _ rfl rfl
theorem astep (d : BitVec 8) (a : BitVec 8) (b : BitVec 8) : Statement (.astep d a b) := of_8_8_8_8 _ _ _ _ rfl rfl
theorem aclose (a : BitVec 8) : Statement (.aclose a) := of_16_8_8 _ _ _ rfl rfl
theorem aabandon (a : BitVec 8) : Statement (.aabandon a) := of_16_8_8 _ _ _ rfl rfl
theorem aquery (d : BitVec 8) (a : BitVec 8) (f : BitVec 8) : Statement (.aquery d a f) := of_8_8_8_8 _ _ _ _ rfl rfl
theorem aresolve (a : BitVec 8) (b : BitVec 8) : Statement (.aresolve a b) := of_16_8_8 _ _ _ rfl rfl
theorem acret (a : BitVec 8) : Statement (.acret a) := of_16_8_8 _ _ _ rfl rfl
theorem pvsub (d : BitVec 8) (a : BitVec 8) (b : BitVec 8) : Statement (.pvsub d a b) := of_8_8_8_8 _ _ _ _ rfl rfl
theorem pvfill (d : BitVec 8) (a : BitVec 8) : Statement (.pvfill d a) := of_8_8_8_8 _ _ _ _ rfl rfl
theorem pvstat (d : BitVec 8) (a : BitVec 8) (f : BitVec 8) : Statement (.pvstat d a f) := of_8_8_8_8 _ _ _ _ rfl rfl
theorem bzreq (d : BitVec 8) (a : BitVec 8) : Statement (.bzreq d a) := of_8_8_8_8 _ _ _ _ rfl rfl
theorem keygenGenerate (d : BitVec 8) (a : BitVec 8) : Statement (.keygenGenerate d a) := of_8_8_8_8 _ _ _ _ rfl rfl
theorem keygenDestroy (d : BitVec 8) (a : BitVec 8) : Statement (.keygenDestroy d a) := of_8_8_8_8 _ _ _ _ rfl rfl
theorem keyseal (d : BitVec 8) (a : BitVec 8) (b : BitVec 8) : Statement (.keyseal d a b) := of_8_8_8_8 _ _ _ _ rfl rfl
theorem attest (d : BitVec 8) (a : BitVec 8) (b : BitVec 8) : Statement (.attest d a b) := of_8_8_8_8 _ _ _ _ rfl rfl
theorem locketw (d : BitVec 8) (a : BitVec 8) (c : BitVec 8) : Statement (.locketw d a c) := of_8_8_8_8 _ _ _ _ rfl rfl
theorem caprd (d : BitVec 8) (a : BitVec 8) (f : BitVec 8) : Statement (.caprd d a f) := of_8_8_8_8 _ _ _ _ rfl rfl
theorem tlbinv (a : BitVec 8) (f : BitVec 8) : Statement (.tlbinv a f) := of_16_8_8 _ _ _ rfl rfl
theorem fltret (a : BitVec 8) : Statement (.fltret a) := of_16_8_8 _ _ _ rfl rfl
theorem pvNop : Statement .pvNop := of_32 _ rfl rfl
theorem pvVec (o : BitVec 14) (n : BitVec 14) : Statement (.pvVec o n) := of_4_14_14 _ _ _ rfl rfl
theorem pvRows (f : BitVec 15) (n : BitVec 10) : Statement (.pvRows f n) := of_4_15_10_3 _ _ _ _ rfl rfl
theorem pvMac (c : BitVec 14) (l : BitVec 14) : Statement (.pvMac c l) := of_4_14_14 _ _ _ rfl rfl
theorem pvScale (s : BitVec 16) : Statement (.pvScale s) := of_16_16 _ _ rfl rfl
theorem pvOut : Statement .pvOut := of_32 _ rfl rfl
theorem pvSync : Statement .pvSync := of_32 _ rfl rfl
theorem pvEnd : Statement .pvEnd := of_32 _ rfl rfl
theorem clauseFetch : Statement .clauseFetch := fun _ h => nomatch h
theorem clauseStart : Statement .clauseStart := fun _ h => nomatch h
theorem operationCompletion : Statement .operationCompletion := fun _ h => nomatch h
theorem groupSwap : Statement .groupSwap := fun _ h => nomatch h
theorem groupExitDrain : Statement .groupExitDrain := fun _ h => nomatch h
theorem shareGrant : Statement .shareGrant := fun _ h => nomatch h
theorem pageWalkComplete : Statement .pageWalkComplete := fun _ h => nomatch h
theorem faultRecordDelivery : Statement .faultRecordDelivery := fun _ h => nomatch h
theorem stashRecall : Statement .stashRecall := fun _ h => nomatch h
theorem blockedAccessResume : Statement .blockedAccessResume := fun _ h => nomatch h
theorem copyEngineComplete : Statement .copyEngineComplete := fun _ h => nomatch h
theorem leaseExpiry : Statement .leaseExpiry := fun _ h => nomatch h
theorem postedStoreArrival : Statement .postedStoreArrival := fun _ h => nomatch h
theorem bwaitSatisfied : Statement .bwaitSatisfied := fun _ h => nomatch h
theorem ticketDrawResume : Statement .ticketDrawResume := fun _ h => nomatch h
theorem matrixOpComplete : Statement .matrixOpComplete := fun _ h => nomatch h
theorem transferStart : Statement .transferStart := fun _ h => nomatch h
theorem chunkArrival : Statement .chunkArrival := fun _ h => nomatch h
theorem trailerArrival : Statement .trailerArrival := fun _ h => nomatch h
theorem nackArrival : Statement .nackArrival := fun _ h => nomatch h
theorem ackArrival : Statement .ackArrival := fun _ h => nomatch h
theorem absentRetryTimer : Statement .absentRetryTimer := fun _ h => nomatch h
theorem reseedArrival : Statement .reseedArrival := fun _ h => nomatch h
theorem flowCloseComplete : Statement .flowCloseComplete := fun _ h => nomatch h
theorem tcopyCreditGrant : Statement .tcopyCreditGrant := fun _ h => nomatch h
theorem ringLineReport : Statement .ringLineReport := fun _ h => nomatch h
theorem descriptorReceive : Statement .descriptorReceive := fun _ h => nomatch h
theorem contribEntryHead : Statement .contribEntryHead := fun _ h => nomatch h
theorem collectiveComplete : Statement .collectiveComplete := fun _ h => nomatch h
theorem capacityClaim : Statement .capacityClaim := fun _ h => nomatch h
theorem claimReply : Statement .claimReply := fun _ h => nomatch h
theorem taskCommit : Statement .taskCommit := fun _ h => nomatch h
theorem trapDelivery : Statement .trapDelivery := fun _ h => nomatch h
theorem deferredTrapTake : Statement .deferredTrapTake := fun _ h => nomatch h
theorem stopComplete : Statement .stopComplete := fun _ h => nomatch h
theorem maskedHoldTimeout : Statement .maskedHoldTimeout := fun _ h => nomatch h
theorem contextRestore : Statement .contextRestore := fun _ h => nomatch h
theorem sealArrival : Statement .sealArrival := fun _ h => nomatch h
theorem mailboxFieldStore : Statement .mailboxFieldStore := fun _ h => nomatch h
theorem hostMailboxWrite : Statement .hostMailboxWrite := fun _ h => nomatch h
theorem outboundPhaseAdvance : Statement .outboundPhaseAdvance := fun _ h => nomatch h
theorem teamDispatch : Statement .teamDispatch := fun _ h => nomatch h
theorem retirementComplete : Statement .retirementComplete := fun _ h => nomatch h
theorem compensatorLaunch : Statement .compensatorLaunch := fun _ h => nomatch h
theorem compensatorRetire : Statement .compensatorRetire := fun _ h => nomatch h
theorem paveCommandStart : Statement .paveCommandStart := fun _ h => nomatch h
theorem paveCommandComplete : Statement .paveCommandComplete := fun _ h => nomatch h
theorem paveFillComplete : Statement .paveFillComplete := fun _ h => nomatch h
theorem rehashSweepComplete : Statement .rehashSweepComplete := fun _ h => nomatch h
theorem unitScrubComplete : Statement .unitScrubComplete := fun _ h => nomatch h
theorem keyDrawComplete : Statement .keyDrawComplete := fun _ h => nomatch h
theorem generatorRetest : Statement .generatorRetest := fun _ h => nomatch h
theorem hostMemWrite : Statement .hostMemWrite := fun _ h => nomatch h
theorem hostMemRead : Statement .hostMemRead := fun _ h => nomatch h
theorem auditRecordDelivery : Statement .auditRecordDelivery := fun _ h => nomatch h
theorem mcmdLock : Statement .mcmdLock := fun _ h => nomatch h
theorem mcmdRun : Statement .mcmdRun := fun _ h => nomatch h
theorem mcmdDrawOpenKey : Statement .mcmdDrawOpenKey := fun _ h => nomatch h
theorem bar0Write : Statement .bar0Write := fun _ h => nomatch h
theorem throttleStep : Statement .throttleStep := fun _ h => nomatch h
theorem coldReset : Statement .coldReset := fun _ h => nomatch h
theorem warmReset : Statement .warmReset := fun _ h => nomatch h
theorem bar0Read : Statement .bar0Read := fun _ h => nomatch h

end Sys2Proof.Laws.Shape
end

