-- ==== Sys2Proof/Laws/Results.lean ====
section
/-! SUPPORT. What the shared forms of the computing instructions leave, one lemma per form: scalar results, and vector results on
one, two or three sources under a set of element types. -/

namespace Sys2Proof.Machine

open Sys2Proof

variable {i : Instr} {s : State} {c : Ctx} {d a b : BitVec 8}

/-- A scalar form writes its value to S[d] (R131). -/
theorem scalarOp_ok (h : Issuing i c s) (f : Ctx → W64) : scalarOp i d f s = .next (c.scal s d (f c)) := issue_ok h rfl

/-- The check of the element type passes (R135). -/
theorem typed_ok {ok : Nat → Bool} {k : Res} (h : ok (etype c.grp.gmode) = true) : typed c ok k = k := by simp [typed, h]

/-- The check of the element type fails (R135, R60). -/
theorem typed_trap {ok : Nat → Bool} {k : Res} (h : ok (etype c.grp.gmode) = false) : typed c ok k = .error (.trap ILLOP) := by
  simp [typed, h]

/-- One source, element by element. -/
theorem vec1_ok (h : Issuing i c s) {ok : Nat → Bool} (ho : ok (etype c.grp.gmode) = true) (f : BitVec 16 → Nat → Nat) :
    vec1 i d a ok f s = .next (c.vect s d (uniTag [c.v a]) fun j => lane1 (etype c.grp.gmode) (f c.grp.gmode) ((c.v a).l.lane j)) :=
  issue_ok h (typed_ok ho)

/-- Two sources, element by element. -/
theorem vec2_ok (h : Issuing i c s) {ok : Nat → Bool} (ho : ok (etype c.grp.gmode) = true) (tag : BitVec 16 → VReg → VReg → Tag)
    (f : BitVec 16 → Nat → Nat → Nat) : vec2 i d a b ok tag f s = .next (c.vect s d (tag c.grp.gmode (c.v a) (c.v b)) fun j =>
      lane2 (etype c.grp.gmode) (f c.grp.gmode) ((c.v a).l.lane j) ((c.v b).l.lane j)) :=
  issue_ok h (typed_ok ho)

/-- Two sources and D, element by element. -/
theorem vec3_ok (h : Issuing i c s) {ok : Nat → Bool} (ho : ok (etype c.grp.gmode) = true) (f : BitVec 16 → Nat → Nat → Nat → Nat) :
    vec3 i d a b ok f s = .next (c.vect s d (uniTag [c.v a, c.v b, c.v d]) fun j =>
      lane3 (etype c.grp.gmode) (f c.grp.gmode) ((c.v a).l.lane j) ((c.v b).l.lane j) ((c.v d).l.lane j)) :=
  issue_ok h (typed_ok ho)

/-- Two sources, lane by lane. -/
theorem vecBits_ok (h : Issuing i c s) {ok : Nat → Bool} (ho : ok (etype c.grp.gmode) = true) (f : BitVec 16 → W32 → W32 → W32) :
    vecBits i d a b ok f s = .next (c.vect s d (uniTag [c.v a, c.v b]) fun j => f c.grp.gmode ((c.v a).l.lane j) ((c.v b).l.lane j)) :=
  issue_ok h (typed_ok ho)

/-- A compare writes its mask to S[d] (R140). -/
theorem vecCmp_ok (h : Issuing i c s) (f : BitVec 16 → W32 → W32 → Bool) : vecCmp i d a b f s =
    .next (c.scal s d ((maskOf fun j => c.em.getLsbD j && f c.grp.gmode ((c.v a).l.lane j) ((c.v b).l.lane j)).setWidth 64)) :=
  issue_ok h rfl

/-- A correctly rounded function of one operand under RNE (R150, R151). -/
theorem rounded1_ok (h : Issuing i c s) (ho : isFlt (etype c.grp.gmode) = true) (hr : rnd c.grp.gmode = 0) (f : Flo → Flo) :
    rounded1 i d a f s = .next (c.vect s d (uniTag [c.v a]) fun j => lane1 (etype c.grp.gmode) (fun v =>
      (fmtOf (etype c.grp.gmode)).round 0 (satBit c.grp.gmode) (ftzBit c.grp.gmode)
        (f ((fmtOf (etype c.grp.gmode)).dec (ftzBit c.grp.gmode) v))) ((c.v a).l.lane j)) := by
  refine issue_ok h ((typed_ok ho).trans ?_)
  simp only [hr, ne_eq, not_true_eq_false, if_false]
  rfl

/-- A form whose element type is outside its set traps ILLOP. -/
theorem issue_typed_trap {ok : Nat → Bool} {k : Ctx → State → Res} (h : Issuing i c s) (ho : ok (etype c.grp.gmode) = false) :
    issue i s (fun c s => typed c ok (k c s)) = .next (c.traps s ILLOP 0) := issue_trap h (typed_trap ho)

end Sys2Proof.Machine
end

