-- ==== Sys2Proof/Tests/Slice0.lean ====
section
/-! SUPPORT. Tests on fixed values: ill-formed terms are refused, words written out from the encodings decode, a placed
instruction runs, and every statement's hypotheses are met together by a concrete state and operands (`witness_…`). -/

open Sys2Proof Sys2Proof.Machine

namespace Sys2Proof.Tests

set_option Elab.async false

/-! ### Small states -/

/-- `i` is at its issue in `s`, passing the checks of R60 before its own and reading no poison, and `p` holds of the issuing context. -/
def At (i : Instr) (s : State) (p : Ctx → Bool) : Bool :=
  match s.ctx with
  | some c => decide (precheck c i = none) && !c.grp.readsBad c.slot i && decide (c.grp.badLanes c.cl i = 0) && p c
  | none => false

/-- What `At` says in the terms of the statements. -/
theorem issuing_of_at {i : Instr} {s : State} {p : Ctx → Bool} (h : At i s p = true) : ∃ c, Issuing i c s ∧ p c = true := by
  unfold At at h
  split at h
  · next c hc =>
    simp only [Bool.and_eq_true, decide_eq_true_eq, Bool.not_eq_true'] at h
    exact ⟨c, ⟨hc, h.1.1.1, by simp [Ctx.sound, h.1.1.2, h.1.2]⟩, h.2⟩
  · cases h

/-- The answer is `.ok a` with `p a`. -/
def Ok {ε α : Type} (x : Except ε α) (p : α → Bool := fun _ => true) : Bool := match x with | .ok a => p a | .error _ => false

/-- `Ctx.RoomA`, evaluated. -/
def roomA (c : Ctx) (s : State) : Bool := (s.group? c.g).any fun g => g.canRaise (flagA c.cl.head) && (!c.shadowed || decide (g.lvq.length < 8))

/-- `Ctx.RoomB`, evaluated. -/
def roomB (c : Ctx) (s : State) : Bool := (s.group? c.g).any fun g => g.canRaise (flagB c.cl.head)

theorem roomA_of {c : Ctx} {s : State} (h : roomA c s = true) : c.RoomA s := by
  unfold roomA at h
  cases hg : s.group? c.g with
  | none => simp [hg] at h
  | some g =>
    simp only [hg, Option.any_some, Bool.and_eq_true, Bool.or_eq_true, Bool.not_eq_true', decide_eq_true_eq] at h
    exact ⟨g, hg, h.1, fun hs => h.2.resolve_left (by simp [hs])⟩

theorem roomB_of {c : Ctx} {s : State} (h : roomB c s = true) : c.RoomB s := by
  unfold roomB at h
  cases hg : s.group? c.g with
  | none => simp [hg] at h
  | some g => exact ⟨g, hg, by simpa [hg] using h⟩

/-- `Ctx.Reaches`, evaluated: the place. -/
def reaches (c : Ctx) (s : State) (k : Acc) (al : Nat) (a : W64) : Option Place :=
  match s.place c.team c.kern c.bez k a with
  | .ok p => if a.toNat < 2 ^ 57 ∧ a.toNat % al = 0 ∧ s.heldBlock c.g p = none then some p else none
  | _ => none

theorem reaches_of {c : Ctx} {s : State} {k : Acc} {al : Nat} {a : W64} {p : Place} (h : reaches c s k al a = some p) : c.Reaches s k al a p := by
  unfold reaches at h
  split at h
  · next q hq =>
    split at h
    · next hc => obtain rfl := Option.some.inj h; exact ⟨hc.1, hc.2.1, hq, hc.2.2⟩
    · cases h
  · cases h

/-- `State.Sane`, evaluated. -/
def sane (s : State) (p : Place) : Bool :=
  !s.placePoisoned p && match p with
    | .stash sid _ _ => (match s.team? sid with | some t => t.mapped.all fun m => m.filled || !s.poisoned m.sector | none => true)
    | _ => true

theorem sane_of {s : State} {p : Place} (h : sane s p = true) : s.Sane p := by
  simp only [sane, Bool.and_eq_true, Bool.not_eq_true'] at h
  refine ⟨h.1, ?_⟩
  rintro sid off va t m rfl ht hm - hf
  have := h.2
  simp only [ht, List.all_eq_true, Bool.or_eq_true, Bool.not_eq_true'] at this
  simpa [hf] using this m hm

/-- `Ctx.Reads`, evaluated: what is read, and the state then. -/
def reads (c : Ctx) (s : State) (k : Acc) (a : W64) (n : Nat) : Option (List Byte × State) :=
  match reaches c s k 1 a with
  | some p => if sane s p then some ((c.reading s a p).loadBytes c.g c.grp c.core p n, c.reading s a p) else none
  | none => none

theorem reads_of {c : Ctx} {s t : State} {k : Acc} {a : W64} {n : Nat} {r : List Byte} (h : reads c s k a n = some (r, t)) : c.Reads s k a n r t := by
  unfold reads at h
  split at h
  · next p hp =>
    split at h
    · next hs => cases h; exact ⟨p, reaches_of hp, sane_of hs, rfl, rfl⟩
    · cases h
  · cases h

/-- `Ctx.Counter`, evaluated. -/
def ctr (c : Ctx) (s : State) (k : Acc) (a : W64) : Option (Obj × State) :=
  match reaches c s k 32 a with
  | some (.glob pa true ow va) => if va = a ∧ s.poisoned (pa / 256) = false then some (.glob pa a ow, (s.touch c.bez c.core [a]).atHome (.glob pa a ow)) else none
  | _ => none

theorem ctr_of {c : Ctx} {s t : State} {k : Acc} {a : W64} {o : Obj} (h : ctr c s k a = some (o, t)) : c.Counter s k a o t := by
  unfold ctr at h
  split at h
  · next pa ow va hp =>
    split at h
    · next hs => cases h; obtain ⟨rfl, hs⟩ := hs; exact ⟨pa, ow, reaches_of hp, hs, rfl, rfl⟩
    · cases h
  · cases h

/-- `Ctx.Object`, evaluated. -/
def obj (c : Ctx) (s : State) (k : Acc) (a : W64) : Option (Obj × State) :=
  if isWindow a then (match reaches c s k 16 a with
    | some (.stash sid off va) => if va = a ∧ s.objMapped sid off = false ∧ s.placePoisoned (.stash sid off va) = false then some (.stash sid off a, s.touch c.bez c.core [a]) else none
    | _ => none)
  else ctr c s k a

theorem obj_of {c : Ctx} {s t : State} {k : Acc} {a : W64} {o : Obj} (h : obj c s k a = some (o, t)) : c.Object s k a o t := by
  unfold obj at h
  split at h
  · next hw =>
    split at h
    · next sid off va hp =>
      split at h
      · next hs => cases h; obtain ⟨rfl, h1, h2⟩ := hs; exact .inr ⟨hw, rfl, sid, off, reaches_of hp, h1, h2, rfl⟩
      · cases h
    · cases h
  · next hw =>
    obtain ⟨pa, ow, hr, hp, ho, ht⟩ := ctr_of h
    exact .inl ⟨by simpa using hw, pa, ow, hr, hp, ho, ht⟩

/-- `Ctx.MayCommit`, evaluated. -/
def mayCommit (c : Ctx) (s : State) : Bool :=
  decide (c.grp.bnd = .passed) || (decide (c.grp.bnd ≠ .passed) && s.canCommit c && (!c.shadowed || decide (c.grp.mode = .handler)))

theorem mayCommit_of {c : Ctx} {s : State} (h : mayCommit c s = true) : c.MayCommit s := by
  simpa [mayCommit, Ctx.MayCommit, and_assoc] using h

/-- `Ctx.UnitsFit`, evaluated. -/
def unitsFit (c : Ctx) (s : State) (ps : List Place) : Bool :=
  recOwnTask c.kern.record || (s.group? c.g).any fun g => decide ((({} : Version).withUnits ps).count ≤ g.bound ∧ (g.ver.withUnits ps).count ≤ g.bound)

theorem unitsFit_of {c : Ctx} {s : State} {ps : List Place} (h : unitsFit c s ps = true) : c.UnitsFit s ps := by
  simpa [unitsFit, Ctx.UnitsFit, Option.any_eq_true] using h

/-- `Ctx.Pieces`, evaluated. -/
def pieces (c : Ctx) (s : State) (a : W64) (n : Nat) : Option (List Byte × State) :=
  let ad := fun k => a + BitVec.ofNat 64 (64 * k)
  let pl := fun k => (reaches c s .scalarLoad 1 (ad k)).getD (.stash 0 0 0)
  let t := ((List.range n).map pl).foldl (fun s p => s.takeLease c.g c.core c.grp.acquire p) ((s.touch c.bez c.core ((List.range n).map ad)).fillPlaces ((List.range n).map pl))
  if (List.range n).all fun k => (reaches c s .scalarLoad 1 (ad k)).isSome && !t.placePoisoned (pl k) then
    some ((List.range n).flatMap fun k => t.loadBytes c.g ((t.group? c.g).getD c.grp) c.core (pl k) 64, t)
  else none

theorem pieces_of {c : Ctx} {s t : State} {a : W64} {n : Nat} {r : List Byte} (h : pieces c s a n = some (r, t)) : c.Pieces s a n r t := by
  unfold pieces at h
  dsimp only at h
  split at h
  · next hc =>
    cases h
    simp only [List.all_eq_true, List.mem_range, Bool.and_eq_true, Option.isSome_iff_exists, Bool.not_eq_true'] at hc
    refine ⟨_, _, _, fun _ => rfl, fun k hk => ?_, rfl, rfl, fun k hk => (hc k hk).2, rfl⟩
    obtain ⟨p, hp⟩ := (hc k hk).1
    simpa [hp] using reaches_of hp
  · cases h

/-- A ring of one rank has no peer to read. -/
theorem peers_one {c : Ctx} {s : State} {r : Ring} {pa : Nat} {x : W64} {ow : Nat} (h : r.ranks = 1 ∧ r.rank = 0 ∧ r.ctrl = .glob pa x ow) : c.Peers s r [pa] s := by
  obtain ⟨h1, h2, h3⟩ := h
  refine ⟨[], fun _ => .stash 0 0 0, fun _ => pa, fun _ => 0, s, by rw [h1, h2]; rfl, by simp, by simp [State.touch, State.fillPlaces], by simp, ⟨x, ow, h3⟩, by simp [State.touch], by rw [h1]; rfl⟩

/-- A launch record: one team of one group, a stash of 4096 bytes, with CODE, RECIPES, HANDLER, and the doublewords at 104
and 112. -/
def tRec (code recipes handler x104 fs : Nat) : List Byte :=
  leBytes code 8 ++ leBytes (1 + 2 ^ 21 + 2 ^ 42) 8 ++ List.replicate 8 0 ++ leBytes recipes 8 ++ leBytes handler 8
    ++ List.replicate 24 0 ++ leBytes (1 + 16 * 2 ^ 8 + 16 * 2 ^ 16 + 2 ^ 24 + 2 ^ 32) 8 ++ List.replicate 24 0
    ++ leBytes (4096 + 2 ^ 24) 8 ++ leBytes x104 8 ++ leBytes fs 8 ++ List.replicate 136 0

/-- SUPER. -/
def sup : Nat := 2 ^ 35

/-- The configuration of the test bezel: tables at 0x1000, the mailboxes at 0x1000000. -/
def tCfg : List Byte := List.replicate 24 0 ++ leBytes 0x1000 8 ++ List.replicate 8 0 ++ leBytes 0x1000000 8 ++ List.replicate 16 0

/-- Two pages in the cores' TLB: writable memory at 0x800000, a writable SYNC page at 0x1000000. -/
def tTlb : List TlbEntry :=
  [{ bezel := 0, core := 0, page := 0x800000, leaf := { raw := BitVec.ofNat 64 (2 + 8 + 0x100 * 2 ^ 23 + 2 ^ 48), level := 2 } },
   { bezel := 0, core := 0, page := 0x1000000, leaf := { raw := BitVec.ofNat 64 (2 + 8 + 16 + 0x200 * 2 ^ 23 + 2 ^ 48), level := 2 } }]

/-- The leader and its shadow. -/
def tG : GRef := { team := 1, grp := 0 }
/-- The shadow. -/
def tH : GRef := { team := 1, grp := 0, sh := true }

/-- Where the pages of `tTlb` lie. -/
def tPa : Nat := 2 ^ 40 + 0x1000000
/-- Where the SYNC page lies. -/
def tSync : Nat := 2 ^ 40 + 0x2000000

/-- A state in which a group of a kernel with the given record is at an instruction, its scalars as listed. -/
def tStOf (record : List Byte) (sc : List (Nat × W64)) (f : Group → Group) (t : Team → Team) (h : State → State) : State :=
  h { State.reset with
    stepNo := 5, cur := some tG, tlb := tTlb, nextSid := 2, units := [(.chan 0, .member 0)]
    bezels := [{ num := 0, st := .active, cfg := tCfg, operator := true, kernels := [{ placedKernel 0 with record := record }], nextSlot := 1, nextSeq := 2 }]
    teams := [t { sid := 1, bezel := 0, kslot := 0, kseq := 1, tid := 0, core := 0,
                  groups := [f (sc.foldl (fun g p => g.setS p.1 p.2) (placedGroup 0))] }] }

/-- The plain state: a kernel in which every store is its own task. -/
def tSt (sc : List (Nat × W64) := []) (f : Group → Group := id) (h : State → State := id) : State :=
  tStOf (tRec 0 0 0 sup 0) sc f id h

/-- A kernel with a recipe table at 0x900000. -/
def tRw (sc : List (Nat × W64) := []) (f : Group → Group := id) (h : State → State := id) : State :=
  tStOf (tRec 0 0x900000 0 (sup + 4 * 2 ^ 16) 0) sc (fun g => f { g with bound := 4 }) id h

/-- A kernel with SHADOW, its shadow group issuing (`lead` false) or the leader. -/
def tSh (lead : Bool) (sc : List (Nat × W64) := []) (f : Group → Group := id) (fl : Group → Group := id) : State :=
  tStOf (tRec 0 0 0x800000 (sup + 2 ^ 32 + 4 * 2 ^ 16) 0) sc (fun g => fl { g with bound := 4 })
    (fun t => { t with shadows := [f (sc.foldl (fun g p => g.setS p.1 p.2) { placedGroup 0 with bound := 4 })] })
    (fun s => { s with cur := some (if lead then tG else tH) })

/-- Scalar code `n`. -/
abbrev S (n : Nat) : BitVec 8 := BitVec.ofNat 8 (0xD0 + n)

/-- A clause of the issuing slot, changed. -/
def inSlot (sl : Slot) (g : Group) : Group := g.modClause fun c => { c with slot := sl }

/-- Memory with a block of bytes. -/
def withMem (a : Nat) (l : List Byte) (s : State) : State := { s with mem := memWrite s.mem a l }

/-- The page tables of the test bezel: the two pages of `tTlb`, and one of 1 GiB at 0x40000000. -/
def tTables (s : State) : State :=
  withMem 0x1000 (leBytes (1 + 0x2000) 8) (withMem 0x2000 (leBytes (1 + 0x3000) 8) (withMem 0x3000 (leBytes (1 + 0x4000) 8 ++ leBytes (2 + 8 + 2 ^ 48) 8)
    (withMem 0x4008 (leBytes (2 + 8 + 0x100 * 2 ^ 23 + 2 ^ 48) 8 ++ leBytes (2 + 8 + 16 + 0x200 * 2 ^ 23 + 2 ^ 48) 8) s)))

/-- The same tables once system software has marked the SYNC page MIGRATING. -/
def tMoving (s : State) : State := withMem 0x4010 (leBytes (3 + 8 + 16 + 0x200 * 2 ^ 23 + 2 ^ 48) 8) (tTables s)

/-- Mailbox 0, or an object, with the given words at the start of the SYNC page. -/
def withSync (ws : List Nat) (s : State) : State := withMem tSync (ws.flatMap fun w => leBytes w 4) s

/-- The state with the running step's input. -/
def withIn (e : Event) (s : State) : State := { s with input := some e }

/-- A state with element type `e` and rounding mode 0. -/
def tEt (e : Nat) : State := tSt [] fun g => { g with gmode := BitVec.ofNat 16 e }

/-- `exec` answers a next state. -/
def Runs (i : Instr) (s : State) : Bool := match exec i s with | .next _ => true | _ => false

/-- The step's team, group and the checks of `p`. -/
def On (s : State) (r : GRef) (p : Team → Group → Bool) : Bool :=
  match s.team? r.team, s.group? r with
  | some t, some g => p t g
  | _, _ => false

/-- The second group. -/
def tG2 : GRef := { team := 1, grp := 1 }

/-- A group with an outstanding operation that delivers `d`. -/
def tOp (d : List Deliver) (what : OpWhat := .ready) : Group → Group := fun g =>
  { g with ops := [{ id := 1, flag := some 3, classA := true, task := 0, dest := d, what := what }] }

/-- A store to another device on its way. -/
def withPosted (s : State) : State := { s with posted := [{ src := tG, kernel := (0, 0), cells := [(2 ^ 43 + tPa, 1)], owner := 0 }] }

/-- Eight operations in the matrix queue. -/
def full (g : Group) : Group := { g with mq := List.replicate 8 { id := 9, what := .tzero 0, rows := 1, pc := {}, task := 0 } }

/-- A counter in the SYNC page: DONE, NEXT and BITMAP. -/
def counter (done next bitmap : Nat) : State → State := withMem tSync (leBytes done 8 ++ leBytes next 8 ++ leBytes bitmap 8 ++ leBytes (2 * 2 ^ 56) 8)

/-- The issuer of an engine command of the group. -/
def tBy : Issuer := { g := tG, pc := {}, op := none, bezel := 0, kslot := 0, handle := handleOf 0 0 1, key := 0, core := 0 }

/-- A team in a context state. -/
def tCtx (e : Event) (recipes : Nat) (x : CtxState) (f : Group → Group) (ar : Nat := 0) : State :=
  tStOf (tRec 0 recipes 0 sup 0) [] f (fun t => { t with ctx := x }) fun s => withIn e { s with arith := ar }

/-! ### Witnesses: scalar, vector and control instructions -/

theorem witness_ScalarResults : (([.sadd (S 1) (S 2) (S 3), .ssub (S 1) (S 1) (S 1), .smul (S 1) (S 2) (S 3), .smulh (S 1) (S 2) (S 3), .smulhu (S 1) (S 2) (S 3),
    .sdivu (S 1) (S 2) (S 3), .sremu (S 1) (S 2) (S 3), .sand (S 1) (S 2) (S 3), .sor (S 1) (S 2) (S 3), .sxor (S 1) (S 2) (S 3), .sandn (S 1) (S 2) (S 3),
    .sshl (S 1) (S 2) (S 3), .sshr (S 1) (S 2) (S 3), .ssar (S 1) (S 2) (S 3), .smin (S 1) (S 2) (S 3), .smax (S 1) (S 2) (S 3), .sminu (S 1) (S 2) (S 3),
    .smaxu (S 1) (S 2) (S 3), .seq (S 1) (S 2) (S 3), .slt (S 1) (S 2) (S 3), .sltu (S 1) (S 2) (S 3), .ssel 0xF0 (S 31) 0xF1, .sbfe (S 1) (S 2) (S 3), .sbfi (S 1) (S 2) (S 3)] : List Instr).all
    fun i => At i (tSt [(2, 7)]) fun _ => true) = true := by decide +kernel

theorem witness_ScalarCountsAndMoves : (([.spopc (S 1) (S 2), .sclz (S 1) 0xF0, .sctz (S 1) 0xF0, .smov (S 1) (S 2),
    .smovi (S 31) 0x8000, .smovh (S 1) 0xFFFF] : List Instr).all fun i => At i (tSt [(2, -1)]) fun _ => true) = true := by decide +kernel

theorem witness_VectorArithmetic : (((List.range 5).all fun e => ([.add 0 1 2, .sub 1 1 1, .mul 15 0xC9 0xF0, .fma 1 2 3, .fms 1 2 3, .fnma 1 2 3, .min 1 2 3, .max 1 2 3,
    .clamp 1 2 3, .abs 1 2, .neg 1 2] : List Instr).all fun i => At i (tEt e) fun c => decide (etype c.grp.gmode = e)) &&
    At (.mulhi 1 2 3) (tEt 0) fun c => isInt (etype c.grp.gmode)) = true := by decide +kernel

theorem witness_VectorBits : (([.mov 1 0xC9, .and 1 2 3, .or 1 2 3, .xor 1 2 3, .not 1 2, .shl 1 2 3, .shr 1 2 3, .sar 1 2 3, .sel 1 2 3, .popc 1 2, .clz 1 2,
    .bfe 1 2 3, .bfi 1 2 3, .swaph 1 2 0, .swaph 1 2 2, .perm 1 2 3, .lanes 1 2 3] : List Instr).all fun i => (List.range 2).all fun e =>
    At i (tEt e) fun c => isInt (etype c.grp.gmode) && decide (etype c.grp.gmode ≤ 1)) = true := by decide +kernel

theorem witness_VectorBits_compares : (([.cmpeq (S 1) 2 3, .cmpne (S 1) 2 3, .cmplt (S 1) 2 3, .cmple (S 1) 2 3, .cmpun (S 1) 2 3] : List Instr).all fun i =>
    At i (tEt 2) fun _ => true) = true := by decide +kernel

theorem witness_FloatInstructions : (([.floor 1 2, .ceil 1 2, .rnde 1 2, .trunc 1 2, .fract 1 2, .copysign 1 2 3, .ldexp 1 2 3, .exp2 1 2, .log2 1 2, .sinpi 1 2,
    .cospi 1 2, .rred 1 2, .tanh 1 2, .rcp 1 2, .rsq 1 2, .sqrt 1 2, .div 1 2 3] : List Instr).all (fun i => [2, 3, 4].all fun e =>
      At i (tEt e) fun c => isFlt (etype c.grp.gmode) && decide (rnd c.grp.gmode = 0)) &&
    [3, 4].all fun e => At (.dot2 1 2 3) (tEt e) fun c => decide (etype c.grp.gmode = e)) = true := by decide +kernel

theorem witness_Conversions : (At (.cvt 1 2 8 0) (tEt 0) (fun _ => true) &&
    At (.cvtf 1 2 0 15 0) (tEt 2) (fun c => decide (fsElems (recFslot c.kern.record 0) ≤ 15)) &&
    At (.cvtf 1 2 1 0 0) (tEt 2) (fun c => decide (¬fsElems (recFslot c.kern.record 0) ≤ 0)) &&
    ([.pack 1 2 3, .unpkl 1 2, .unpkh 1 2] : List Instr).all fun i => [3, 8].all fun e => At i (tEt e) fun c => decide (3 ≤ etype c.grp.gmode)) = true := by
  decide +kernel

theorem witness_FailedChecksTrap_types : (([.shl 1 2 3, .shr 1 2 3, .sar 1 2 3, .mulhi 1 2 3] : List Instr).all (fun i => At i (tEt 2) fun c => isFlt (etype c.grp.gmode)) &&
    ([.floor 1 2, .copysign 1 2 3, .rcp 1 2, .div 1 2 3, .tanh 1 2] : List Instr).all (fun i => At i (tEt 1) fun c => !isFlt (etype c.grp.gmode)) &&
    ([.rcp 1 2, .rsq 1 2, .sqrt 1 2, .div 1 2 3] : List Instr).all (fun i => At i (tEt (2 + 16)) fun c => decide (rnd c.grp.gmode ≠ 0)) &&
    ([.bfe 1 2 3, .bfi 1 2 3, .lanes 1 2 3] : List Instr).all (fun i => At i (tEt 2) fun c => decide (2 ≤ etype c.grp.gmode)) &&
    At (.dot2 1 2 3) (tEt 2) (fun c => decide (etype c.grp.gmode ≠ 3 ∧ etype c.grp.gmode ≠ 4)) &&
    ([.pack 1 2 3, .unpkl 1 2, .unpkh 1 2] : List Instr).all fun i => At i (tEt 2) fun c => decide (etype c.grp.gmode < 3)) = true := by decide +kernel

theorem witness_Branches : (([.bra 1, .brz (S 1) 1, .brnz (S 1) 0xFFFF, .call (S 2) 3] : List Instr).all (fun i => At i (tSt [(1, 1)]) fun _ => true) &&
    At (.ret (S 1)) (tSt [(1, 4)]) (fun c => decide (((c.s (S 1)).setWidth 57 : VA).extractLsb' 0 2 = 0)) &&
    At (.ret (S 1)) (tSt [(1, 3)]) (fun c => decide (((c.s (S 1)).setWidth 57 : VA).extractLsb' 0 2 ≠ 0)) &&
    At (.brx (S 1) (S 2) 10) (tSt [(1, 1)]) (fun _ => true) && At (.brx (S 1) (S 2) 2) (tSt [(2, 1)]) (fun _ => true)) = true := by decide +kernel

theorem witness_Branches_passing :
    (((placedGroup 0).modClause fun c => { c with words := [0, 0] }).clause.any (fun c => decide (c.idx + 1 < c.words.length)) &&
    [Slot.a, .b, .h].all fun sl => (inSlot sl (placedGroup 0)).clause.any fun c => decide (c.words.length ≤ c.idx + 1) && c.close && decide (c.slot = sl)) = true := by
  decide +kernel

/-- A group in slot A with slot B live, in slot B, in a handler; with or without the other slot parked at a `join`. -/
def tDiv (sl : Slot) (blive aj bj : Bool) (dsp : W32 := 0) : State :=
  tSt [(31, 15)] (fun g => { inSlot sl g with blive := blive, ajoin := aj, bjoin := bj, dsp := dsp, mode := if sl == .h then .handler else .normal })

theorem witness_Divergence_join : (At (.split 1) (tDiv .h false false false) (fun c => decide (c.slot = .h)) && At .join (tDiv .h false false false) (fun c => decide (c.slot = .h)) &&
    At (.split 1) (tDiv .a true false false) (fun c => decide (c.slot ≠ .h) && c.grp.blive) &&
    At (.split 1) (tDiv .a false false false) (fun c => decide (c.slot ≠ .h) && !c.grp.blive) &&
    At .join (tDiv .a false false false) (fun c => !c.grp.blive) &&
    At .join (tDiv .a true false false) (fun c => c.grp.blive && !c.grp.bjoin) && At .join (tDiv .b true false false) (fun c => c.grp.blive && !c.grp.ajoin) &&
    At .join (tDiv .a true false true) (fun c => c.grp.blive && c.grp.bjoin) && At .join (tDiv .b true true false) (fun c => c.grp.blive && c.grp.ajoin)) = true := by
  decide +kernel

theorem witness_Divergence_stack : (At .dpush (tDiv .b true false false) (fun c => decide (c.slot ≠ .a)) &&
    At .dpush (tDiv .a true false false 8) (fun c => decide (c.slot = .a ∧ c.grp.dsp.toNat % 16 ≠ 0)) &&
    At .dpush (tDiv .a true false false 4096) (fun c => decide (c.grp.dsp.toNat % 16 = 0 ∧ recStash c.kern.record < c.grp.dsp.toNat + 16)) &&
    At .dpush (tDiv .a true false false 4080) (fun c => decide (c.grp.dsp.toNat + 16 ≤ recStash c.kern.record) &&
      ((tDiv .a true false false 4080).heldBlock c.g (.stash c.team.sid 4080 (ownVa 4080))).isNone &&
      unitsFit c (tDiv .a true false false 4080) [.stash c.team.sid 4080 (ownVa 4080)]) &&
    (let s := tSh false [] fun g => { g with dsp := 16 }
     At .dpush s fun c => c.g.sh && unitsFit c s [.stash c.team.sid 16 (ownVa 16)]) &&
    At .dpop (tDiv .a true false false 16) (fun c => c.grp.blive) && At .dpop (tDiv .a false false false 8) (fun c => decide (c.grp.dsp.toNat % 16 ≠ 0)) &&
    At .dpop (tDiv .a false false false 0) (fun c => decide (c.grp.dsp = 0)) &&
    At .dpop (tDiv .a false false false 4096) (fun c => decide (16 ≤ c.grp.dsp.toNat ∧ c.grp.dsp.toNat ≤ recStash c.kern.record) &&
      ((tDiv .a false false false 4096).heldBlock c.g (.stash c.team.sid 4080 (ownVa 4080))).isNone && sane (tDiv .a false false false 4096) (.stash c.team.sid 4080 (ownVa 4080))) &&
    (let s := tSh false [] (fun g => { g with dsp := 16 }) fun g => { g with side := [4, 0x100000001, 9] }
     At .dpush s (fun c => c.g.sh && decide (c.slot = .a ∧ c.grp.dsp = 16)) &&
     At .dpop s fun c => c.g.sh && !c.grp.blive && (s.group? c.g.leader).any fun ld => decide (2 < ld.side.length))) = true := by decide +kernel

theorem witness_ExitYieldModeNop : (At .exit (tSt) (fun c => mayCommit c tSt) && At .yield tSt (fun _ => true) && At (.mode 0x1C48) tSt (fun _ => true) &&
    At .nop tSt (fun _ => true)) = true := by decide +kernel

theorem witness_ExitYieldModeNop_commit : (At .nop tSt (fun c => decide (tSt.group? c.g = some c.grp ∧ c.grp.bnd ≠ .passed) && c.grp.drained &&
      !tSt.commitHeldUp c.g c.grp && !c.shadowed) &&
    At .nop (tSt [] fun g => { g with ops := [{ id := 1, flag := none, classA := true, task := 0 }] }) (fun c => !c.grp.drained)) = true := by decide +kernel

theorem witness_Votes : (([.ballot (S 1) 0xC9 0, .ballot (S 1) 0xC9 1, .vall (S 1) 2, .vany (S 1) 2] : List Instr).all fun i => At i tSt fun _ => true) = true := by
  decide +kernel

theorem witness_ShufflesAndLanes_shuffles : (([.shfl 1 2 0xC9, .shflx 1 2 31, .shflu 1 2 0, .shflu 1 2 31, .shfld 1 2 0, .shfld 1 2 31] : List Instr).all fun i =>
    At i (tSt [] fun g => { g with dead := 0x80000001 }) fun c => decide (c.em = 0x7FFFFFFE)) = true := by decide +kernel

theorem witness_ShufflesAndLanes_lanes : (At (.rdlane 1 (S 1) 191) (tSt [(1, 32)]) (fun c => !c.g.sh && decide (32 ≤ (c.s (S 1)).toNat)) &&
    At (.wrlane 1 (S 1) 0) (tSt [(1, 1)]) (fun c => decide (c.team.groups.length ≤ (c.s (S 1)).toNat)) &&
    At (.rdlane 1 (S 1) 15) tSt (fun c => c.team.groups[0]?.isSome && decide (c.em ≠ 0) && roomA c tSt) &&
    At (.wrlane 1 (S 1) 15) tSt (fun c => decide ((c.s (S 1)).toNat = 0) && roomB c tSt)) = true := by decide +kernel

theorem witness_ReductionsAndScans : (([.lsum 1 2, .lsum (S 1) 2, .lmax 1 2, .lmin (S 1) 2, .scan 1 2 0, .scan 1 2 3, .mcount 1 (S 1) 0, .mcount 1 (S 1) 1] : List Instr).all
    fun i => At i tSt fun _ => true) = true := by decide +kernel

theorem witness_frames : (At (.sadd (S 1) (S 2) (S 3)) tSt (fun _ => Runs (.sadd (S 1) (S 2) (S 3)) tSt) && At (.add 1 2 3) (tEt 0) (fun _ => Runs (.add 1 2 3) (tEt 0)) &&
    At (.shflx 1 2 1) tSt (fun _ => Runs (.shflx 1 2 1) tSt) && At (.bra 1) tSt (fun _ => Runs (.bra 1) tSt) && At (.mode 0) tSt (fun _ => Runs (.mode 0) tSt)) = true := by
  decide +kernel

/-- A group whose scalar 1 has failed. -/
def tBad : State := tSt [] fun g => { g with sbad := 2 }

theorem witness_FailedChecksTrap : (tBad.ctx.any (fun c => decide (precheck c (.sadd (S 1) (S 1) (S 1)) = none) && c.grp.readsBad c.slot (.sadd (S 1) (S 1) (S 1))) &&
    tSt.ctx.any (fun c => decide (precheck c (.swaph 1 2 3) = some ILLOP ∧ precheck c (.sadd 0xC9 (S 1) (S 1)) = some ILLOPERAND)) &&
    (tStOf (tRec 0 0 0 0 0) [] id id id).ctx.any (fun c => !recSuper c.kern.record && decide (precheck c (.bzreq 0xFF 0) = some PRIV))) = true := by decide +kernel

/-! ### Witnesses: clauses, groups, operations, registers -/

/-- A group whose clause is fetched and not started, with header `h`. -/
def tCl (h : W32) (f : Group → Group := id) : State :=
  withIn (.clauseStart tG) (tSt [] fun g => f (g.modClause fun c => { c with started := false, head := h }))

theorem witness_ClauseStarts_starts :
    ([tCl 0x00100000 fun g => { g with ops := [{ id := 1, flag := some 0, classA := true, task := 0 }] }, tCl 0, tCl 0 fun g => g.setS 30 0].zip [0, 1, 2]).all
      (fun p => decide (p.1.input = some (.clauseStart tG)) && On p.1 tG fun t g => g.free && !p.1.shadowParked tG && !t.ended && decide (t.ctx = .running) &&
        g.clause.any fun c => !c.started && (if p.2 = 0 then !g.waitMet c.head else g.waitMet c.head && (decide (p.2 = 1) == decide (g.em c.slot ≠ 0)))) = true := by
  decide +kernel

/-- A group without a clause at 0x900000, where the header and words of a clause lie. -/
def tFetch (ws : List Nat) (resume : Bool) : State :=
  withMem (tPa + 0x100000) (ws.flatMap fun w => leBytes w 4) (withIn (.clauseFetch tG) (tSt [] fun g =>
    { g with clause := none, pcA := { hdr := 0x900000, idx := 0, resume := resume } }))

theorem witness_ClauseStarts_fetches :
    ([tFetch [0xA0] false, tFetch [0x001, 0x0E000000] false, tFetch [0x000, 0x40000000] false, tFetch [0x100, 0x0B000000, 0x0E000000] false,
      tFetch [0x080, 0x0E000000, 1, 2, 3, 4] false, tFetch [0x000, 0x0E000000] true].zip [0, 0, 2, 1, 2, 3]).all (fun p =>
      decide (p.1.input = some (.clauseFetch tG)) && On p.1 tG fun t g => g.free && decide (g.clause = none) && g.alive && !p.1.shadowParked tG && !t.ended &&
        (p.1.bezel? t.bezel).any fun b => (p.1.kernel? t.bezel t.kslot).any fun k =>
          let u := p.1.settleSlots tG t k b
          (u.group? tG).any fun g1 => g1.alive && (u.pickSlot g1 t k b).any fun sl => Ok (u.fetchWord t k b (g1.pcOf sl).hdr) fun h =>
            if p.2 = 0 then decide (4 < headLits h ∨ h.toNat % 16 ≠ 0)
            else decide (headLits h ≤ 4 ∧ h.toNat % 16 = 0) && Ok (u.fetchMany t k b ((g1.pcOf sl).hdr + 4) (headCount h + headLits h)) fun ws =>
              (badClause h (ws.take (headCount h)) == decide (p.2 = 1)) && ((g1.pcOf sl).resume == decide (p.2 = 3))) = true := by decide +kernel

/-- A state with a second group, that waits to enter the active set. -/
def tTwo (e : Event) (f : Group → Group) : State :=
  withIn e { tSt [] f with teams := (tSt [] f).teams.map fun t => { t with groups := t.groups ++ [{ placedGroup 0 with num := 4, inSet := false, life := .pending }] } }
theorem witness_SwapsAndReturns_swaps :
    (let s1 := tTwo (.groupSwap 0 0 none) id
     let s2 := tTwo (.groupSwap 0 0 (some tG)) fun g => { g with wait := .boundary }
     let s3 := tTwo (.groupSwap 0 0 (some tG)) fun g => { g with clause := none, yielded := true }
     let s4 := tSt [] (fun g => { g with alive := false, clause := none }) (withIn (.groupExitDrain tG))
     decide (s1.longest 0 0 = some tG2) && decide (((s1.onSub 0 0).filter fun p => p.2.inSet).length < 8) &&
     decide (s2.longest 0 0 = some tG2) && On s2 tG (fun _ g => (s2.onSub 0 0).contains (tG, g) && g.inSet && decide (g.life = .active) && !s2.readyGroup tG g) &&
     decide (s3.longest 0 0 = some tG2) && On s3 tG (fun _ g => g.inSet && s3.readyGroup tG g && g.yielded && decide (g.clause = none)) &&
     On s4 tG fun t g => !g.alive && !g.blive && decide (g.life ≠ .exited ∧ g.bnd ≠ .waiting ∧ g.ops = [] ∧ g.mq = [] ∧ g.deferredTrap = none ∧ t.ctx = .running) && !t.ended) = true := by
  decide +kernel

theorem witness_SwapsAndReturns_returns :
    (let v : Deliver := .vec 1 0x8000000F (Lanes.splat 7) .g
     let s1 := tSt [] (tOp [v]) (withIn (.operationCompletion tG 1 (-1)))
     let s2 := tSt [] (tOp [v]) (withIn (.operationCompletion tG 1 0x80000001))
     let s3 := tSt [] (tOp [.scal 31 5]) (withIn (.operationCompletion tG 1 (-1)))
     [s1, s2, s3].all fun s => On s tG fun _ g => (g.op? 1).any fun o => decide (o.what = .ready ∧ (g.ops.filter fun x => x.id == o.id) = [o]) &&
       (o.coveredBy (if s = s2 then 0x80000001 else -1) == decide (s ≠ s2))) = true := by decide +kernel

theorem witness_RegisterLending : (At (.rgrow (S 1) 184) tSt (fun c => !c.g.sh && decide (c.grp.vmax < c.grp.v.length + 184)) &&
    At (.rgrow (S 1) 8) (tSt [] fun g => { g with vmax := 24 }) (fun c => decide (c.grp.v.length + 8 ≤ c.grp.vmax)) &&
    At (.trgrow (S 1) 16) tSt (fun c => decide (c.grp.tmax < c.grp.t.length + 16)) && At (.trgrow (S 1) 1) (tSt [] fun g => { g with tmax := 2 }) (fun _ => true) &&
    At (.rshrink 16) tSt (fun c => decide (c.grp.v.length < 16 + 8)) &&
    At (.rshrink 8) (tSt [] (tOp [.vec 8 1 (Lanes.splat 0) .g])) (fun c => decide (8 + 8 ≤ c.grp.v.length) && c.grp.writesAbove (c.grp.v.length - 8)) &&
    At (.rshrink 8) (tSt [] (tOp [.vec 7 1 (Lanes.splat 0) .g])) (fun c => !c.grp.writesAbove (c.grp.v.length - 8)) &&
    At (.trshrink 2) tSt (fun c => decide (c.grp.t.length < 2)) && At (.trshrink 1) tSt (fun c => decide (1 ≤ c.grp.t.length ∧ c.grp.mq = []))) = true := by decide +kernel

/-- A team with a request of its group, and a register or a tile free. -/
def tReq (tiles : Bool) : State :=
  tStOf (tRec 0 0 0 sup 0) [] (fun g => { g with vmax := 24, tmax := 2, wait := if tiles then .tiles 1 else .regs 8 })
    (fun t => { t with requests := [{ grp := 0, tiles := tiles, n := if tiles then 1 else 8, dst := S 1 }] }) (withIn (.shareGrant 1 0 tiles))

theorem witness_RegisterLending_grant : ([false, true].all fun tiles => On (tReq tiles) tG fun t _ => decide (t.ctx = .running) &&
    (t.oldest 0 tiles).any fun q => ((tReq tiles).kernel? t.bezel t.kslot).isSome && decide (q.n ≤ t.freeUnits 0 tiles)) = true := by decide +kernel

theorem witness_SystemRegisters : (([.vshape (S 1) 0xC9 0, .vshape (S 1) 0xC9 1, .vshape (S 1) 2 2, .sread (S 1) 0, .sread (S 1) 10, .sread (S 1) 16, .sread (S 1) 31,
    .swrite (S 1) 4, .slit (S 1) 0, .slit (S 1) 2] : List Instr).all (fun i => At i tSt fun _ => true) &&
    (([.sread (S 1) 0, .sread (S 1) 1, .sread (S 1) 3] : List Instr).all fun i => At i tSt (fun c => !c.g.sh) && At i (tSh true) (fun c => !c.g.sh && c.shadowed) &&
      (let s := tSh false [] id fun g => { g with side := [7] }
       At i s fun c => c.g.sh && (s.group? c.g.leader).any fun ld => decide (ld.side = [7]))) &&
    At (.slit (S 1) 2) (tSt [] fun g => g.modClause fun c => { c with lits := [1, 2, 3] }) (fun c => decide (¬2 + 1 < c.cl.lits.length))) = true := by decide +kernel

theorem witness_EmptyMasksAndShadows : (let s := tSt [(30, 0)]
    (([.ld 1 (S 1) 2, .ld16 1 (S 1) 2, .ld8 1 (S 1) 2, .ldb 1 (S 1) (S 2)] : List Instr).all fun i => At i s fun c => decide (c.em = 0) && !c.g.sh && roomA c s) &&
    (([.sunmap (S 1), .sflush (S 1), .smap (S 1) (S 2) (S 3), .cpy (S 1) (S 2) (S 3), .st 1 (S 1) 2, .st16 1 (S 1) 2, .st8 1 (S 1) 2, .stb 1 (S 1) (S 2)] : List Instr).all
      fun i => At i s fun c => decide (c.em = 0) && !c.shadowed && roomB c s)) = true := by decide +kernel

/-- A shadow whose leader has an entry for the PC `pc`. -/
def tLvq (pc : W64) : State := tSh false [] id fun g => { g with lvq := [{ pc := pc, dest := [.vec 1 1 (Lanes.splat 3) .g], filled := true, op := 1 }] }

theorem witness_EmptyMasksAndShadows_lvq : (([.ld 1 (S 1) 2, .ld16 1 (S 1) 2, .ld8 1 (S 1) 2, .lds (S 1) (S 1) (S 2), .ldb 1 (S 1) (S 2), .tlincReserve (S 1) (S 2),
    .tlrd (S 1) (S 2) 0] : List Instr).all fun i => [4, 8].all fun pc => At i (tLvq pc) fun c => c.g.sh && ((tLvq pc).group? c.g.leader).any fun ld =>
      match ld.lvq with | e :: _ => e.filled && (decide (e.pc = c.pc.setWidth 64) == decide (pc = 4)) | [] => false) = true := by decide +kernel

/-! ### Witnesses: memory -/

/-- A load or store through a scalar at the last bytes of a page, and at the own stash. -/
theorem witness_Loads : ((([(.ld 1 (S 1) 0xF0, 4, 0xFFFFFC), (.ld16 1 (S 1) 0xC9, 2, 0x900000), (.ld8 1 (S 1) 0xC9, 1, 0xFFFFE0), (.ld 1 (S 1) 0xF0, 4, (ownVa 4092).toNat)] : List (Instr × Nat × Nat)).all
      fun p => let s := tSt [(1, BitVec.ofNat 64 p.2.2), (30, 1)]
        At p.1 s fun c => decide (c.em ≠ 0) && !c.g.sh && roomA c s &&
          Ok (checkLanes c s .load (lanesOf c.em) (laneAd (c.s (S 1)) (c.v (match p.1 with | .ld _ _ b => b | .ld16 _ _ b => b | _ => 0xC9))) p.2.1) fun x => roomA c x.1) &&
    (let s := tSt [(1, 0x900000), (2, 0xFF80)]
     At (.ldb 1 (S 1) (S 2)) s fun c => decide ((scalAd (c.s (S 1)) (c.s (S 2))).toNat < 2 ^ 57 ∧ (scalAd (c.s (S 1)) (c.s (S 2))).toNat % 128 = 0) &&
       Ok (checkLanes c s .load (lanesOf c.em) (blockAd (scalAd (c.s (S 1)) (c.s (S 2)))) 4))) = true := by decide +kernel

theorem witness_LoadsComplete : ((([(.ld 1 (S 1) 0xF0, 4, 0xFFFFFC), (.ld16 1 (S 1) 0xC9, 2, 0x900000), (.ld8 1 (S 1) 0xC9, 1, 0xFFFFE0), (.ld 1 (S 1) 0xF0, 4, (ownVa 4092).toNat)] : List (Instr × Nat × Nat)).all
      fun p => let s := tSt [(1, BitVec.ofNat 64 p.2.2), (30, 1)]
        At p.1 s fun c => decide (c.em ≠ 0 ∧ s.posted = []) && !c.g.sh && roomA c s && (lanesOf c.em).all fun k =>
          (reaches c s .load p.2.1 (laneAd (c.s (S 1)) (c.v (match p.1 with | .ld _ _ b => b | .ld16 _ _ b => b | _ => 0xC9)) k)).any fun q => sane s q) &&
    (let s := tSt [(1, 0x900000), (2, 0xFF80)]
     At (.ldb 1 (S 1) (S 2)) s (fun c => decide ((scalAd (c.s (S 1)) (c.s (S 2))).toNat < 2 ^ 57 ∧ (scalAd (c.s (S 1)) (c.s (S 2))).toNat % 128 = 0) &&
       (lanesOf c.em).all fun k => (reaches c s .load 4 (blockAd (scalAd (c.s (S 1)) (c.s (S 2))) k)).any fun q => sane s q) &&
     At (.lds (S 3) (S 1) 0xF0) s fun c => (reaches c s .scalarLoad 8 (scalAd (c.s (S 1)) (c.s 0xF0))).any fun q => sane s q)) = true := by decide +kernel

/-- A sector of the first page that is poisoned. -/
def poisoned (s : State) : State := s.setSidecar (tPa / 256) { poison := true }

theorem witness_Loads_scalar : ([tSt [(1, 0x800000)] id poisoned, tSt [(1, 0x800008)] id].all fun s => At (.lds (S 3) (S 1) 0xF0) s fun c => !c.g.sh && roomA c s &&
    Ok (checkLanes c s .scalarLoad [0] (fun _ => scalAd (c.s (S 1)) (c.s 0xF0)) 8) fun x => match x.2.1 with
      | (0, p) :: _ => ((x.1.fillPlaces [p]).placePoisoned p == decide (c.s (S 1) = 0x800000))
      | _ => false) = true := by decide +kernel

theorem witness_Stores : (([(.st 1 (S 1) 0xC9, 4, 0xFFFFE0), (.st16 1 (S 1) 0xC9, 2, 0x900000), (.st8 1 (S 1) 0xC9, 1, 0xFFFFE0)] : List (Instr × Nat × Nat)).all (fun p =>
      [tSt [(1, BitVec.ofNat 64 p.2.2), (30, 1)], tRw [(1, BitVec.ofNat 64 p.2.2), (30, 1)]].all fun s => At p.1 s fun c => decide (c.em ≠ 0) && !c.g.sh && roomB c s &&
        (let pl := (lanesOf c.em).map fun k => reaches c s .store p.2.1 (laneAd (c.s (S 1)) (c.v 0xC9) k)
         pl.all (·.isSome) && unitsFit c s (pl.filterMap id)) &&
        Ok (checkLanes c s .store (lanesOf c.em) (laneAd (c.s (S 1)) (c.v 0xC9)) p.2.1) fun x => Ok (countUnits c x.1 (x.2.1.map (·.2)))) &&
    (let s := tRw [(1, 0x900000)]
     At (.stb 1 (S 1) 0xF0) s (fun c => decide ((scalAd (c.s (S 1)) (c.s 0xF0)).toNat % 128 = 0) &&
       let pl := (lanesOf c.em).map fun k => reaches c s .store 4 (blockAd (scalAd (c.s (S 1)) (c.s 0xF0)) k)
       pl.all (·.isSome) && unitsFit c s (pl.filterMap id)) &&
     At (.sts (S 2) (S 1) 0xF0) s fun c => roomB c s && (reaches c s .store 8 (scalAd (c.s (S 1)) (c.s 0xF0))).any fun p => unitsFit c s [p]) &&
    (let s := tSh false [(1, 0x900000)]
     At (.st8 1 (S 1) 0xC9) s (fun c => c.g.sh && unitsFit c s (shadowPlaces c s (lanesOf c.em) (laneAd (c.s (S 1)) (c.v 0xC9)))) &&
     At (.sts (S 2) (S 1) 0xF0) s fun c => c.g.sh && unitsFit c s (shadowPlaces c s [0] fun _ => scalAd (c.s (S 1)) (c.s 0xF0)))) = true := by decide +kernel

theorem witness_StoreFrame : (At (.st 1 (S 1) 0xC9) (tRw) (fun c => !recOwnTask c.kern.record) &&
    At (.st 1 (S 1) 0xC9) tSt (fun c => recOwnTask c.kern.record && decide (tSt.mailboxAt tPa = none ∧ tSt.mappedBlock (tPa / 256) = none ∧ (tSt.sidecar (tPa / 256)).owner = 0) &&
      !tSt.posted.any (fun _ => true) && (tSt.team? 1).isSome && ((holdStores c tSt [(.stash 1 4092 (ownVa 4092), [1, 2, 3, 4])]).team? 1).isSome)) = true := by decide +kernel

theorem witness_StoreFrame_bytes : (At (.st 1 (S 1) 0xC9) tRw (fun c => !recOwnTask c.kern.record && decide (tRw.group? c.g = some c.grp) && (tRw.team? 1).any fun t => Memory.wf t.stash) &&
    At (.st 1 (S 1) 0xC9) tSt (fun c => recOwnTask c.kern.record && ((tSt.team? 1).any fun t => Memory.wf t.stash) && !tSt.closedTo c.team.bezel tPa && !tSt.closedTo c.team.bezel 0x3FFFFF00 && tSt.closedTo c.team.bezel 0x40000000) &&
    (let s := tStOf (tRec 0 0 0 sup 0) [] id (fun t => { t with mapped := [{ off := 0, va := 0x900000, sector := tPa / 256, owner := 0, filled := true, dirty := true }] }) id
     At (.st 1 (S 1) 0xC9) s fun c => recOwnTask c.kern.record && !s.closedTo c.team.bezel tPa && decide (tPa / 2 ^ 43 = s.devId ∧ s.mailboxAt tPa = none) &&
       (s.mappedBlock (tPa / 256)).isSome && Memory.wf s.mem && mapWfFrom ({} : Sidecar) none s.side && s.teams.all fun t => Memory.wf t.stash)) = true := by decide +kernel

/-- Aligned, misaligned, beyond the map, beyond the stash, in the stash, on no page. -/
def tAd (i : Nat) : W64 := [0x900000, 0x900002, 0x200000000000000, ownVa 4096, ownVa 0, 0x2000000][i]?.getD 0

theorem witness_AccessChecks : (let ad := tAd
    At .nop tSt fun c => let pl := fun i => tSt.place c.team c.kern c.bez .load (ad i)
      decide (2 ^ 57 ≤ (ad 2).toNat ∧ (ad 0).toNat < 2 ^ 57 ∧ (ad 0).toNat % 4 = 0 ∧ (ad 1).toNat % 4 ≠ 0 ∧ isWindow (ad 3) = true ∧ isWindow (ad 4) = true) &&
      (match pl 3 with | .trap _ => true | _ => false) && (match pl 4 with | .ok p => (tSt.heldBlock c.g p).isNone | _ => false) &&
      (match pl 5 with | .park _ _ => true | _ => false) && (match pl 0 with | .ok p => (tSt.heldBlock c.g p).isNone | _ => false)) = true := by decide +kernel

theorem witness_AccessChecks_pages : (let s := tSt [] id fun s => { s with tlb := [{ bezel := 0, core := 0, page := 0x800000, leaf := { raw := BitVec.ofNat 64 (2 + 0x100 * 2 ^ 23 + 2 ^ 48), level := 2 } }] }
    At .nop s fun c => let pl := fun i => s.place c.team c.kern c.bez .store (tAd i)
      (match pl 0 with | .trap _ => true | _ => false) && (match pl 5 with | .park _ _ => true | _ => false) && !isWindow (tAd 0)) = true := by decide +kernel

/-- A team with one filled mapped block at offset 0. -/
def tMapped (sc : List (Nat × W64)) (dirty : Bool) (f : Group → Group := id) (h : State → State := id) : State :=
  tStOf (tRec 0 0 0 sup 0) sc f (fun t => { t with mapped := [{ off := 0, va := 0x900000, sector := tPa / 256 + 4096, owner := 0, filled := true, dirty := dirty }] }) h

theorem witness_MappedBlocks : (let s := tMapped [(1, 0x100000000)] true
    (([.sflush (S 1), .sunmap (S 1)] : List Instr).all fun i => At i s fun c => decide (c.em ≠ 0) && roomB c s && Ok (blockRange c (c.s (S 1))) fun r => decide (r = (0, 1)) && mayCommit c s && !c.g.sh &&
      ((c.commit s false).team? c.g.team).any fun t => decide (t.heldIn c.g 0 1 = none)) &&
    (let s := tSt [(1, 0x800000), (2, 3840), (3, 1)]
     At (.smap (S 1) (S 2) (S 3)) s fun c => roomB c s && decide ((c.s (S 1)).toNat % 256 = 0 ∧ 3840 % 256 = 0 ∧ 3840 + 256 ≤ recStash c.kern.record ∧ c.team.mappedIn 3840 1 = [] ∧
       isWindow (c.s (S 1) + 255) = false ∧ smapSector s c (c.s (S 1) + 0) = .ok (.glob tPa false 0 0x800000)) && mayCommit c s && decide ((c.commit s false).mappedBlock (tPa / 256) = none)) &&
    (let s := tSh false [] fun g => { g with bnd := .passed }
     ([.sunmap (S 1), .sflush (S 1), .smap (S 1) (S 2) (S 3), .cpy (S 1) (S 2) (S 3)] : List Instr).all fun i => At i s fun c => decide (c.em ≠ 0) && c.g.sh && mayCommit c s) &&
    On (tMapped [] true id (withIn (.stashRecall 1 0 true))) tG (fun t _ => t.mapped.any (fun m => m.off == 0) && t.undo.isEmpty) &&
    On (tMapped [] true (fun g => { g with wait := .block 1 0 }) (withIn (.blockedAccessResume tG))) tG (fun t g => decide (g.wait = .block 1 0) && !t.blockHeld tG 0)) = true := by
  decide +kernel

/-- A team in whose block 0 another group has an open task. -/
def tHeld : State := tStOf (tRec 0 0x900000 0 sup 0) [] (fun g => { g with wait := .block 1 0 })
  (fun t => { t with undo := [{ owner := tG2, blk := 0, old := [] }] }) (withIn (.blockedAccessResume tG))

theorem witness_MappedBlocks_held : On tHeld tG (fun t g => decide (g.wait = .block 1 0) && t.blockHeld tG 0) = true := by decide +kernel

theorem witness_PrefetchAndFences : (At (.pref (S 1) 2) tSt (fun c => roomB c tSt) &&
    (let s := tSt [] id withPosted
     At (.fence 1 1 4) s (fun c => mayCommit c s && !c.g.sh && ((c.commit s false).publish c.g c.core 4).hasPosted c.g 4) &&
     At (.fence 0 3 0) s (fun c => mayCommit c s) && At (.fence 1 3 4) tSt fun c => mayCommit c tSt && !((c.commit tSt false).publish c.g c.core 4).hasPosted c.g 4) &&
    (let s := tSh false [] id fun g => { g with side := [0] }
     At (.fence 0 2 0) s fun c => c.g.sh && (s.group? c.g.leader).any fun ld => decide (ld.side ≠ []))) = true := by decide +kernel
/-- A shape record at 0x900000: one element of 4 bytes from `src` to `dst`. -/
def withShape (src dst : Nat) (s : State) : State :=
  withMem (tPa + 0x100000) (leBytes src 8 ++ leBytes dst 8 ++ leBytes (1 + 2 ^ 32) 8 ++ leBytes 1 8 ++ leBytes (1 + 2 ^ 16 + 2 ^ 32 + 2 * 2 ^ 48) 8 ++ List.replicate 24 0) s

theorem witness_Copies : (let s := tSt [(1, 0x900000), (3, ownVa 0)] id (withShape 0x800000 0x800100)
    At (.cpy (S 3) (S 1) (S 2)) s fun c => decide (c.em ≠ 0 ∧ (c.s (S 1)).toNat % 64 = 0) && !c.g.sh && roomB c s && (reads c s .engine (c.s (S 1)) 64).any fun x =>
      !shapeBad x.1 (c.s (S 2)) && decide ((shapeRec x.1).count * (shapeRec x.1).esize ≤ 1048576 ∧ (shapeRec x.1).src.toNat % (shapeRec x.1).esize = 0 ∧
        (shapeRec x.1).dst.toNat % (shapeRec x.1).esize = 0 ∧ ((shapeRec x.1).str 1).toNat % (shapeRec x.1).esize = 0 ∧ ((shapeRec x.1).str 2).toNat % (shapeRec x.1).esize = 0) &&
      Ok (cpyObject c x.2 (c.s (S 3))) fun o => o.isSome && mayCommit c x.2 && roomB c ((c.commit x.2 false).publish c.g c.core 3)) = true := by decide +kernel

/-- A copy command of the group, with this record. -/
def withCpy (r : List Byte) (o : Option Obj) (s : State) : State :=
  { s with cmds := [{ id := 1, by_ := { g := tG, pc := {}, op := some 1, bezel := 0, kslot := 0, handle := 0, key := 0, core := 0 }, what := .copy r 0 o }], nextCmd := 2 }

/-- The record of `withShape`. -/
def shapeBytes (src dst : Nat) : List Byte := memBytes (withShape src dst tSt).mem (tPa + 0x100000) 64

theorem witness_Copies_events : ([(shapeBytes 0x800000 0x800100, 0), (shapeBytes 0x800000 0x200000000000000, 1), (shapeBytes 0x800000 0x2000000, 2)].all fun q =>
    let s := tSt [] id fun s => withIn (.copyEngineComplete 1) (withCpy q.1 (some (.stash 1 0 (ownVa 0))) s)
    (s.cmd? 1).any fun cmd => decide (cmd.what = .copy q.1 0 (some (.stash 1 0 (ownVa 0))) ∧ cmd.fault = none) && !cmd.migr && !cmd.stopped && !s.objHeld (some (.stash 1 0 (ownVa 0))) &&
      (s.owner? cmd.by_).any fun w => match (cmd.openMoves q.1 0).mapM (fun m => s.copyElem w.1 w.2.1 w.2.2 cmd.by_.since m.1 m.2 (shapeRec q.1).esize) with
        | .ok _ => q.2 == 0 | .error (.prot _ _) => q.2 == 1 | .error (.park _ _ _ _) => q.2 == 2 | _ => false) = true := by decide +kernel

/-- An enabled inbound mailbox with nothing in it, its ring at 0x810000. -/
def inbox : State → State := withSync [0, 0, 0, 0, 0, 8, 0x810000, 0]

/-- A fault entry. -/
def tFault : FaultEntry := { fid := 1, granule := 5, va := 0x50000, count := 1, cause := 1, level := 1, write := false, fetch := false, engine := false, smap := false, handle := 0, place := 0, joined := [] }

/-- The bezel changed. -/
def inBezel (f : Bezel → Bezel) (s : State) : State := s.modBezel 0 f

theorem witness_MemoryEvents : (let z := fun s : State => s.bezel? 0
    (let s := withIn (.pageWalkComplete 0 0 0x40000000) (tTables tSt)
     (z s).any fun b => decide (s.cached b.num 0 0x40000000 = none) && match s.walk b 0x40000000 with | .leaf _ => true | _ => false) &&
    (let s := withIn (.faultRecordDelivery 0) (inbox (tTables (inBezel (fun b => { b with msgs := [(7, [1])] }) tSt)))
     (z s).any fun b => decide (b.msgs = [(7, [1])] ∧ b.faults = []) && (s.mbPost b b.faultMb 7 [1]).isSome) &&
    (let s := withIn (.faultRecordDelivery 0) (inbox (tTables (inBezel (fun b => { b with msgs := [(1, tFault.body)], faults := [tFault] }) tSt)))
     (z s).any fun b => decide ((b.faults.filter fun x => x.fid == 1) = [tFault]) && (s.mbPost b b.faultMb 1 tFault.body).isSome) &&
    (let s := { tSt with leases := [{ core := 0, sector := 5, data := [], start := 0 }], input := some (.leaseExpiry 0 5) }
     s.leases.any fun l => decide (s.input = some (.leaseExpiry l.core l.sector))) &&
    (let s := withIn (.postedStoreArrival (.own 0)) { tSt with posted := [{ src := tG, kernel := (0, 0), cells := [(tPa, 1)], owner := 0 }] }
     s.posted[0]?.any fun p => p.inside s.devId && !p.acked && decide (s.posted.take 0 = []) && p.sectors.all fun x => !s.recallWaits x)) = true := by decide +kernel

/-! ### Witnesses: objects and tiles -/

theorem witness_Barriers : (let s := tSt [(1, ownVa 4080), (2, 8), (3, 0x80000000), (4, 0x1000000), (5, 7)]
    At (.binit (S 1) (S 5) (S 2)) s (fun c => decide (8 ≤ (c.s (S 2)).toNat)) &&
    At (.binit (S 1) (S 2) (S 5)) s (fun c => decide ((c.s (S 5)).toNat < 8) && roomB c s && (obj c s .store (c.s (S 1))).isSome) &&
    ([.barr (S 1) 0, .barr (S 4) 1, .barx (S 4) (S 2)] : List Instr).all (fun i => At i s fun c => roomB c s && !c.g.sh &&
      (obj c s .store (match i with | .barr a _ => c.s a | .barx a b => if (c.s b).getLsbD 31 then 1 else c.s a | _ => 1)).any fun x => mayCommit c x.2 && !x.1.away s.devId) &&
    At (.barx (S 1) (S 3)) s (fun c => (c.s (S 3)).getLsbD 31) &&
    (let s := tSh false [] fun g => { g with bnd := .passed }
     ([.barr (S 1) 0, .barx (S 1) (S 2)] : List Instr).all fun i => At i s fun c => c.g.sh && mayCommit c s) &&
    At (.bwait (S 1) 0xF0) s (fun c => (obj c s .syncRead (c.s (S 1))).any fun x => mayCommit c x.2 &&
      decide (((c.commit x.2 true).atWait (.obj x.1)).phaseOf c.grp (.obj x.1) - (c.s 0xF0).setWidth 32 < 0x80000000)) &&
    At (.bwait (S 1) 0xF1) s (fun c => (obj c s .syncRead (c.s (S 1))).any fun x => mayCommit c x.2 &&
      decide (0x80000000 ≤ ((c.commit x.2 true).atWait (.obj x.1)).phaseOf c.grp (.obj x.1) - (c.s 0xF1).setWidth 32)) &&
    At (.bwait 0xF4 0xF0) s (fun c => mayCommit c s && decide (((c.commit s true).atWait .mbat).phaseOf c.grp .mbat - (c.s 0xF0).setWidth 32 < 0x80000000)) &&
    At (.bwait 0xF5 0xF1) s (fun c => mayCommit c s && decide (0x80000000 ≤ ((c.commit s true).atWait .cbat).phaseOf c.grp .cbat - (c.s 0xF1).setWidth 32)) &&
    [0, 1].all fun n => let s := tSt [] (fun g => { g with wait := .phase (.glob tSync 0 0) n }) (withIn (.bwaitSatisfied tG))
      On s tG fun t g => !t.ended && decide (t.ctx = .running ∧ g.wait = .phase (.glob tSync 0 0) n ∧ s.homeOf (.glob tSync 0 0) = .glob tSync 0 0) && !s.objMoving (.glob tSync 0 0) &&
        (phaseReached (s.objPhase (.glob tSync 0 0)) n == decide (n = 0))) = true := by
  decide +kernel

theorem witness_Barriers_moving : (let s := tMoving (tSt [] (fun g => { g with wait := .phase (.glob tSync 0x1000000 0) 0 }) (withIn (.bwaitSatisfied tG)))
    On s tG fun t g => !t.ended && decide (t.ctx = .running ∧ g.wait = .phase (.glob tSync 0x1000000 0) 0) && s.objMoving (s.homeOf (.glob tSync 0x1000000 0)) && (s.atHome (s.homeOf (.glob tSync 0x1000000 0))).objMoving (s.homeOf (.glob tSync 0x1000000 0))) = true := by decide +kernel

/-- A leaf of the SYNC page, for device `dev`. -/
def tAway (dev : Nat) (s : State) : State :=
  { s with tlb := [{ bezel := 0, core := 0, page := 0x1000000, leaf := { raw := BitVec.ofNat 64 (2 + 8 + 16 + 2 ^ 23 * 0x200 + 2 ^ 48 + dev * 2 ^ 51), level := 2 } }] }

theorem witness_Barriers_away : (let s := tAway 1 (tSt [(4, 0x1000000)])
    At (.barr (S 4) 0) s fun c => roomB c s && (obj c s .store (c.s (S 4))).any fun x => mayCommit c x.2 && x.1.away s.devId &&
      roomB c ((c.commit x.2 false).publish c.g c.core ((c.commit x.2 false).objScope c.kern.record x.1))) = true := by decide +kernel

theorem witness_Timelines : (let o : Obj := .glob tSync 0x1000000 0
    let s0 := tSt [(1, 0x1000000), (2, 1)]
    let s1 := tSt [(1, 0x1000000), (2, 1)] id (counter 0 64 0)
    let s2 := tSt [(1, 0x1000000), (2, 1)] id (counter 0 65 0)
    let h := fun (s : State) => s.atHome o
    decide ((h s0).objKind o = 0 ∧ (h s1).objKind o = 2 ∧ ((h s1).objD o 8).toNat ≤ ((h s1).objD o 0).toNat + 64 ∧ (h s2).objKind o = 2 ∧ ((h s2).objD o 0).toNat + 64 < ((h s2).objD o 8).toNat ∧
      (h (withSync [0, 0, 0, 0, 0, 0, 0, 0x01000000] s0)).objKind o = 1 ∧ (h s0).mailboxAt tSync = none ∧ (h (tTables s0)).mailboxAt tSync ≠ none) &&
    !(h s0).objMoving o && !(h s1).objMoving o && !(h s2).objMoving o && !(h (tTables s0)).objMoving o && (h (tMoving s0)).objMoving o &&
    ([s0, s1, s2].all fun s => ([.tlincReserve (S 3) (S 1), .tlincSignal (S 3) (S 1), .tlincComplete (S 2) (S 1)] : List Instr).all fun i => At i s fun c => !c.g.sh && roomA c s &&
      (ctr c s .sync (c.s (S 1))).any fun x => decide (x.1 = o) && mayCommit c x.2 && [x.2, (c.commit x.2 false).publish c.g c.core 3].all fun t =>
        match t.drawInTurn c.g o c.handle with | .ticket _ u => decide (s ≠ s2) && roomA c u | .wait => decide (s = s2) && roomA c t) &&
    ([0, 2].all fun f => At (.tlrd (S 3) (S 1) f) s1 fun c => (ctr c s1 .syncRead (c.s (S 1))).isSome) &&
    (let s := tSt [] (tOp [.scal 3 0] (.draw o (.tlinc false) 3)) fun s => withIn (.ticketDrawResume tG) (counter 0 64 0 s)
     On s tG fun t g => (g.ops.head?).any fun x => decide (x.what = .draw o (.tlinc false) 3) && match s.draw (s.homeOf o) (handleOf t.bezel t.kslot t.kseq) with | .ticket _ _ => true | _ => false)) = true := by
  decide +kernel

theorem witness_Timelines_turn : (let o : Obj := .glob tSync 0x1000000 0
    let s := tSt [] (tOp [.scal 3 0] (.draw o (.tlinc false) 3))
    On s tG fun _ g => (g.ops.any fun x => match x.what with | .draw k _ _ => k.place == o.place | _ => false) &&
      g.ops.all fun x => match x.what with | .draw k _ _ => k.place != (Obj.glob (tSync + 32) 0x1000020 0).place | _ => true) = true := by decide +kernel

theorem witness_Timelines_complete : (let o : Obj := .glob tSync 0x1000000 0
    let s := tSt [(1, 0x1000000), (2, 1)] id (counter 0 64 0)
    At (.tlincComplete (S 2) (S 1)) s fun c => !c.g.sh && roomA c s && (ctr c s .sync (c.s (S 1))).any fun x => decide (x.1 = o) && mayCommit c x.2 &&
      (let t := ((c.commit x.2 false).publish c.g c.core 3).complete o (c.s (S 2)).toNat c.core
       t.2.1 && roomA c t.1)) = true := by decide +kernel

theorem witness_Atomics : (At (.atmin 0xF0 (S 1) 2) (tEt 5) (fun c => decide (5 ≤ etype c.grp.gmode)) &&
    (([.atadd 0xF0 (S 1) 2, .atmax 1 (S 1) 2] : List Instr).all fun i => let s := tSt [(30, 0)]
     At i s fun c => decide (c.em = 0) && mayCommit c s && roomA c s && roomB c s && roomA c (c.commit s false) && roomB c (c.commit s false)) &&
    (let s := tSt [(1, 0x900000)]
     ([.atadd 0xF0 (S 1) 2, .atmax 1 (S 1) 2, .atcas 1 (S 1) 2, .atxch 0xF0 (S 1) 2] : List Instr).all fun i => At i s fun c => decide (c.em ≠ 0 ∧ etype c.grp.gmode < 5) && !c.g.sh &&
       roomA c s && roomB c s && (lanesOf c.em).all (fun k => (reaches c s .store 4 (atomAd c (S 1) k)).isSome) &&
       let s1 := s.touch c.bez c.core ((lanesOf c.em).map (atomAd c (S 1)))
       mayCommit c s1 && roomA c (c.commit s1 false)) &&
    (let s := tSt [(30, 3)] fun g => { g with v := g.v.set 4 { tag := .u, l := Lanes.splat 0x900000 } }
     At (.atand 0xF0 4 2) s fun c => (lanesOf c.em).all fun k => (reaches c s .store 4 (atomAd c 4 k)).isSome)) = true := by decide +kernel

/-- A kernel with a format slot of BF16 in slot 0, and a descriptor pair in s2 and s3. -/
def tMat (f : Group → Group := id) (lo : Nat := 0x900000) (hi : Nat := 64) : State := tStOf (tRec 0 0 0 sup 1) [(2, BitVec.ofNat 64 lo), (3, BitVec.ofNat 64 hi), (30, 3)] f id id

theorem witness_TileInstructions : (([.tzero 0, .tcvt 0 0 0 1, .tcvt 0 0 2 1, .tcolw 0 1 31, .tscale 0 1 0, .tscale 0 1 1, .tld 0 (S 2), .mma 0 (S 2) (S 2)] : List Instr).all (fun i =>
      [(tMat, 0), (tMat full, 1), (tMat fun g => g.setS 30 0, 2)].all fun q => At i q.1 fun c => Ok (checkDescs c [S 2]) && (pairing (c.desc (S 2)).fslot (c.desc (S 2)).fslot).isSome &&
        (decide (q.2 = 2) || Ok (checkWords c q.1 .load ((tileRows (c.desc (S 2)) c.em).flatMap (rangeWords (c.desc (S 2))))) &&
          Ok (checkWords c q.1 .load ((blockA (c.desc (S 2)) c.em 0).flatMap (rangeWords (c.desc (S 2))) ++ (blockB (c.desc (S 2)) 0).flatMap (rangeWords (c.desc (S 2)))))) &&
        !c.g.sh && decide (if q.2 = 0 then c.em ≠ 0 ∧ c.grp.mq.length < 8 else if q.2 = 1 then c.em ≠ 0 ∧ 8 ≤ c.grp.mq.length else c.em = 0)) &&
    At (.tzero 0) (tSh false) (fun c => c.g.sh)) = true := by decide +kernel

theorem witness_TileInstructions_rest : ((let s := tStOf (tRec 0 0 0 sup 2) [(2, 0x900000), (5, 0x100000000)] id id id
      At (.mma 0 (S 2) (S 4)) s fun c => Ok (checkDescs c [S 2, S 4]) && (pairing (c.desc (S 2)).fslot (c.desc (S 4)).fslot == none)) &&
    At (.tst 0 (S 2)) tMat (fun c => Ok (checkDescs c [S 2]) && Ok (checkWords c tMat .store (((tileRows (c.desc (S 2)) c.em).flatMap (tstWords (c.desc (S 2)) c.em)).map (·.2))) &&
      unitsFit c tMat (tstPlaces c tMat (c.desc (S 2)))) &&
    At (.tst 0 (S 2)) (tMat fun g => g.setS 30 0) (fun c => decide (c.em = 0) && Ok (checkDescs c [S 2])) &&
    At (.stest 0) (tMat full) (fun c => decide (8 ≤ c.grp.mq.length)) && At (.stest 0) tMat (fun c => decide (c.grp.mq.length < 8)) && At (.stest 0) (tSh false) (fun c => c.g.sh) &&
    At (.tcolr 1 0 31) tMat (fun c => decide (c.em ≠ 0 ∧ c.grp.mq.length < 8) && roomA c tMat) &&
    (let s := tMat fun g => g.setS 30 0
     At (.tcolr 1 0 0) s fun c => decide (c.em = 0) && roomA c s) &&
    At .mfence (tMat full) (fun c => decide (c.grp.mq ≠ []) && !c.g.sh) && At .mfence tMat (fun c => decide (c.grp.mq = [])) && At .mfence (tSh false) (fun c => c.g.sh) &&
    At (.rprd (S 1) 0) tMat (fun c => !c.g.sh) && At (.rprd (S 1) 4) tMat (fun c => !c.g.sh)) = true := by decide +kernel

/-- A group with operation `w` at the head of its matrix queue. -/
def tQ (w : MWhat) : State := tStOf (tRec 0 0 0 sup 1) [] (fun g => { g with mq := [{ id := 1, what := w, rows := 0x80000001, pc := {}, task := 0 }] }) id (withIn (.matrixOpComplete tG 0 none))
/-- A descriptor of BF16 at an address. -/
def dsc (base : W64) : Desc := { base := base, trans := false, fslot := 1, stride := 64 }

theorem witness_TileOperations : (([.coll 0 1, .tzero 0, .tcolw 0 31 (Lanes.splat 1), .tcvt 0 0 0 1 0, .tld 0 (dsc 0x900000), .tst 0 (dsc 0x900000) 0 false, .tld 0 (dsc 0x200000000000000)] : List MWhat).all fun w =>
    let s := tQ w
    decide (s.input = some (.matrixOpComplete tG 0 none)) && (s.ctxAt tG 0).any fun c => (c.grp.mq.head?).any (fun m => decide (m.what = w ∧ m.fault = none) && !m.migr && match w with
        | .tld t d => (if d.base = 0x900000 then Ok (runTld c s m t d) else match runTld c s m t d with | .error (.prot _ _) => true | _ => false)
        | .tst t d q z => Ok (runTst c s m t d q z)
        | _ => true) && !c.team.ended && decide (c.team.ctx = .running) && !(s.subFence c.core 0).whole) = true := by decide +kernel

/-! ### Witnesses: flows -/

/-- A flow record: flow 5 with flow 6 of device 1; WIDTH 2, a window of 4. -/
def flowRec (dir mcast : Bool) (mirror land rx mem : Nat) : List Byte :=
  leBytes ((if dir then 1 else 0) + (if mcast then 4 + 2 ^ 36 else 0) + 2 * 2 ^ 4 + 3 * 2 ^ 16 + 5 * 2 ^ 48) 8 ++ leBytes (6 + 2 ^ 18) 8 ++ leBytes mirror 8 ++ leBytes land 8 ++
    leBytes rx 8 ++ leBytes mem 8 ++ List.replicate 80 0

/-- The send end's record and the receive end's. -/
def sendRec : List Byte := flowRec false false 0x800000 0 0 0
/-- Its receive end. -/
def recvRec : List Byte := flowRec true false 0x800000 0x880000 0x1000020 0

/-- An end of the test launch. -/
def tEnd (rec_ : List Byte) : FlowEnd := { num := 5, bezel := 0, kslot := 0, handle := handleOf 0 0 1, team := 1, tid := 0, key := 0, record := rec_, die := 0 }

/-- The state with a flow end. -/
def withFlow (e : FlowEnd) (s : State) : State := { s with flows := [e] }

theorem witness_FlowOpens : (At (.fopen (S 2) (S 1)) (tSt [(1, 0x900040)]) (fun c => decide ((c.s (S 1)).toNat % 128 ≠ 0)) &&
    [(recvRec, none, 2), (sendRec, none, 2), (flowRec false false 0x800000 0x880000 0 0, none, 0), (sendRec, some (tEnd sendRec), 1), (sendRec, some (tEnd recvRec), 1)].all
    fun q => let s := tSt [(1, 0x900000)] id fun s => withMem (tPa + 0x100000) q.1 (match q.2.1 with | some e => withFlow e s | none => s)
      At (.fopen (S 2) (S 1)) s fun c => !c.g.sh && roomA c s && decide ((c.s (S 1)).toNat % 128 = 0) && (reads c s .scalarLoad (c.s (S 1)) 128).any fun x =>
        (flowAreas x.1).all (fun a => !isWindow a && (reaches c x.2 .store 1 a).isSome) &&
          (flowRecordBad x.1 (decide (frRxobj x.1 = 0x1000020)) [] == decide (q.2.2 = 0)) && (((x.2.touch c.bez c.core (flowAreas x.1)).flow? (frFlow x.1)).isSome == decide (q.2.2 = 1))) = true := by decide +kernel

theorem witness_FlowOpens_poisoned : (let s := tSt [(1, 0x900000)] id fun s =>
      (withMem (tPa + 0x100000) (flowRec false true 0x800000 0 0 0x900100) s).setSidecar ((tPa + 0x100100) / 256) { poison := true }
    At (.fopen (S 2) (S 1)) s fun c => !c.g.sh && roomA c s && decide ((c.s (S 1)).toNat % 128 = 0) && (reads c s .scalarLoad (c.s (S 1)) 128).any fun x =>
      (flowAreas x.1).all (fun a => !isWindow a && (reaches c x.2 .store 1 a).isSome) && frMcast x.1 && decide (frMembers x.1 ≠ 0) && (flowAreas x.1).contains (frMembers x.1) &&
        (reaches c x.2 .store 1 (frMembers x.1)).any fun p => (x.2.touch c.bez c.core (flowAreas x.1)).placePoisoned p) = true := by decide +kernel

/-- A shape record at 0x900000 for flow 5. -/
def withSend (s : State) : State :=
  withMem (tPa + 0x100000) (leBytes 0x800000 8 ++ List.replicate 8 0 ++ leBytes (4 + 2 ^ 32) 8 ++ leBytes (1 + 5 * 2 ^ 32 + 3 * 2 ^ 48) 8 ++ leBytes (4 + 2 ^ 16 + 2 ^ 32 + 2 * 2 ^ 48) 8 ++ List.replicate 24 0) s

theorem witness_FlowSends : ([(tEnd sendRec, 0), (tEnd sendRec, 0x1000000), (tEnd (flowRec false true 0x800000 0 0 0x900040), 0)].all fun q =>
    let s := tSt [(1, 0x900000), (2, q.2), (3, 3)] id fun s => withSend (withFlow q.1 s)
    At (.fsend (S 2) (S 1) (S 4)) s (fun c => decide (c.em ≠ 0 ∧ (c.s (S 1)).toNat % 64 = 0) && roomB c s && (reads c s .scalarLoad (c.s (S 1)) 64).any fun x =>
      let h := shapeRec x.1
      decide (bits (dword x.1 24).toNat 47 32 = 5) && (c.myFlow x.2 5).any (fun e => !e.isRecv && e.live && !shapeBad x.1 (c.s (S 4)) && !h.scatter &&
        decide (h.count * h.esize % widthBytes (frWidth e.record) = 0 ∧ h.count * h.esize ≤ 256 * frWin e.record ∧ bits (dword x.1 24).toNat 59 48 < frWin e.record ∧
          h.src.toNat % h.esize = 0 ∧ (h.str 1).toNat % h.esize = 0 ∧ (h.str 2).toNat % h.esize = 0)) &&
      (if q.2 = 0 then mayCommit c x.2 && roomB c ((c.commit x.2 false).publish c.g c.core 3)
       else (ctr c x.2 .sync (c.s (S 2))).any fun y => let s3 := (c.commit y.2 false).publish c.g c.core 3
         mayCommit c y.2 && roomB c s3 && match (c.opB s3 .event).drawInTurn c.g y.1 c.handle with | .ticket _ _ => true | _ => false)) &&
    (decide (q.2 ≠ 0) || At (.fmcast (S 2) (S 1) (S 4)) s fun c => decide ((c.s (S 2 + 1)).toNat = 3 ∧ 3 < 2 ^ (frNmem q.1.record + 1)) || !frMcast q.1.record)) = true := by decide +kernel

theorem witness_FlowSends_rest : ((let z := tSt [(30, 0)]
     At (.fsend (S 2) (S 1) (S 4)) z fun c => decide (c.em = 0) && roomB c z) &&
    (let s := tSh false [] fun g => { g with bnd := .passed }
     At (.fmcast (S 2) (S 1) (S 4)) s fun c => decide (c.em ≠ 0) && c.g.sh && mayCommit c s) &&
    At (.fsend (S 2) (S 1) (S 4)) (tSt [(1, 0x900020)]) (fun c => decide (c.em ≠ 0 ∧ (c.s (S 1)).toNat % 64 ≠ 0)) &&
    (let s := tSt [(1, 0x900000), (2, 0x1000000)] id fun s => withSend (withFlow (tEnd sendRec) (counter 0 65 0 s))
     At (.fsend (S 2) (S 1) (S 4)) s fun c => (reads c s .scalarLoad (c.s (S 1)) 64).any fun x => (ctr c x.2 .sync (c.s (S 2))).any fun y =>
       let s3 := (c.commit y.2 false).publish c.g c.core 3
       mayCommit c y.2 && roomB c s3 && match (c.opB s3 .event).drawInTurn c.g y.1 c.handle with | .wait => true | _ => false)) = true := by decide +kernel

theorem witness_FlowControl : (let s := tSt [(1, 5), (2, 6)] id (withFlow { tEnd sendRec with st := .opened })
    let z := tSt [(1, 5), (30, 0)] id (withFlow (tEnd sendRec))
    (([.freseed (S 1), .fclose (S 1)] : List Instr).all fun i => At i z (fun c => decide (c.em = 0) && roomB c z) &&
      At i s fun c => decide (c.em ≠ 0) && roomB c s && (c.myFlow s (c.s (S 1))).any fun e => !e.isRecv && e.live) &&
    (([.freseed (S 2), .fclose (S 2)] : List Instr).all fun i => At i s fun c => decide (c.myFlow s (c.s (S 2)) = none)) &&
    (let s := tSt [(1, 5)] id (withFlow (tEnd recvRec))
     At (.freseed (S 1)) s fun c => (c.myFlow s (c.s (S 1))).any fun e => e.isRecv) &&
    At (.fclose (S 1)) (tSh false [(1, 5)]) (fun c => c.g.sh) &&
    At (.fstat (S 3) (S 1) 4) s (fun c => roomA c s && (c.myFlow s (c.s (S 1))).isSome) && At (.fstat (S 3) (S 2) 0) s (fun c => (c.myFlow s (c.s (S 2))).isNone)) = true := by decide +kernel

theorem witness_FlowControl_states : ([FState.closing, .suspended].all fun st => let s := tSt [(1, 5)] id (withFlow { tEnd sendRec with st := st })
    ([.freseed (S 1), .fclose (S 1)] : List Instr).all fun i => At i s fun c => decide (c.em ≠ 0) && !c.g.sh && roomB c s && (c.myFlow s (c.s (S 1))).any fun e => !e.live && decide (e.st = st)) = true := by
  decide +kernel

/-- The transfer in progress of a send end. -/
def tXfer (backoff : List (Nat × Option (List Nat) × Nat) := []) : Transfer := { cmd := .send [] 0 1 tBy, seq := 1, waiting := [0], backoff := backoff }
/-- The state with an end changed and an input. -/
def tFl (e : Event) (r : List Byte) (f : FlowEnd → FlowEnd) : State := withIn e (tTables (withFlow (f (tEnd r)) tSt))

theorem witness_FlowSendEvents : (let ready := fun (s : State) (f : FlowEnd) => !f.isRecv && decide (f.cur = none ∧ f.st = .opened) && !s.flowParked f (fun _ => true)
    (let s := tFl (.transferStart 5) sendRec fun f => { f with queue := [.reseed 1 tG] }
     (s.flow? 5).any fun f => ready s f && decide (f.queue = [.reseed 1 tG])) &&
    (let r := memBytes (withSend tSt).mem (tPa + 0x100000) 64
     let s := tFl (.transferStart 5) sendRec fun f => { f with queue := [.send r 0 1 tBy] }
     (s.flow? 5).any fun f => ready s f && decide (f.queue = [.send r 0 1 tBy]) && tBy.drawn) &&
    ([(0, 16), (1, 16)].all fun q => let r := memBytes (withSend tSt).mem (tPa + 0x100000) 64
     let t : Transfer := { cmd := .send r 0 1 tBy, seq := 1, waiting := [0], sent := q.1, payload := q.2 }
     let s := tFl (.transferStart 5) sendRec fun f => { f with cur := some t }
     (s.flow? 5).any fun f => decide (f.cur = some t ∧ t.trailer = false ∧ f.st ≠ .suspended) && !s.flowParked f (fun _ => true) && (if q.1 = 0 then decide (256 * t.sent < t.payload) && !f.repeat_ &&
       (match s.gatherChunk f tBy (shapeRec r) ((((shapeRec r).elems 0).drop (256 / (shapeRec r).esize * t.sent)).take (256 / (shapeRec r).esize)) with | .ok (.ok _) => true | _ => false)
       else decide (t.payload ≤ 256 * t.sent ∧ t.nacks = []))) &&
    ([.ackArrival 5 0 1 false, .nackArrival 5 0 1 [] false] : List Event).all (fun e => let s := tFl e sendRec fun f => { f with cur := some { tXfer with trailer := true } }
     (s.flow? 5).any fun f => !f.isRecv && f.memberNos.contains 0 && decide ((f.peer 0).1 ≠ s.devId ∧ s.net = [] ∧ f.cur = some { tXfer with trailer := true } ∧ f.st = .opened)) &&
    (let s := tFl (.absentRetryTimer 5 0) sendRec fun f => { f with cur := some (tXfer [(0, some [], 1)]) }
     (s.flow? 5).any fun f => f.cur.any fun t => decide (t.backoff.find? (fun b => b.1 == 0) = some (0, some [], 1) ∧ f.st = .opened)) &&
    (let s := tFl (.flowCloseComplete 5) sendRec fun f => { f with st := .closing }
     (s.flow? 5).any fun f => decide (f.st = .closing ∧ f.cur = none ∧ f.queue = []))) = true := by decide +kernel

theorem witness_FlowReceiveEvents : (let h := chunkHeader 5 3 0 1 2 4
    (let s := tFl (.chunkArrival 5 1 6 h [1, 2, 3, 4]) sendRec id
     decide (1 ≠ s.devId ∧ s.net = []) && (s.flow? 5).any fun f => !f.isRecv) && (tFl (.trailerArrival 5 1 6 0 1) sendRec id).flow? 6 == none &&
    (let s := tFl (.chunkArrival 5 1 6 (h + 1) []) recvRec id
     (s.flow? 5).any fun f => f.isRecv && !s.flowParked f (fun _ => true) && decide (headerCrc (h + 1) ≠ (h + 1).setWidth 8)) &&
    (let s := tFl (.trailerArrival 5 2 6 0 1) recvRec id
     (s.flow? 5).any fun f => f.isRecv && decide (2 ≠ frPdev f.record)) &&
    (let s := tFl (.trailerArrival 5 1 6 0 1) (flowRec true false 0x800000 0x880000 0 0) id
     (s.flow? 5).any fun f => f.completes 0 && decide (frRxobj f.record = 0 ∧ f.st = .opened)) &&
    (let s := tFl (.trailerArrival 5 1 6 0 1) recvRec fun f => { f with dead := true }
     (s.flow? 5).any fun f => decide (1 = frPdev f.record ∧ 6 = frPflow f.record ∧ f.st ≠ .suspended) && f.dead) &&
    (let s := tFl (.chunkArrival 5 1 6 h [1, 2, 3, 4]) recvRec id
     (s.flow? 5).any fun f => decide (headerCrc h = h.setWidth 8 ∧ bits h.toNat 19 18 < 3 ∧ bits h.toNat 17 16 < 3 ∧ f.st = .opened ∧ bits h.toNat 47 36 < frWin f.record) && !f.repeat_ &&
       (s.landFault f (f.landVa (bits h.toNat 47 36)) (.chunk s.devId 0 5 1 6 h [1, 2, 3, 4])).isNone &&
       ((s.modFlow 5 fun f => { f with coded := f.coded + BitVec.ofNat 64 (8 + 4) }).acceptChunk f h [1, 2, 3, 4]).isSome) &&
    (let s := tFl (.chunkArrival 5 1 6 h [1, 2, 3, 4]) recvRec id
     (s.flow? 5).any fun f => f.isRecv && decide (f.st = .opened ∧ 1 = frPdev f.record ∧ 6 = frPflow f.record ∧ bits h.toNat 19 18 = 1) && !f.dead && !f.repeat_ &&
       !s.flowParked f (· == f.landVa (bits h.toNat 47 36)) && Memory.wf s.mem && mapWfFrom {} none s.side && s.teams.all (fun t => Memory.wf t.stash) &&
       match s.flowTr f .store (f.landVa (bits h.toNat 47 36)) with | .ok pa _ _ => !s.recallWaits (pa / 256) | _ => false) &&
    (let s := tFl (.trailerArrival 5 1 6 0 1) (flowRec true false 0x800000 0x880000 0 0) id
     (s.flow? 5).any fun f => decide (1 = frPdev f.record ∧ 6 = frPflow f.record) && !f.dead && f.completes 0 && !s.flowParked f (· == 0)) &&
    (let s := tFl (.reseedArrival 5 1 6) recvRec id
     (s.flow? 5).any fun f => f.isRecv && !f.dead && decide (f.st ≠ .suspended))) = true := by decide +kernel

/-! ### Witnesses: rings, collectives and routing -/

/-- A ring of one rank whose ring object is the SYNC page's first. -/
def tRing (mode : Bool := false) (ranks : Nat := 1) : Ring :=
  { n := 0, buf := 0x880000, bufPa := [tPa + 0x80000, tPa + 0x80100, tPa + 0x80200, tPa + 0x80300], ctrl := .glob tSync 0x1000000 0, peers := 0x900080, scope := 0, ranks := ranks, rank := 0, mode := mode, depth := 1 }
/-- The state with the test team's ring. -/
def withRing (r : Ring) (s : State) : State := s.modTeam 1 fun t => { t with rings := [r] }

theorem witness_RingInstructions_cring : (let rec_ := leBytes (1 + 2 ^ 32) 8 ++ leBytes 0x880000 8 ++ leBytes 0x900080 8 ++ leBytes 0x1000000 8 ++ List.replicate 32 0
    let base := withMem (tPa + 0x100000) rec_
    ([(tSt [(1, 0x900000)] id base, false), (tSt [(1, 0x900000)] id fun s => withRing (tRing) (base s), true)].all fun q => At (.cringCfg (S 1) 0) q.1 fun c => roomB c q.1 &&
      (reads c q.1 .scalarLoad (c.s (S 1)) 64).any fun x => decide ((dword x.1 8).toNat % 1024 = 0 ∧ (dword x.1 24).toNat % 32 = 0 ∧ (dword x.1 16).toNat % 16 = 0) && !ringRecordBad x.1 &&
        (let pages := areaPages (dword x.1 8) (1024 * (bits (dword x.1 0).toNat 7 0 + 1))
         pages.all (fun a => !isWindow a && (reaches c x.2 .store 1 a).isSome && plainPage (x.2.touch c.bez c.core pages) c a) &&
           (ctr c (x.2.touch c.bez c.core pages) .sync (dword x.1 24)).isSome && ((c.team.ring? 0).isSome == q.2))) &&
    ((tSh false).ctx.any fun c => c.g.sh && decide (precheck c (.cringCfg (S 1) 0) = none ∧ precheck c (.xtable (S 1)) = none)) &&
    (([.cringRel (S 1) 0, .cringClose (S 1) 0] : List Instr).all fun i => At i (tSt [(1, 3)]) (fun c => decide (c.team.ring? 0 = none)) &&
      At i (tSt [(1, 3)] id (withRing (tRing))) fun c => (c.team.ring? 0).isSome && roomB c (tSt [(1, 3)] id (withRing (tRing))))) = true := by decide +kernel

theorem witness_RingInstructions : ((let s := tSt [(1, 0x900000)] id (withMem (tPa + 0x100000) (leBytes (4095 + 0 * 2 ^ 16) 8))
      At (.xtable (S 1)) s fun c => roomB c s && (reads c s .scalarLoad (c.s (S 1)) 64).any fun x => decide (bits (dword x.1 0).toNat 15 12 = 0 ∧ bits (dword x.1 0).toNat 63 28 = 0 ∧
        bits (dword x.1 0).toNat 11 0 + bits (dword x.1 0).toNat 27 16 + 1 ≤ 4096) && (slice x.1 8 56).all (fun b => decide (b = 0)) &&
        (pieces c x.2 (c.s (S 1) + 64) (bits (dword x.1 0).toNat 27 16 + 1)).isSome) &&
    (let z := tSt [(30, 0)]
     At (.tcopy (S 3) (S 1) (S 2)) z fun c => decide (c.em = 0) && roomB c z) &&
    (let s := tStOf (tRec 0 0 0 (sup + 2 ^ 32) 0) [] id (fun t => { t with shadows := [{ ([(1, 0), (2, 1), (3, 0x880000)] : List (Nat × W64)).foldl (fun g p => g.setS p.1 p.2) (placedGroup 0) with bnd := .passed }] })
        fun s => { withRing tRing s with cur := some tH }
     At (.tcopy (S 3) (S 1) (S 2)) s fun c => c.g.sh && decide (c.em ≠ 0) && mayCommit c s && (c.team.ring? 0).any fun r => !r.mode && decide (0 < r.ranks)) &&
    ([(0, tSt [(1, 0), (2, 1), (3, 0x880000)] id (withRing tRing)), (1, tSt [(1, 1), (2, 0xFFFFFFFF), (3, 0x880000)] id (withRing tRing)),
      (2, tSt [(1, 0), (2, 1), (3, 0x880000)] id fun s => withPosted (withRing { tRing with scope := 4 } s))].all fun q => At (.tcopy (S 3) (S 1) (S 2)) q.2 fun c =>
        decide (c.em ≠ 0 ∧ (c.s (S 1)).toNat < 2 ^ 15 ∧ 0 < (c.s (S 2)).toNat ∧ (c.s (S 2)).toNat < 2 ^ 32 ∧ (c.s (S 3)).toNat % 256 = 0) &&
        (c.team.ring? ((c.s (S 1)).toNat / 2 ^ 12)).any fun r => !r.mode && (decide (r.ranks ≤ (c.s (S 1)).toNat % 2 ^ 12) == decide (q.1 = 1)) && roomB c q.2 &&
          mayCommit c q.2 && (let s1 := (c.commit q.2 false).publish c.g c.core r.scope
            roomB c s1 && (s1.hasPosted c.g r.scope == decide (q.1 = 2))))) = true := by decide +kernel

theorem witness_CollectiveInstructions : (([id, fun g => full { g with bnd := .passed }].all fun f => let s := tSt [(1, 0x900000)] f (withRing { tRing true with coll := { order := 1, commGrp := 1 } })
       At (.coll 0 (S 1) (S 2)) s fun c => !isComm s c 0 (c.s (S 1)) && decide (0 < c.grp.t.length) &&
      roomB c s && mayCommit c s && ((c.commit s false).group? c.g).isSome && roomB c ((c.commit s false).publish c.g c.core 3)) &&
    (let s := tSh false [] fun g => { g with bnd := .passed }
     ([.coll 0 (S 1) (S 2), .xroute 0xF0 (S 1) (S 2)] : List Instr).all fun i => At i s fun c => c.g.sh && decide (c.em ≠ 0) && mayCommit c s) &&
    (let z := tSt [(30, 0)]
     At (.xroute 0xF0 (S 1) (S 2)) z fun c => decide (c.em = 0) && roomB c z) &&
    ([none, some (counter 0 64 0), some (counter 0 65 0)].zip [0, 1, 2]).all fun q =>
      let d : BitVec 8 := if q.2 = 0 then 0xF0 else S 3
      let s := tSt [(1, 0x900000), (2, 0x900300), (3, 0x1000000)] id fun s => (q.1.getD id) (withMem (tPa + 0x100000) (leBytes 0x800000 8 ++ leBytes 0x900100 8 ++ leBytes 0x900200 8 ++ leBytes 0x1000040 8) s)
      At (.xroute d (S 1) (S 2)) s fun c => decide (c.em ≠ 0) && roomB c s && (reads c s .scalarLoad (c.s (S 1)) 64).any fun x =>
        decide ((rrSrc x.1).toNat % 256 = 0 ∧ (rrExperts x.1).toNat % 2 = 0 ∧ (rrTokens x.1).toNat % 4 = 0 ∧ (rrSpill x.1).toNat % 32 = 0 ∧ (c.s (S 2)).toNat % 8 = 0) && !routeRecordBad x.1 &&
        (reaches c x.2 .store 8 (c.s (S 2))).isSome && (let s2 := x.2.touch c.bez c.core [c.s (S 2)]
          (if q.2 = 0 then some ((.glob 0 0 0 : Obj), s2) else ctr c s2 .sync (c.s d)).any fun z => mayCommit c z.2 && (let s4 := (c.commit z.2 false).publish c.g c.core 3
            roomB c s4 && (decide (q.2 = 0) || match (c.opB s4 (.engine s4.nextCmd)).drawInTurn c.g z.1 c.handle with | .ticket _ _ => decide (q.2 = 1) | .wait => decide (q.2 = 2))))) = true := by
  decide +kernel

/-- The communication group of a team whose ring's collective is idle, or running. -/
def tComm (st : CollState) : State :=
  tSt [(1, 0x900000), (2, ownVa 0)] (fun g => { g with t := [] }) fun s => withRing { tRing true with coll := { st := st } } (withMem (tPa + 0x100000) (List.replicate 64 0) s)

theorem witness_CollectiveInstructions_comm : ([CollState.idle, .running].all fun st => let s := tComm st
    At (.coll 0 (S 1) (S 2)) s fun c => isComm s c 0 (c.s (S 1)) && !c.g.sh && roomB c s && (reads c s .scalarLoad (c.s (S 1)) 64).any fun x =>
      decide (crRole x.1 = c.grp.role ∧ (crStat x.1).toNat % 8 = 0 ∧ (crOut x.1).toNat % 4096 = 0 ∧ bits (dword x.1 0).toNat 63 28 = 0 ∧ bits (dword x.1 0).toNat 15 10 = 0 ∧ dword x.1 8 = 0 ∧
        crFunc x.1 < 5 ∧ crFunc x.1 = 0 ∧ crStat x.1 = 0 ∧ roleGroups (recRole c.kern.record c.grp.role) = 1) && (slice x.1 32 32).all (fun b => decide (b = 0)) &&
      (c.team.ring? (crRing x.1)).any fun r => decide (crRoot x.1 < r.ranks ∧ r.ranks = 1 ∧ r.rank = 0 ∧ r.ctrl = .glob tSync 0x1000000 0) && r.mode && decide (r.coll.st = st) &&
      (obj c (x.2.touch c.bez c.core []) .store (c.s (S 2))).any fun z => mayCommit c z.2 && roomB c ((c.commit z.2 false).publish c.g c.core 3)) = true := by decide +kernel

/-- An engine command of the group. -/
def withCmd (w : CmdWhat) (s : State) : State := { s with cmds := [{ id := 1, by_ := { tBy with op := some 1 }, what := w }], nextCmd := 2 }

/-- The sidecars of line 1 arrived. -/
def lineSide : Nat → List (Nat × Sidecar)
  | 0 => []
  | _ => [0, 1, 2, 3].map fun i => ((tPa + 0x80000) / 256 + i, { rseq := lineTag 1 })

theorem witness_CollectiveEvents_lines : ([1, 2].all (fun u =>
      let s := tSt [] id fun s => withIn (.tcopyCreditGrant 1) (withCmd (.tcopy 0x800000 0 0 u) (withRing tRing (withSync [0, 0, 0, 0, 0, 0, 0, 0x03000000]
        (withMem (tPa + 0x100080) (leBytes 0x880000 8 ++ leBytes 0x1000000 8) s))))
      (s.cmd? 1).any fun cmd => decide (cmd.what = .tcopy 0x800000 0 0 u ∧ cmd.fault = none) && !cmd.migr && !cmd.stopped && (s.owner? cmd.by_).any fun w => (w.1.ring? 0).any fun r =>
        Ok (do let (e, bad) ← s.engineRead w.1 w.2.1 w.2.2 cmd.by_.since (r.peers + BitVec.ofNat 64 (16 * 0)) 16
               let o ← s.enginePlace w.1 w.2.1 w.2.2 .sync (dword e 8)
               .ok (dword e 0, o, bad)) fun x => decide (x = (0x880000, Place.glob tSync true 0 0x1000000, false)) && s.ringOpen tSync &&
          ((BitVec.ofNat 32 (leNat (memBytes s.mem (tSync + 4) 4)) - (BitVec.ofNat 32 u - BitVec.ofNat 32 ((memByte s.mem (tSync + 12)).toNat + 1))).getLsbD 31 == decide (u = 2)) &&
          cmd.written.isEmpty && [0, 1, 2, 3].all fun i => let a : W64 := BitVec.ofNat 64 (256 * i)
            Ok (s.enginePlace w.1 w.2.1 w.2.2 .engine (0x800000 + a)) && !isWindow (0x880000 + a) && Ok (s.enginePlace w.1 w.2.1 w.2.2 .store (0x880000 + a))) &&
    ([0, 1].all fun h => let s := tSt [] id fun s => withIn (.ringLineReport 1 0) (withRing tRing { s with side := lineSide h })
      On s tG fun t _ => (t.ring? 0).any fun r => !s.objMoving r.ctrl && s.lineHere r ((s.objPhase r.ctrl).toNat + 1) == decide (h = 1))) = true := by decide +kernel

/-- The descriptor of a sum over one rank. -/
def tDesc : CollDesc := { seq := 1, func := 0, int := false, root := 0, groups := 0, ranks := 1 }

theorem witness_CollectiveEvents_colls : (([CollState.idle, .matching].all fun st => let s := tSt [] id fun s => withIn (.descriptorReceive 1 0 0 tDesc) (withRing { tRing true with coll := { st := st, own := tDesc, pas := [tSync] } } { s with net := [.desc tSync 0 tDesc] })
      On s tG fun t _ => decide (t.ctx = .running) && !t.ended && (s.bezel? t.bezel).any fun b => (s.kernel? t.bezel t.kslot).isSome && !b.collJoined 1 0 && (t.ring? 0).any fun r => r.mode && !r.coll.migr &&
        decide (0 < r.ranks ∧ r.ctrl = .glob tSync 0x1000000 0 ∧ r.coll.pas[0]? = some tSync) && (s.takeMsg (tSync / 2 ^ 43 == s.devId) (· == .desc tSync 0 tDesc)).isSome &&
        (decide (r.coll.st ≠ .matching) || (({ r.coll with descs := r.coll.descs ++ [(0, tDesc)] } : Coll).descSet r.ranks).any fun l => l.all fun d => decide (d = r.coll.own))) &&
    ([(true, CollState.running), (false, .running), (false, .idle)].all fun q =>
      let s := tSt [] (fun g => { g with mq := [{ id := 1, what := .coll 0 1, rows := 1, pc := {}, task := 0, op := some 7 }] }) fun s => withIn (.contribEntryHead tG)
        ((withRing { tRing true with coll := { st := q.2, order := 1 } } s).modTeam 1 fun t => { t with collSkip := if q.1 then [1] else [] })
      On s tG fun t g => (g.mq.head?).any (fun m => decide (m.what = .coll 0 1 ∧ m.op = some 7) && !m.read) && decide (t.ctx = .running) && !t.ended && (t.collSkip.contains 1 == q.1) &&
        ((t.rings.find? fun r => r.coll.st == .running && r.coll.order == 1).isSome == decide (q.2 = .running))) &&
    (let s := tSt [] id fun s => withIn (.collectiveComplete 1 0 []) (withRing { tRing true with coll := { st := .running, own := tDesc, pas := [tSync] } } s)
     On s tG fun t _ => decide (t.ctx = .running) && !t.ended && (s.bezel? t.bezel).any fun b => (s.kernel? t.bezel t.kslot).isSome && !b.collJoined 1 0 && (t.ring? 0).any fun r =>
       (ownTiles t r.coll).any fun mine => !r.coll.migr && decide (r.coll.st = .running ∧ r.coll.own.func ≠ 2 ∧ r.coll.stat = 0) && !s.objHeld r.coll.done &&
         (r.coll.pas.zipIdx.mapM (fun (p : Nat × Nat) => if p.2 = r.rank then some mine else peerTiles s r [] p.2 p.1)).isSome)) = true := by decide +kernel

/-- A route command whose packet is at `x`. -/
def tRoute (e : Event) (x : Route) : State :=
  tSt [] id fun s => withIn e (withCmd (.xroute (leBytes 0x800000 8 ++ leBytes 0x900100 8 ++ leBytes 0x900200 8 ++ leBytes 0x1000040 8 ++ List.replicate 32 0) 0x900300 x)
    (withMem (tPa + 0x100100) (leBytes 4095 2) s))

theorem witness_CollectiveEvents_routes : (let cl := fun (row : Option Nat) (rep : Option Nat) => ({ replica := rep, row := row, load := 0, rows := 0x880000, tags := 0x8A0000 } : Claim)
    [(tRoute (.capacityClaim 1) {}, 0), (tRoute (.claimReply 1) { claim := some (cl none (some 3)) }, 1), (tRoute (.claimReply 1) { claim := some (cl (some 0) (some 3)) }, 2),
     (tRoute (.claimReply 1) {}, 3)].all fun q => (q.1.route? 1).any fun w => let (cmd, r, _, x, t, k, b) := w
       decide (x.packet < rrCount r) && Ok (q.1.expertWord t k b cmd.by_.since r x.packet) (fun y => decide (y.1 < 2 ^ 12) && !y.2 &&
         (if q.2 = 0 then decide (x.claim = none ∧ nextReplica b.switch (b.switch.filter fun e => e.expert == y.1) x.tried = none) && !isWindow (rrSpill r) && Ok (q.1.enginePlace t k b .store (rrSpill r))
          else match x.claim with
            | none => q.2 == 3
            | some c => (decide (c.row = none ∧ q.2 = 1) && c.replica.isSome) || (q.2 == 2 && Ok ((q.1.takeLoad b.num (y.1 % 4096) c).routeRow t k b cmd.by_.since r x c 0) fun z => !z.2 &&
                (((z.1.foldl (fun s p => s.engineSector cmd.by_ [p] false) (q.1.takeLoad b.num (y.1 % 4096) c)).setRoute 1 fun y => { y.next with delivered := y.delivered + 1 }).routeEnd 1).isSome)))) = true := by
  decide +kernel

theorem witness_CollectiveEvents_claims : (let s := fun (n : Nat) => withSync [n, 4, 0, 0, 0, 0, 0, 0x04000000] tSt
    [3, 4].all fun n => decide (memByte (s n).mem (tSync + 31) = 4 ∧ leNat (memBytes (s n).mem tSync 4) = n) && (decide (n < leNat (memBytes (s n).mem (tSync + 4) 4)) == decide (n = 3))) = true := by
  decide +kernel

/-! ### Witnesses: tasks and traps -/

/-- A recipe entry whose VLIST names two registers (255: none). -/
def tEntry (m n : Byte) : List Byte := List.replicate 8 0 ++ [m, n, 255, 255, 255, 255, 255, 255] ++ List.replicate 16 0

/-- A rewindable kernel with a table of 2 recipes, entry 1 as given. -/
def tRcp (entry : List Byte) (f : Group → Group := id) : State :=
  tStOf (tRec 0 0x900000 0 (sup + 4 * 2 ^ 16) 0) [(1, 1)] (fun g => f { g with bound := 4 })
    (fun t => t) fun s => (withMem (tPa + 0x100000) (leBytes 2 8 ++ List.replicate 56 0 ++ entry) s).modKernel 0 0 fun k => { k with recipe0 := leBytes 2 8 ++ List.replicate 56 0 }

/-- Doublewords at some addresses, read one after another as `Ctx.Reads` says. -/
def readsAll (c : Ctx) (s : State) (ads : List W64) : Option (List Byte × State) :=
  ads.foldlM (fun (x : List Byte × State) a => (reads c x.2 .scalarLoad a 8).map fun y => (x.1 ++ y.1, y.2)) ([], s)

theorem witness_TasksAndMasks_task : (At (.task 0 0) tSt (fun c => decide (recRecipes c.kern.record = 0)) && At (.task 5 0) (tRcp []) (fun c => decide (recVbound c.kern.record < 5)) &&
    At (.task 0 2) (tRcp []) (fun c => decide (bits (dword c.kern.recipe0 0).toNat 8 0 ≤ 2)) &&
    ([(tEntry 0 0, 0), (tEntry 16 255, 1), (tEntry 15 255, 2), (tEntry 255 255, 2)].all fun q => At (.task 4 1) (tRcp q.1) fun c =>
      decide (recRecipes c.kern.record ≠ 0 ∧ 4 ≤ recVbound c.kern.record ∧ 1 < bits (dword c.kern.recipe0 0).toNat 8 0) &&
        (readsAll c (tRcp q.1) ([0, 1, 2, 3].map fun k => recRecipes c.kern.record + BitVec.ofNat 64 (32 + 32 * 1 + 8 * k))).any fun x => (recipeBad x.1 == decide (q.2 = 0)) &&
          (decide (q.2 = 0) || ((vlistOf x.1).any (fun m => decide (c.grp.v.length ≤ m)) == decide (q.2 = 1)) &&
            (decide (q.2 = 1) || mayCommit { c with grp := { c.grp with nextEntry := some x.1 } } (c.mod x.2 fun g => { g with nextEntry := some x.1 })))) &&
    At (.task 4 1) (tRcp [] fun g => { g with bnd := .passed }) (fun c => decide (c.grp.bnd = .passed))) = true := by
  decide +kernel

theorem witness_TasksAndMasks_shadow : (
    let s := tStOf (tRec 0 0x900000 0 (sup + 2 ^ 32 + 4 * 2 ^ 16) 0) []
      (fun g => { g with side := (List.range 4).map fun i => dword (tEntry 255 255) (8 * i) }) (fun t => { t with shadows := [placedGroup 0] })
      fun s => ({ s with cur := some tH } : State).modKernel 0 0 fun k => { k with recipe0 := leBytes 2 8 ++ List.replicate 56 0 }
    At (.task 4 1) s fun c => c.g.sh && c.shadowed && decide (recRecipes c.kern.record ≠ 0 ∧ 4 ≤ recVbound c.kern.record ∧ 1 < bits (dword c.kern.recipe0 0).toNat 8 0 ∧ c.grp.bnd ≠ .passed) &&
      (s.group? c.g.leader).any fun ld => let e := ld.side.flatMap fun y => leBytes y.toNat 8
        decide (ld.side.length = 4) && !recipeBad e && (vlistOf e).all fun m => decide (m < c.grp.v.length)) = true := by decide +kernel

/-- The group in a mode of R292, with its operations. -/
def inMode (m : RunMode) (ops : List Op := []) (g : Group) : Group := { g with mode := m, ops := ops }

/-- An operation whose results belong to the checkpoint. -/
def ckOp : Op := { id := 3, flag := none, classA := true, task := 0, ck := true }

theorem witness_TasksAndMasks : (At (.trap 0xF0 5) tSt (fun c => decide (c.s 0xF0 = 0)) && At (.trap 0xF1 5) tSt (fun c => decide (c.s 0xF1 ≠ 0)) &&
    At .tret tSt (fun c => decide (c.grp.mode = .normal)) && At .tret (tSt [] (inMode .recompute)) (fun _ => false) == false &&
    At .tret (tSt [] (inMode .handler)) (fun c => decide (c.grp.mode = .handler) && mayCommit c (tSt [] (inMode .handler)) && !flashesBack c.kern.record) &&
    (let s := tRw [] (inMode .handler)
     At .tret s fun c => mayCommit c s && flashesBack c.kern.record && ((c.commit s false).group? c.g).any fun g => g.ops.all fun o => !o.ck) &&
    (let s := tRw [] fun g => { inMode .handler [ckOp] g with bnd := .passed }
     At .tret s fun c => mayCommit c s && flashesBack c.kern.record && ((c.commit s false).group? c.g).any fun g => g.ops.any fun o => o.ck) &&
    At .tmask tSt (fun _ => true) && At .tunmask (tSt [] fun g => { g with life := .trapped }) (fun c => decide (c.grp.life = .trapped)) &&
    At .tunmask tSt (fun c => decide (c.grp.life ≠ .trapped)) && At .lkill tSt (fun _ => true)) = true := by decide +kernel

theorem witness_TrapEntry : (let rec_ := fun h r => tRec 0 r h sup 0
    let chk := fun (s : State) (p : Team → Group → Kernel → Bool) => On s tG fun t g => (s.kernel? t.bezel t.kslot).any fun k => p t g k
    chk (tStOf (rec_ 0 0) [] id id id) (fun _ _ k => decide (recHandler k.record = 0)) &&
    chk (tStOf (rec_ 0x800000 0) [] (fun g => { g with masked := true }) id id) (fun _ g _ => g.masked) &&
    chk (tStOf (rec_ 0x800000 0x900000) [] id id id) (fun _ g k => flashesBack k.record && !g.masked && decide (recHandler k.record ≠ 0 ∧ g.mode ≠ .recompute)) &&
    chk (tStOf (rec_ 0x800000 0) [] (tOp []) id id) (fun _ g k => !flashesBack k.record && !g.masked && g.ops.any fun o => o.classA) &&
    chk (tStOf (rec_ 0x800000 0) [] full id id) (fun _ g k => !flashesBack k.record && decide (g.mq ≠ [])) &&
    chk (tStOf (rec_ 0x800000 0) [] id id id) (fun _ g k => !flashesBack k.record && decide (g.mq = [] ∧ g.ops = []) && g.ver.deferred.isEmpty)) = true := by decide +kernel

/-- A trap to deliver. -/
def tPend : Pend := { code := 6, pc := 4, addr := 0, em := 1, slotB := false, resume := {} }

/-- Leader and shadow of a SHADOW kernel that wait at their boundary, with equal or different signatures. -/
def tPair (same : Bool) : State :=
  tStOf (tRec 0 0x900000 0 (sup + 2 ^ 32) 0) [] (fun g => { g with bnd := .waiting, nextEntry := some (tEntry 255 255) })
    (fun t => { t with shadows := [{ placedGroup 0 with bnd := .waiting, nextEntry := some (tEntry 255 255), sig := if same then -1 else 0 }] }) (withIn (.taskCommit tG))

theorem witness_TaskEvents_commit : ((let s := tSt [] (fun g => { g with bnd := .waiting }) (withIn (.taskCommit tG))
      On s tG fun t g => decide (g.bnd = .waiting ∧ g.deferredTrap = none) && s.goesOn t g true && g.drained && !s.commitHeldUp tG g && (s.kernel? 0 0).any fun k => !recShadow k.record) &&
    ([true, false].all fun same => let s := tPair same
      On s tG fun t g => s.goesOn t g true && g.drained && !s.commitHeldUp tG g && decide (g.mode ≠ .handler) && (s.kernel? 0 0).any fun k => recShadow k.record &&
        (s.group? tG.shadow).any fun h => decide (h.bnd = .waiting ∧ h.deferredTrap = none) && h.drained && (decide ((g.finalSig k).sig = (h.finalSig k).sig) == same)) &&
    (let s := tSt [] (fun g => tOp [] .ready { g with bnd := .waiting }) (withIn (.taskCommit tG))
     On s tG fun _ g => decide (g.bnd = .waiting) && !g.drained)) = true := by decide +kernel

theorem witness_TaskEvents_traps : (([true, false].all fun dr => let s := tSt [] (fun g => { (if dr then g else tOp [] .ready g) with pend := some tPend }) (withIn (.trapDelivery tG))
      On s tG fun t g => decide (g.pend = some tPend ∧ t.ctx = .running) && !t.ended && !s.commitHeldUp tG g && ((g.ops.all (fun o => !o.classA) && g.mq.isEmpty) == dr)) &&
    ([true, false].all fun al => let s := tSt [] (fun g => { g with deferredTrap := some tPend, alive := al }) (withIn (.deferredTrapTake tG))
      On s tG fun t g => decide (g.deferredTrap = some tPend ∧ t.ctx = .running ∧ g.life ≠ .pending ∧ g.life ≠ .collective ∧ g.life ≠ .exited ∧ g.pend = none) && !t.ended && (g.alive == al) && !g.blive)) = true := by
  decide +kernel

theorem witness_TaskEvents_stops : (let chk := fun (s : State) (p : Team → Group → Kernel → Bool) => On s tG fun t g => (s.kernel? t.bezel t.kslot).any fun k => !t.ended && p t g k
    chk (tCtx (.stopComplete 1) 0x900000 .stopping fun g => { g with life := .exited, inSet := false, clause := none }) (fun t _ k => decide (t.ctx = .stopping) && !k.nonRewindable && t.groups.all (fun x => x.stopped k.nonRewindable false) && t.shadows.isEmpty) &&
    chk (tCtx (.stopComplete 1) 0 .stopping fun g => { g with masked := true }) (fun t _ k => t.groups.all fun x => !x.stopped k.nonRewindable false) &&
    chk (tCtx (.maskedHoldTimeout tG) 0 .stopping (fun g => { g with masked := true }) (720 * 2 ^ 20)) (fun t g k => k.nonRewindable && g.masked && !g.halted &&
      decide (t.ctx = .stopping ∧ g.life ≠ .exited ∧ 2 ^ 20 = (720 * 2 ^ 20 - g.stopAt) / 720)) &&
    ([720 * 65536, 720 * 65536 - 1].all fun n => let s := tCtx (.maskedHoldTimeout tG) 0x900000 .stopping (fun g => { g with masked := true }) n
      chk s fun _ g k => !k.nonRewindable && decide (g.ops = []) && (decide (65536 ≤ (s.arith - g.stopAt) / 720) == decide (n = 720 * 65536)))) = true := by decide +kernel

theorem witness_TaskEvents_restore : (let s := tCtx (.contextRestore 1 0) 0 .saved id |> fun s => { s.modBezel 0 fun b => { b with queues := [(0, 0)] } with units := [(.chan 0, .member 0), (.core 0, .member 0)] }
    On s tG fun t _ => decide (t.ctx = .saved) && !t.ended && !t.moving && match s.dispatchChoice 0 with
      | some (_, _, _, .restore sid core) => sid == 1 && core == 0 | _ => false) = true := by decide +kernel

/-! ### Witnesses: mailboxes, kernels and activities -/

/-- Mailbox 0 with PHASE, HEAD and flags, its ring at 0x810000. -/
def tMb (phase head flags : Nat) (s : State) : State := withSync [phase, head, 0, 0, 0, flags, 0x810000, 0] (tTables s)

theorem witness_Mailboxes_issue : (let s := tSt [(1, 0x1000000), (2, 0x10007E0), (3, 2 ^ 33), (4, 2 ^ 33 - 1)] id (tMb 1 0 8)
    let e := tSt [(1, 0x1000000)] id (tMb 256 256 8)
    ([s, e].all fun s => At (.mbrecv 1 (S 1)) s fun c => decide (c.em ≠ 0) && !c.g.sh && roomA c s && decide (c.bez.mbox.toNat ≤ (c.s (S 1)).toNat ∧ (c.s (S 1)).toNat < c.bez.mbox.toNat + 2048 ∧ (c.s (S 1)).toNat % 32 = 0) &&
      (ctr c s .sync (c.s (S 1))).any fun x => mayCommit c x.2 && (let t := ((c.commit x.2 false).publish c.g c.core 3).mbTake c.bez x.1
      !t.2.2.2.2 && decide (t.2.1 = if s = e then 1 else 0) && roomA c t.1)) &&
    ([.mbrecv 1 (S 4), .mbsend 1 (S 5) (S 4), .mbpeek (S 5) (S 4) 0] : List Instr).all (fun i => let s := tSt [(4, 0x1000010)] id (tMb 1 0 8)
      At i s fun c => decide (c.em ≠ 0 ∧ (c.s (S 4)).toNat % 32 ≠ 0) && roomA c s && roomB c s) &&
    ([.mbrecv 1 (S 4), .mbsend 1 (S 4) (S 5), .mbpeek (S 5) (S 4) 0] : List Instr).all (fun i => let s := tSt [(4, 0x1000800)] id (tMb 1 0 8)
      At i s fun c => decide (c.em ≠ 0 ∧ (c.s (S 4)).toNat % 32 = 0 ∧ c.bez.mbox.toNat + 2048 ≤ (c.s (S 4)).toNat ∧ bits (c.s (S 5)).toNat 63 33 = 0) && roomA c s && roomB c s) &&
    ([.mbrecv 1 (S 1), .mbsend 1 (S 1) (S 2), .mbpeek (S 5) (S 1) 0] : List Instr).all (fun i => let z := tSt [(30, 0)]
      At i z fun c => decide (c.em = 0) && roomA c z && roomB c z) &&
    At (.mbsend 1 (S 1) (S 3)) s (fun c => decide (bits (c.s (S 3)).toNat 63 33 ≠ 0)) &&
    At (.mbsend 1 (S 2) (S 4)) s (fun c => decide (bits (c.s (S 4)).toNat 63 33 = 0 ∧ c.em ≠ 0) && roomB c s && (ctr c s .sync (c.s (S 2))).isSome) &&
    ([0, 4].all fun f => At (.mbpeek (S 5) (S 1) f) s fun c => (ctr c s .syncRead (c.s (S 1))).isSome) &&
    (let o : Obj := .glob tSync 0x1000000 0
     decide ((tMb 0 0 9 tSt).mbDir o = true ∧ (tMb 0 0 0 tSt).mbEnable o = false ∧ (tMb 0 0 8 tSt).mbDir o = false ∧ (tMb 0 0 8 tSt).mbEnable o = true ∧ (tMb 0 0 8 tSt).objPhase o = (tMb 0 0 8 tSt).mbHead o ∧
       (tMb 1 0 8 tSt).objPhase o ≠ (tMb 1 0 8 tSt).mbHead o) && ((tMb 1 0 8 tSt).bezel? 0).any fun b => ((tMb 1 0 8 tSt).mbSlot b o 255).isSome)) = true := by decide +kernel

theorem witness_Mailboxes_host : (let chk := fun (s : State) (p : Bezel → Obj → Bool) => (s.bezel? 0).any fun b => (s.mailbox b 0).any fun o => !s.objMoving o && p b o
    (let sealBy := fun (q off len slot ph hd : Nat) => tMb ph hd 8 (withIn (.sealArrival 0 0 slot ((List.replicate (60 - off) 0 ++ leBytes q 4).take len) off) tSt)
     [(sealBy 1 56 8 0 0 0, 1, true), (sealBy 256 0 64 255 255 0, 256, true), (sealBy 1 56 8 1 0 0, 1, false), (sealBy 1 56 8 0 1 1, 1, false), (sealBy 257 56 8 0 0 0, 257, false), (sealBy 1 56 8 0 1 0, 1, false)].all fun q =>
       chk q.1 fun b o => !q.1.mbDir o && q.1.mbEnable o && (q.1.input).any (fun e => match e with
         | .sealArrival 0 0 slot data off => decide (slot < 256 ∧ off ≤ 56 ∧ off + data.length = 64) && (q.1.mbSlot b o slot).isSome &&
             decide (BitVec.ofNat 32 (leNat (slice (slice data (56 - off) 8) 4 4)) = BitVec.ofNat 32 q.2.1) &&
             (decide (slot = (BitVec.ofNat 32 q.2.1 - 1).toNat % 256 ∧ BitVec.ofNat 32 q.2.1 ≠ q.1.mbHead o ∧ (BitVec.ofNat 32 q.2.1 - q.1.mbHead o).toNat ≤ 256 ∧ BitVec.ofNat 32 q.2.1 ≠ q.1.objPhase o ∧
               (BitVec.ofNat 32 q.2.1 - q.1.objPhase o).toNat ≤ 2 ^ 31) == q.2.2)
         | _ => false)) &&
    ([60, 0].all fun off => let s := tMb 0 0 8 (withIn (.sealArrival 0 0 0 (List.replicate (if off = 0 then 57 else 4) 1) off) tSt)
      chk s fun _ o => !s.mbDir o && s.mbEnable o && decide (56 < off ∨ off + (if off = 0 then 57 else 4) < 64)) &&
    chk (tMb 0 0 9 (withIn (.hostMailboxWrite 0 0 4 [1, 2, 3, 4]) tSt)) (fun _ o => (tMb 0 0 9 tSt).mbDir o) && chk (tMb 0 0 8 (withIn (.hostMailboxWrite 0 0 4 [1, 2, 3, 4]) tSt)) (fun _ o => !(tMb 0 0 8 tSt).mbDir o) &&
    chk (tMb 0 0 8 (withIn (.mailboxFieldStore 0 0 28 [1, 2, 3, 4] 0) tSt)) (fun _ _ => decide (28 + 4 ≤ 32)) &&
    (let s := tMb 0 0 9 (withIn (.outboundPhaseAdvance 0 0) { tSt with host := { outbound := [(.glob tSync 0x1000000 0, 1, true, tG, 1)] } })
     chk s fun _ o => s.host.outbound.head?.any fun x => decide ((s.homeOf x.1).place = o.place))) = true := by decide +kernel

/-- A launch record for key handle 1, with DEPCTR or DONECTR at the SYNC page. -/
def lRec (dep done : Nat) (vb : Nat := 1) : List Byte :=
  List.replicate 8 0 ++ leBytes (1 + 2 ^ 21 + 2 ^ 42) 8 ++ List.replicate 24 0 ++ leBytes dep 8 ++ List.replicate 8 0 ++ leBytes done 8 ++ leBytes (1 + 16 * 2 ^ 8 + 16 * 2 ^ 16) 8
    ++ List.replicate 24 0 ++ leBytes (4096 + 2 ^ 24) 8 ++ leBytes (1 + vb * 2 ^ 16) 8 ++ List.replicate 144 0

/-- The state with key slot 1 READY and sealed to the bezel, and a record at 0x900000. -/
def withRec (r : List Byte) (s : State) : State :=
  tTables (withMem (tPa + 0x100000) r { s with keys := [{ slot := 1, st := .ready, sealed := some 0 }], units := [(.chan 0, .member 0), (.core 0, .member 0)] })

/-- A counter beyond the mailbox objects of the SYNC page. -/
def counter2 (next : Nat) : State → State := withMem (tSync + 0x800) (leBytes 0 8 ++ leBytes next 8 ++ leBytes 0 8 ++ leBytes (2 * 2 ^ 56) 8)

theorem witness_KernelInstructions_launch : (At (.launch (S 2) (S 1)) (tSt [(1, 0x900080)]) (fun c => decide (c.em ≠ 0 ∧ (c.s (S 1)).toNat % 256 ≠ 0) && !c.g.sh) &&
    (let z := tSt [(30, 0)]
     At (.launch (S 2) (S 1)) z fun c => decide (c.em = 0) && roomA c z) &&
    ([(lRec 0 0, 0, 0), (lRec 0 0x1000800, 0, 0), (lRec 0 0 0, 1, 0), (lRec 0 0x900000, 1, 0), (lRec 0 0x1000800, 0, 65)].all fun q => let s := tSt [(1, 0x900000)] id fun s => counter2 (q.2.2) (withRec q.1 s)
      At (.launch (S 2) (S 1)) s fun c => roomA c s && (reads c s .scalarLoad (c.s (S 1)) 256).any fun x => decide (recRecipes x.1 = 0 ∧ recDepCtr x.1 = 0) &&
        (decide (recDoneCtr x.1 = 0) || match x.2.ctrUse c.bez (recKey x.1 % 4096) (recDoneCtr x.1) true with | .wait _ _ => false | .migrating => false | _ => true) && mayCommit c x.2 &&
        (let s3 := (c.commit x.2 false).publish c.g c.core 3
         roomA c s3 && decide (s3.refusal c.bez x.1 [] (recSuper c.kern.record) = q.2.1) &&
          (decide (q.2.1 ≠ 0) || (let t := s3.newKernel c.bez x.1 [] (c.s (S 1)) none
            decide (recDoneCtr x.1 = 0) || match t.1.ctrUse c.bez (recKey x.1 % 4096) (recDoneCtr x.1) true with
              | .ok o => (match t.1.draw o (handleOf c.bez.num t.2.1 t.2.2) with | .ticket _ u => roomA c u && decide (q.2.2 = 0) | .wait => decide (q.2.2 = 65))
              | _ => false))))) = true := by decide +kernel

theorem witness_KernelInstructions_refusals : ((tSt.bezel? 0).any fun b => ({ b with nextSlot := 1024 } : Bezel).hasSlot == false && b.hasSlot && ({ b with nextSlot := 1023 } : Bezel).hasSlot &&
    recordBad (lRec 0 0 0) && !recordBad (lRec 0 0) && !recipe0Bad (lRec 0 0) [] && !tSt.ctrBad b (lRec 0 0) && recSuper (tRec 0 0 0 (sup + 2 ^ 16) 0) && !recordBad (tRec 0 0 0 (sup + 2 ^ 16) 0)) = true := by
  decide +kernel

/-- The test bezel with a second kernel in a state, and the core as a member. -/
def tKern (e : Event) (k : KState) (sc : List (Nat × W64) := []) : State :=
  tSt sc id fun s => withIn e { s.modBezel 0 fun b => { b with kernels := b.kernels ++ [{ slot := 1, seq := 2, st := k, record := lRec 0 0, recAddr := 0 }], queues := [(0, 1)] } with units := [(.chan 0, .member 0), (.core 0, .member 0)] }

theorem witness_KernelInstructions : (At (.kquery (S 2) (S 1) 4) tSt (fun c => !c.g.sh && roomA c tSt) &&
    (let z := tSt [(30, 0)]
     let h := tSh false [] fun g => { g with bnd := .passed }
     ([.kcancel (S 1), .kpreemptSave (S 1), .kpreemptDiscard (S 1)] : List Instr).all fun i => At i z (fun c => decide (c.em = 0) && roomB c z) && At i h fun c => decide (c.em ≠ 0) && c.g.sh && mayCommit c h) &&
    (let s := tKern (.teamDispatch 0) .admitted [(1, handleOf 0 1 2), (2, handleOf 0 0 1)]
     (([.kcancel (S 1), .kpreemptSave (S 1), .kpreemptDiscard (S 1)] : List Instr).all fun i => At i s fun c => decide (c.em ≠ 0) && roomB c s && mayCommit c s &&
       (((c.commit s false).publish c.g c.core 3).bezel? c.bez.num).any fun b => (({ c with bez := b } : Ctx).target (c.s (S 1))).isSome && (({ c with bez := b } : Ctx).target (c.s (S 2))).isNone) &&
     (([.kcancel (S 2), .kpreemptSave (S 2), .kpreemptDiscard (S 2)] : List Instr).all fun i => At i s fun _ => true))) = true := by decide +kernel

theorem witness_KernelEvents : ((let s := tKern (.teamDispatch 0) .admitted
     (match s.drawKernels.dispatchChoice 0 with | some (_, _, _, .fresh _) => true | _ => false) && decide (s.drawKernels.dispatchChoice 1 = none)) &&
    ([KState.draining, .running].all fun st => let s := tKern (.retirementComplete 0 1) st
      (s.kernel? 0 1).any fun k => decide (k.st = st) && s.drainedKernel 0 k)) = true := by decide +kernel

/-- An activity record: MAXSTEPS 2, STAGE 0x800000. -/
def aRec (steps done : Nat) : List Byte := leBytes steps 8 ++ leBytes 0x900000 8 ++ leBytes 0x800000 8 ++ leBytes done 8 ++ List.replicate 32 0
/-- An activity of the test launch. -/
def tAct (st : AState) (n : Nat) : Activity :=
  { slot := 0, seq := 1, bezel := 0, key := 0, kslot := 0, kseq := 1, st := st, record := aRec 2 0, stack := List.replicate n { args := List.replicate 64 0, keys := [1], code := 0, stamp := 1, die := 0 } }

theorem witness_ActivityInstructions_aopen : ([(aRec 1 0, 0, 0), (aRec 0 0, 0, 1), (aRec 4095 0, 4095, 0), (aRec 1 0, 4096, 2), (aRec 1 0x1000000, 0, 3), (aRec 1 0x1000000, 0, 4)].all fun q =>
    let s := tSt [(1, 0x900000)] id fun s => counter 0 (if q.2.2 = 4 then 65 else 1) 0 (withMem (tPa + 0x100000) q.1 { s with actNext := q.2.1 })
    At (.aopen (S 2) (S 1)) s fun c => !c.g.sh && roomA c s && (reads c s .scalarLoad (c.s (S 1)) 64).any fun x => (actRecordBad x.1 == decide (q.2.2 = 1)) &&
      (let y := x.2.touch c.bez c.core [arStage x.1]
       (match x.2.place c.team c.kern c.bez .store (arStage x.1) with | .ok _ => true | _ => false) && (decide (y.actNext < 4096) == decide (q.2.2 ≠ 2)) && decide (y.actFreed = []) &&
        (decide (arDone x.1 = 0) == decide (q.2.2 < 3)) && (decide (q.2.2 < 3) || match y.place c.team c.kern c.bez .sync (arDone x.1) with
          | .ok (.glob pa true ow va) => (match (y.touch c.bez c.core [arDone x.1]).draw (.glob pa va ow) c.handle with | .ticket _ u => roomA c u && decide (q.2.2 = 3) | .wait => decide (q.2.2 = 4))
          | _ => false))) = true := by decide +kernel

/-- A step record at 0x900000 with NKEYS. -/
def stepRec (nk : Nat) : State → State := withMem (tPa + 0x100000) (List.replicate 136 0 ++ leBytes nk 8)

theorem witness_ActivityInstructions_astep : ([(1, [tAct .opened 0], 0), (8, [tAct .opened 1], 0), (0, [tAct .opened 0], 1), (9, [tAct .opened 0], 1), (1, [], 2), (1, [tAct .closed 0], 3), (1, [tAct .opened 2], 3)].all fun q =>
    [1, 65].all fun nx => let s := tSt [(1, 0x900000), (2, 0x10000), (3, 0x1000000)] id fun s => counter 0 nx 0 (stepRec q.1 { s with acts := q.2.1 })
    ([0xF0, S 3].all fun b => At (.astep (S 2) (S 1) b) s fun c => roomB c s && (reads c s .scalarLoad (c.s (S 1)) 64).any fun x => (reads c x.2 .scalarLoad (c.s (S 1) + 64) 64).any fun y =>
      (reads c y.2 .scalarLoad (c.s (S 1) + 128) 64).any fun z => (stepRecordBad (x.1 ++ y.1 ++ z.1) == decide (q.2.2 = 1)) && (decide (q.2.2 = 1) || match c.activity z.2 (c.s (S 2)) with
        | none => q.2.2 == 2
        | some a => if a.st = .opened ∧ a.stack.length < arMax a.record then q.2.2 == 0 && (if b = 0xF0 then mayCommit c z.2 else (ctr c z.2 .sync (c.s b)).any fun w => decide (c.grp.ticket = none) &&
            match w.2.drawInTurn c.g w.1 c.handle with
            | .ticket k u => decide (nx = 1) && mayCommit c (c.mod u fun g => { g with ticket := some (w.1, k) })
            | .wait => decide (nx = 65)) else q.2.2 == 3))) = true := by decide +kernel

theorem witness_ActivityInstructions_astep_held : (let o : Obj := .glob tSync 0x1000000 0
    let s := tSt [(1, 0x900000), (2, 0x10000), (3, 0x1000000)] (fun g => { g with ticket := some (o, 7) }) fun s => counter 0 1 0 (stepRec 1 { s with acts := [tAct .opened 0] })
    At (.astep (S 2) (S 1) (S 3)) s fun c => roomB c s && decide (c.grp.ticket ≠ none) && (ctr c s .sync (c.s (S 3))).any fun w => mayCommit c w.2) = true := by decide +kernel

theorem witness_ActivityInstructions : (let st := fun (x : AState) (n : Nat) => tSt [(1, 0x10000), (2, 7), (3, 3)] id fun s => { s with acts := [tAct x n] }
    (([.aclose (S 1), .aabandon (S 1)] : List Instr).all fun i => [AState.opened, .closed].all fun x => At i (st x 0) fun c => roomB c (st x 0) && (c.activity (st x 0) (c.s (S 1))).any (fun a => decide (a.st = x)) &&
      mayCommit c (st x 0) && (c.activity ((c.commit (st x 0) false).publish c.g c.core 3) (c.s (S 1))).isSome) &&
    (let h := tSh false [(3, 2)] fun g => { g with bnd := .passed }
     ([.aclose (S 1), .aabandon (S 1), .astep (S 2) (S 1) 0xF0, .aresolve (S 1) (S 3)] : List Instr).all fun i => At i h fun c => c.g.sh && mayCommit c h) &&
    (([.aclose (S 2), .aabandon (S 2)] : List Instr).all fun i => At i (st .opened 0) fun c => (c.activity (st .opened 0) (c.s (S 2))).isNone) &&
    At (.aquery (S 4) (S 1) 3) (st .opened 0) (fun c => roomA c (st .opened 0)) && At (.aresolve (S 1) (S 3)) (st .broken 1) (fun c => decide (3 ≤ (c.s (S 3)).toNat)) &&
    ([(AState.opened, 0xF0), (.broken, 0xF1), (.broken, 0xF2)].all fun q => At (.aresolve (S 1) q.2) (st q.1 1) fun c => decide ((c.s q.2).toNat < 3) && roomB c (st q.1 1) &&
      (c.activity (st q.1 1) (c.s (S 1))).any fun a => decide (a.st = q.1)) &&
    (let cm := fun (s : State) => s.modKernel 0 0 fun k => { k with comp := some 0 }
     At (.acret (S 1)) tSt (fun c => decide (c.kern.comp = none)) && At (.acret (S 1)) (tSt [(30, 0)] id cm) (fun c => decide (c.kern.comp ≠ none ∧ c.em = 0)) &&
     At (.acret (S 1)) (tSt [] id cm) fun c => decide (c.kern.comp ≠ none ∧ c.em ≠ 0) && mayCommit c (tSt [] id cm))) = true := by decide +kernel

theorem witness_ActivityEvents : ((let s := tSt [] id fun s => withIn (.compensatorLaunch 0) (withRec (lRec 0 0) { s with acts := [{ tAct .abandoning 1 with key := 1 }] })
      (s.act? 0).any fun a => (s.bezel? a.bezel).any fun b => (a.stack.head?).any (fun e => !e.damaged && decide (s.waitsFor a e = none)) &&
        decide (a.st = .abandoning ∧ a.running = none ∧ a.ended = none ∧ a.fault = none) && !a.migr && s.teams.all (fun t => decide (t.ctx ≠ .stopping)) &&
        match s.claspAccess b (a.key % 4096) true (arStage a.record) with
        | .ok pa ow => Ok ((s.landHome pa (List.replicate 64 0) ow (some false)).claspRead a b (arTemplate a.record) 256) fun r =>
            decide (recRecipes r = 0) && decide ((s.landHome pa (List.replicate 64 0) ow (some false)).refusal b (compRecord r 0 (arStage a.record)) [] false = 0) &&
            decide (recGridX (compRecord r 0 (arStage a.record)) = 1 ∧ recGridY (compRecord r 0 (arStage a.record)) = 1 ∧ recGridZ (compRecord r 0 (arStage a.record)) = 1)
        | _ => false) &&
    (({ (tAct .abandoning 1) with stack := [{ args := [], keys := [], code := 0, stamp := 1, die := 0, damaged := true }] } : Activity).stack.head?.any fun e => e.damaged) &&
    [some 0, some 5, none].all fun (x : Option W32) => let s := tSt [] id fun s => withIn (.compensatorRetire 0) { s with acts := [{ tAct .abandoning 1 with ended := x, running := some 1 }] }
      (s.act? 0).any fun a => decide (a.ended = x)) = true := by decide +kernel


/-! ### Witnesses: pavé -/

/-- A writable PAVE page at 0x1800000 over channel 0 of the bezel. -/
def tPv (s : State) : State :=
  withMem 0 (leBytes (2 ^ 10 + 7 * 2 ^ 20) 8) { s with units := [(.chan 0, .member 0), (.core 0, .member 0)], tlb := s.tlb ++ [{ bezel := 0, core := 0, page := 0x1800000, leaf := { raw := BitVec.ofNat 64 (4 + 8), level := 2 } }] }

/-- The leaf of that page. -/
def pvLeaf : Leaf := { raw := 12, level := 2 }

/-- A program record: two words, a vector of two BF16 elements, KROW 2. -/
def pvRec (out stat : Nat) : List Byte :=
  leBytes 0x880000 8 ++ leBytes 0x880100 8 ++ leBytes 0x1800000 8 ++ leBytes out 8 ++ leBytes stat 8 ++ leBytes (1 + 2 * 2 ^ 16 + 2 ^ 36) 8 ++ List.replicate 16 0

/-- What the witnesses of `pvfill` and `pvsub` share: EM, room, the page's leaf and its W and owner. -/
def pvLeafAt (c : Ctx) (s : State) (page : W64) (p : Leaf → Bool) : Bool :=
  !badVa page && !isWindow page && match s.lookup c.bez c.core page.toNat with
    | .leaf l => decide (leafKind l.raw = 4 ∧ l.level = 2) && p l
    | _ => false

/-- The counter that D names, if it names one, and what the commit before the queueing leaves. -/
def pvCounter (c : Ctx) (s : State) (d : W64) (p : Option Obj → State → Bool) : Bool :=
  match (if d = 0 then some (none, s) else (ctr c s .sync d).map fun x => (some x.1, x.2)) with
  | some (o, t) => mayCommit c t && p o ((c.commit t false).publish c.g c.core 3)
  | none => false

/-- A full counter makes the draw of D wait, another gives its ticket. -/
def pvDraw (c : Ctx) (s : State) (o : Option Obj) (full : Bool) : Bool :=
  match o with
  | some o => (match (c.opB s (.engine s.nextCmd)).drawInTurn c.g o c.handle with | .ticket _ _ => !full | .wait => full)
  | none => !full

theorem witness_PaveInstructions_fill : ([(0, 12, 0), (0, 4, 0), (0x1000000, 12, 1), (0x1000000, 12, 65)].all fun (q : Nat × Nat × Nat) =>
    let s := tPv (tSt [(1, 0x900000), (2, BitVec.ofNat 64 q.1)] id fun s => counter 0 q.2.2 0 (withMem (tPa + 0x100000) (leBytes 0x1800000 8 ++ leBytes 0x800000 8 ++ List.replicate 48 0) s))
    let s := { s with tlb := s.tlb.map fun (e : TlbEntry) => if e.page = 0x1800000 then { e with leaf := { raw := BitVec.ofNat 64 q.2.1, level := 2 } } else e }
    At (.pvfill (S 2) (S 1)) s fun c => decide (c.em ≠ 0 ∧ (c.s (S 1)).toNat % 64 = 0) && !c.g.sh && roomB c s && (reads c s .scalarLoad (c.s (S 1)) 64).any fun x =>
      decide ((dword x.1 0).toNat % 2 ^ 23 = 0 ∧ (dword x.1 8).toNat % 256 = 0 ∧ bits (dword x.1 16).toNat 63 3 = 0) && (slice x.1 24 40).all (fun b => decide (b = 0)) &&
      pvLeafAt c x.2 (dword x.1 0) fun l => decide ((dword x.1 16).toNat % 8 ≤ descStripe (x.2.idesc c.bez (leafIdesc l.raw))) && (leafW l.raw == decide (q.2.1 = 12)) && paveOwned c x.2 l &&
        (x.2.leafDesc c.bez l).isNone && !x.2.descsFull (x.2.leafPa c.bez l 0) && pvCounter c x.2 (c.s (S 2)) fun o s3 => roomB c s3 && pvDraw c s3 o (q.2.2 == 65)) = true := by decide +kernel

theorem witness_PaveInstructions_sub : ((At (.pvsub 0xF0 (S 1) (S 2)) (tSt [(2, 0x100000)]) fun c => decide (c.em ≠ 0 ∧ 2 ^ 20 ≤ (c.s (S 2)).toNat)) &&
    (([.pvfill (S 2) (S 1), .pvsub 0xF0 (S 1) (S 2)] : List Instr).all fun i => (let z := tSt [(30, 0)]; At i z fun c => decide (c.em = 0) && roomB c z) &&
      (let h := tSh false [] fun g => { g with bnd := .passed }; At i h fun c => decide (c.em ≠ 0 ∧ (c.s (S 2)).toNat < 2 ^ 20) && c.g.sh && mayCommit c h)) &&
    [(0, 0), (0x1000000, 1), (0x1000000, 65)].all fun (q : Nat × Nat) => let s := tPv (tSt [(1, 0x900000), (2, 0), (3, BitVec.ofNat 64 q.1)] id fun s => counter 0 q.2 0 (withMem (tPa + 0x100000) (pvRec 0x880200 0x880300) s))
    At (.pvsub (S 3) (S 1) (S 2)) s fun c => decide (c.em ≠ 0 ∧ (c.s (S 1)).toNat % 64 = 0) && !c.g.sh && roomB c s && (reads c s .scalarLoad (c.s (S 1)) 64).any fun x => let r := x.1; let fs := recFslot c.kern.record (prSlot r)
      decide ((prPage r).toNat % 2 ^ 23 = 0 ∧ (prVec r).toNat % 2 = 0 ∧ (prProg r).toNat % 4 = 0 ∧ (prOut r).toNat % 4 = 0 ∧ (prStat r).toNat % 8 = 0 ∧ fsFormat fs = 0 ∧ prKrow r ≠ 0 ∧ prF32 r = false) && !progMbz r &&
      pvLeafAt c x.2 (prPage r) fun l => paveOwned c x.2 l && x.2.memberOf (.chan 0) c.bez.num && (x.2.leafDesc c.bez l).isNone &&
        decide (descFirst (x.2.idesc c.bez (leafIdesc l.raw)) = 0 ∧ 0 < descCount (x.2.idesc c.bez (leafIdesc l.raw))) &&
        (let ads := vecAds (prVec r) (prVlen r) 2
         let pl := ads.map fun a => (reaches c x.2 .engine 1 a).getD (.stash 0 0 0)
         (ads.all fun a => (reaches c x.2 .engine 1 a).isSome) && pvCounter c (x.2.touch c.bez c.core ads) (c.s (S 3)) fun o s4 =>
           (let s5 := (s4.fillPlaces pl).checkPlaces c.handle pl
           roomB c s5 && pvDraw c s5 o (q.2 == 65)))) = true := by decide +kernel

theorem witness_PaveInstructions_stat : (let s := tPv (tTables (tSt [(1, 0), (2, 768), (3, 0x1800000), (4, 0x800000), (6, ownVa 0), (7, 0x2000000)]))
    At (.pvstat (S 5) (S 1) 0) s (fun c => !c.g.sh && roomA c s && s.memberOf (.chan (c.s (S 1)).toNat) c.bez.num) && At (.pvstat (S 5) (S 2) 0) s (fun c => decide (767 < (c.s (S 2)).toNat)) &&
    [3, 4, 6, 7].all fun a => At (.pvstat (S 5) (S a) 1) s fun c => !badVa (c.s (S a)) && decide ((c.s (S a)).toNat % 2 ^ 23 = 0) && (isWindow (c.s (S a)) == decide (a = 6)) &&
      (decide (a = 6) || match s.lookup c.bez c.core (c.s (S a)).toNat with
        | .leaf l => decide (a ≠ 7 ∧ leafKind l.raw = if a = 3 then 4 else 2) | .notPresent _ => decide (a = 7) | _ => false)) = true := by decide +kernel

/-- A pavé command on channel 0 with its page filled, its engine at a word. -/
def tEng (f : PvEngine → PvEngine := id) (g : PvCmd → PvCmd := id) : State :=
  tPv (tTables (tSt [] id fun s =>
    { s with curEng := some 0, pvDescs := [{ frame := 0, owner := 0, epoch := 0, gen := 1, rb := 7 }], engines := [f { chan := 0, st := .running, cur := some 1, vcnt := 2, buf := [0x3F80, 0x3F80], nr := 1 }],
             pvCmds := [g { id := 1, by_ := tBy, record := pvRec 0x880200 0x880300, fslot := 0, vec := [0x3F80, 0x3F80], first := 0, count := 1, pagePa := 0, leaf := pvLeaf }] }))

/-- The engine is at a word, and `p` holds of engine and command. -/
def tEngAt (s : State) (p : PvEngine → PvCmd → Bool) : Bool :=
  decide (s.curEng = some 0) && decide ((s.engine 0).st = .running) && ((s.engine 0).cur.bind fun i => s.pvCmd? i).any fun c => p (s.engine 0) c

theorem witness_PaveWords : (tEngAt tEng (fun e p =>
      (List.all [0, 1] fun u => decide (prVlen p.record < u + 1 + 1) == decide (u = 1)) && !p.vecPoison &&
      decide (tEng.pvGen p = some (1, 7)) && !tEng.filling p.pagePa && krowFits p.fslot (prKrow p.record) 7 && decide (2 ^ 15 / 2 ^ 7 < 255 + 2 ∧ ¬2 ^ 15 / 2 ^ 7 < 255 + 1) &&
      decide (prKrow p.record < 16 * 1 + 1 ∧ 16 * 0 + 2 ≤ prKrow p.record ∧ 2 ≤ e.vcnt ∧ e.vcnt < 3) && (tEng.bezel? p.by_.bezel).any (fun z =>
        let s1 := tEng.modPv p.id fun x => { x with gen := some (1, 7) }
        decide (ownRows e (s1.idesc z (leafIdesc p.leaf.raw)) 7 = [0]) && (s1.weights z p 7 (e.rbase + 0) 0 2).isSome) &&
      (tEng.owner? p.by_).any fun w => Ok (tEng.outPlaces w.1 w.2.1 w.2.2 (prOut p.record) e (tEng.openRows e p))) &&
    tEngAt (tEng id fun p => { p with vecPoison := true, pagePa := 2 ^ 23 }) (fun _ p => p.vecPoison && decide (0 + 0 < prVlen p.record) && !tEng.filling p.pagePa && (tEng.pvGen p).isNone) &&
    tEngAt (tEng id fun p => { p with record := pvRec 0x3000000 0 }) fun e p => (tEng.owner? p.by_).any fun w => !Ok (tEng.outPlaces w.1 w.2.1 w.2.2 (prOut p.record) e (tEng.openRows e p))) = true := by decide +kernel

theorem witness_PaveWords_sector : (let s := tEng fun e => { e with word := 0x50000000 }
    tEngAt s fun e p => decide (bits e.word.toNat 31 0 = 0x50000000) && let js := (s.openRows e p).filter fun j => outSector (prOut p.record) e j == 0x880200 / 256
      !js.isEmpty && (s.owner? p.by_).any fun w => Ok (s.outPlaces w.1 w.2.1 w.2.2 (prOut p.record) e js)) = true := by decide +kernel

theorem witness_PaveEvents : ((let idle := fun (st : PvState) => withIn (.paveCommandStart 0) (tEng (fun e => { e with st := st, cur := none }) fun p => { p with waitAt := [0] })
     [PvState.idle, .fenced].all fun st => let s := idle st
      decide ((s.engine 0).cur = none ∧ (s.engine 0).st = st ∧ s.completing 0 = none) && (s.pvWaiting 0).head?.any fun p => decide (p.saved = [])) &&
    (let s := withIn (.paveCommandStart 0) (tEng (fun e => { e with st := .idle, cur := none }) fun p => { p with ended := [(0, 0, 3)] })
     decide ((s.engine 0).cur = none) && (s.completing 0).any fun x => decide (prStat x.record ≠ 0)) &&
    ([([], 0x880300), ([(0, 0, 3)], 0), ([(0, 4, 3)], 0x880300)].all fun (q : List (Nat × Nat × Nat) × Nat) =>
      let s := withIn (.paveCommandComplete 1) (tEng id fun p => { p with record := pvRec 0x880200 q.2, ended := q.1 })
      (s.pvCmd? 1).any fun p => !p.stopped && decide (p.fault = none) && !p.migr && (decide (p.ended.length < p.count) == q.1.isEmpty) && (decide (prStat p.record = 0) == decide (q.2 = 0)) &&
        (decide (q.2 = 0) || (s.owner? p.by_).any fun w => Ok (s.enginePlace w.1 w.2.1 w.2.2 .store (prStat p.record))))) = true := by decide +kernel

/-- A fill of another page at its completion. -/
def tFill : State := withIn (.paveFillComplete 1) (withCmd (.fill (2 ^ 23) 0x1800000 pvLeaf 0x800000 0) tEng)

theorem witness_PaveEvents_fill : ((tFill.cmd? 1).any fun cmd => decide (cmd.fault = none ∧ cmd.what = .fill (2 ^ 23) 0x1800000 pvLeaf 0x800000 0) && !cmd.migr && !cmd.stopped && cmd.by_.drawn &&
    (tFill.cmds.takeWhile (fun c => c.id != 1)).isEmpty && tFill.pvCmds.all (fun x => decide (x.pagePa ≠ 2 ^ 23)) && !cmd.begun && !tFill.genBlocked (2 ^ 23) (leafOwner pvLeaf.raw) &&
    ({ tFill with pvDescs := [{ frame := 2 ^ 23, owner := 0, epoch := 0, gen := 0xFFFFFFFF, rb := 0 }] } : State).genBlocked (2 ^ 23) (leafOwner pvLeaf.raw) && (tFill.owner? cmd.by_).any fun w => decide (w.1.core = 0 ∧ w.2.2.num = 0)) = true := by decide +kernel

/-- The first entry answers where it covers the address. -/
theorem tlbFind_head (e : TlbEntry) (l : List TlbEntry) (va : Nat) (hb : e.bezel = 0) (hc : e.core = 0)
    (h : va / pageSize e.leaf.level * pageSize e.leaf.level = e.page) : tlbFind (e :: l) 0 0 va = some e.leaf := by
  simp [tlbFind, hb, hc, h]

/-- The source of that fill is readable in every sector. -/
theorem witness_PaveEvents_fillSource (tm : Team) (k : Kernel) (z : Bezel) (hc : tm.core = 0) (hz : z.num = 0) : ∀ i < 32768, ∃ d, tFill.fillSector tm k z 0 0x1800000 0x800000 pvLeaf i = .ok d := by
  intro i hi
  have hv : ((0x800000 : W64) + BitVec.ofNat 64 (256 * i)).toNat = 0x800000 + 256 * i := by simp [BitVec.toNat_add]; omega
  have hl : tFill.cached 0 0 (0x800000 + 256 * i) = some { raw := BitVec.ofNat 64 (2 + 8 + 0x100 * 2 ^ 23 + 2 ^ 48), level := 2 } := by
    have ht : tFill.tlb = tTlb ++ [{ bezel := 0, core := 0, page := 0x1800000, leaf := { raw := BitVec.ofNat 64 (4 + 8), level := 2 } }] := by decide +kernel
    rw [State.cached, ht, tTlb, List.cons_append, tlbFind_head _ _ _ rfl rfl (by simp only [pageSize, reduceIte, Nat.reduceEqDiff]; omega)]
  have hs : tFill.side = [] := by decide +kernel
  have hm : ∀ x, tFill.mappedBlock x = none := by
    have h : tFill.teams.all (fun t => decide (t.mapped = [])) = true := by decide +kernel
    intro x
    simp only [State.mappedBlock, List.findSome?_eq_none_iff, Option.map_eq_none_iff]
    intro t ht
    rw [of_decide_eq_true (List.all_eq_true.mp h t ht)]; rfl
  have hb : badVa (0x800000 + BitVec.ofNat 64 (256 * i)) = false := by simp only [badVa, hv]; exact decide_eq_false (by omega)
  have hw : isWindow (0x800000 + BitVec.ofNat 64 (256 * i)) = false := by
    simp only [isWindow, hv, bits, Nat.shiftRight_eq_div_pow]; exact decide_eq_false (by omega)
  have hp : ∃ pa, tFill.translate z tm.core (recKey k.record % 4096) .engine (0x800000 + 256 * i) = .ok pa false 0 := by
    refine ⟨tFill.leafPa z { raw := BitVec.ofNat 64 (2 + 8 + 0x100 * 2 ^ 23 + 2 ^ 48), level := 2 } ((0x800000 + 256 * i) % pageSize 2), ?_⟩
    simp only [State.translate, State.lookup, hc, hz, hl]
    simp [leafSpace, leafOwner, leafKind, leafSync, bits, Acc.writes, State.sidecar, hs, mapGet]
  obtain ⟨pa, hp⟩ := hp
  have hg : ∃ p, tFill.place tm k z .engine (0x800000 + BitVec.ofNat 64 (256 * i)) = .ok p ∧ ∃ a b, p = .glob pa a b (0x800000 + BitVec.ofNat 64 (256 * i)) := by
    simp only [State.place, hb, hw, State.globalPlace, hv, hp, hm]
    exact ⟨_, rfl, _, _, rfl⟩
  obtain ⟨p, hg, a, b, rfl⟩ := hg
  have ht : (tFill.sidecar (tFill.leafPa z pvLeaf (256 * i) / 256)).owner = 0 := by simp [State.sidecar, hs, mapGet]
  simp only [State.fillSector, ht, ne_eq, not_true_eq_false, decide_false, Bool.false_and, Bool.false_eq_true, if_false, State.engineRead, State.enginePlace, hg, hm]
  exact ⟨_, rfl⟩

/-! ### Witnesses: bezels, keys, the Locket, the host, and steps -/

/-- A `bzreq` record: OP and BEZEL, CONFIG, DONECTR, CORES. -/
def bRec (op bz cfg done cores : Nat) : List Byte :=
  leBytes (op + bz * 2 ^ 8) 8 ++ leBytes cfg 8 ++ leBytes done 8 ++ List.replicate 8 0 ++ leBytes cores 8 ++ List.replicate 216 0

theorem witness_BezelsAndKeys_bzreq : (At (.bzreq (S 2) (S 1)) (tSt [(1, 0x900080)]) (fun c => !c.g.sh && !badVa (c.s (S 1)) && decide ((c.s (S 1)).toNat % 256 ≠ 0)) &&
    ([(bRec 0 0 0 0 0, 0, 0, 1), (bRec 1 1 0x900100 0 0, 0, 0, 1), (bRec 4 0 0 0 0, 0, 0, 0), (bRec 4 0 0 0x1000801 0, 0, 0, 1), (bRec 4 0 0 0x900100 0, 0, 0, 1),
        (bRec 4 0 0 0x1000800 0, 1, 1, 0), (bRec 4 0 0 0x1000800 0, 65, 2, 0)].all fun (q : List Byte × Nat × Nat × Nat) =>
      let s := tSt [(1, 0x900000)] id fun s => tTables (withMem (tPa + 0x100000) q.1 (counter2 q.2.1 { s with units := [(.core 0, .member 0)] }))
      At (.bzreq (S 2) (S 1)) s fun c => !c.g.sh && !badVa (c.s (S 1)) && decide ((c.s (S 1)).toNat % 256 = 0) && roomA c s && (reads c s .scalarLoad (c.s (S 1)) 256).any fun x =>
        (if bzOp x.1 = 1 ∧ (bzConfig x.1).toNat % 64 = 0 then reads c x.2 .scalarLoad (bzConfig x.1) 64 else some ([], x.2)).any fun y =>
        let p := y.2.place c.team c.kern c.bez .sync (bzDone x.1)
        let z := if bzDone x.1 = 0 ∨ (bzDone x.1).toNat % 32 ≠ 0 ∨ badVa (bzDone x.1) = true ∨ isWindow (bzDone x.1) = true then some (none, y.2) else match p with
          | .trap _ => some (none, y.2)
          | .ok p => some (Place.counter (some p), y.2.touch c.bez c.core [bzDone x.1])
          | _ => none
        z.any fun z => mayCommit c z.2 && (let s4 := c.commit z.2 false
          roomA c s4 && decide (s4.bzStatus (some c.bez) x.1 y.1 (bzDone x.1 != 0 && z.1.isNone) = q.2.2.2) &&
          (match z.1 with
           | none => q.2.2.1 == 0
           | some o => match s4.draw o c.handle with
             | .ticket _ t => q.2.2.1 == 1 && roomA c t
             | .wait => q.2.2.1 == 2)))) = true := by decide +kernel

theorem witness_BezelsAndKeys_status : (let s := tSt [] id fun s => { s with units := [(.core 0, .member 0)] }
    [(bRec 2 0 0 0 2, false, true), (bRec 2 1 0 0 2, true, false), (bRec 2 0 0 0 3, true, true), (bRec 2 0 0 0 2, true, true)].all fun q => !bzMbz q.1 && decide (bzConfig q.1 = 0 ∧ bzOp q.1 = 2) &&
      (bzUnits q.1).all (fun u => decide (s.unit u ≠ .gone)) && (decide (s.bezelState (bzBezel q.1) = .active) == q.2.2) &&
      ((bzUnits q.1).all (fun u => decide (s.unit u = .free)) == decide (q.1 = bRec 2 0 0 0 2 ∨ q.1 = bRec 2 1 0 0 2))) = true := by decide +kernel

theorem witness_BezelsAndKeys_keys : (([0, 4096].all fun n => [Instr.keygenGenerate (S 2) (S 1), .keygenDestroy (S 2) (S 1), .keyseal (S 2) (S 1) (S 3)].all fun i =>
      At i (tSt [(1, BitVec.ofNat 64 n)]) fun c => decide ((c.s (S 1)).toNat = 0 ∨ 4096 ≤ (c.s (S 1)).toNat)) &&
    At (.keyseal (S 2) (S 1) (S 3)) (tSt [(1, 1), (3, 16)]) (fun c => decide (16 ≤ (c.s (S 3)).toNat)) &&
    ([1, 4095].all fun n => [KeyState.empty, .generating, .ready].all fun k => [Instr.keygenGenerate (S 2) (S 1), .keygenDestroy (S 2) (S 1), .keyseal (S 2) (S 1) (S 3)].all fun i =>
      let s := tSt [(1, BitVec.ofNat 64 n), (3, 15)] id fun s => { s with keys := [{ slot := n, st := k, sealed := some 15 }] }
      At i s fun c => decide (0 < (c.s (S 1)).toNat ∧ (c.s (S 1)).toNat < 4096 ∧ (c.s (S 3)).toNat < 16) && !c.g.sh && roomA c s && Ok (boundary c s false) fun s1 =>
        roomA c (s1.keyBegin c.bez n c.handle).1 && (((s1.keyBegin c.bez n c.handle).2 == none) == decide (k = .empty)) && roomA c (s1.keyDestroy c.bez n).1 && roomA c (s1.keySealTo c.bez n 15).1) &&
    ([KeyState.empty, .generating, .ready].all fun k => [some 15, none].all fun b => let s := { tSt with keys := [{ slot := 2, st := k, sealed := b }] }
      (tSt.bezel? 0).any fun z => keyDenied { z with operator := false } (s.keySlot 2) == b.isSome && !keyDenied z (s.keySlot 2) && !s.keyInUse 2 && decide ((s.keySlot 2).st = k ∧ (s.keySlot 2).sealed = b)) &&
    decide ({ tSt with keys := [{ slot := 0, st := .ready }] }.keyInUse 0 = true)) = true := by decide +kernel

theorem witness_BezelsAndKeys_attest : ((let z := tSt [(30, 0)]; At (.attest (S 2) (S 1) (S 3)) z fun c => decide (c.em = 0) && roomB c z) &&
    (let h := tSh false [] fun g => { g with bnd := .passed }; At (.attest (S 2) (S 1) (S 3)) h fun c => decide (c.em ≠ 0) && c.g.sh && mayCommit c h) &&
    let s := tSt [(1, 0x900000), (2, ownVa 0), (3, 0)]
    At (.attest (S 2) (S 1) (S 3)) s fun c => decide (c.em ≠ 0 ∧ (c.s (S 2)).toNat % 4096 = 0) && !c.g.sh && roomB c s &&
      (let ads := (List.range 16).map fun k => c.s (S 2) + BitVec.ofNat 64 (256 * k)
       let s2 := (s.touch c.bez c.core ads).touch c.bez c.core [c.s (S 1)]
       (ads.all fun a => (reaches c s .store 256 a).isSome) && (reaches c (s.touch c.bez c.core ads) .engine 64 (c.s (S 1))).isSome && mayCommit c s2)) = true := by decide +kernel

/-- A unit that is not fenced and belongs to the bezel. -/
theorem witness_BezelsAndKeys_fence : ([UnitId.core 0, .slice 0, .chan 0].all fun u => decide (u ∉ ({ tEng with units := [(u, .member 0)] } : State).fencedUnits ∧ validUnit u = true ∧ ({ tEng with units := [(u, .member 0)] } : State).unit u = .member 0)) = true := by
  decide +kernel

theorem witness_BezelsAndKeys_events : (([(BState.active, false), (.growing, true), (.active, true)].all fun q => let s := withIn (.rehashSweepComplete 0) (inBezel (fun b => { b with st := q.1, sweep := q.2 }) tSt)
      (s.bezel? 0).any fun z => decide (z.sweep = q.2 ∧ z.st = q.1)) &&
    ([UState.quarantine, .member 0].all fun u => let s := withIn (.unitScrubComplete (.chan 0)) { tSt with units := [(.chan 0, u)] }
      decide (s.unit (.chan 0) = u ∧ s.inChan 0 0 = true ∧ s.inChan 0 (2 ^ 30 - 1) = true ∧ s.inChan 0 (2 ^ 30) = false)) &&
    (let s := tEng
     decide (({ s with units := [(.slice 0, .member 0)] } : State).unit (.slice 0) = .member 0 ∧ s.unit (.chan 0) = .member 0 ∧ (s.engine 0).cur = some 1) && s.pvCmds.any fun p => decide (p.id = 1)) &&
    ([true, false].all fun p => let s := withIn (.keyDrawComplete 2 p) { tSt with keys := [{ slot := 2, st := .generating }] }
      decide ((s.keySlot 2).st = .generating ∧ s.input = some (.keyDrawComplete 2 p))) &&
    ([(GenState.retesting, 1), (.retesting, 2), (.healthy, 0)].all fun q => let s := withIn (.generatorRetest false) { tSt with gen := q.1, fails := q.2 }
      decide (s.gen = q.1 ∧ s.fails = q.2))) = true := by decide +kernel

theorem witness_LocketAndHost_issue : (let s := tSt [(1, 0x100), (2, 0xFF0), (3, 0x108), (4, 0x2000000), (5, 0x200000000000000), (6, 0x100000000)]
    At (.locketw (S 1) (S 2) 7) s (fun c => !c.g.sh && roomB c s) && ([1, 2].all fun a => At (.caprd (S 7) (S a) 1) s fun c => !c.g.sh && roomA c s && decide ((c.s (S a)).toNat % 16 = 0)) &&
    At (.caprd (S 7) (S 3) 0) s (fun c => !c.g.sh && decide ((c.s (S 3)).toNat % 16 ≠ 0)) &&
    At (.tlbinv (S 5) 2) s (fun c => !c.g.sh && badVa (c.s (S 5))) && ([(4, 2), (5, 3)].all fun q => [s, withPosted s].all fun s => At (.tlbinv (S q.1) (BitVec.ofNat 8 q.2)) s fun c => !c.g.sh && roomB c s &&
      (decide (2 < q.2) || !badVa (c.s (S q.1)) && !isWindow (c.s (S q.1))) && mayCommit c s && (let s1 := (c.commit s false).publish c.g c.core 3
        (s1.hasPosted c.g 4 == !s.posted.isEmpty) && roomB c ((s1.invalidate c.bez.num (if q.2 ≤ 2 then (c.s (S q.1)).toNat else 0) (invSize q.2)).retryMigrating c.bez.num))) &&
    (let h := tSh false [(1, 0x100)] fun g => { g with bnd := .passed }
     [Instr.tlbinv (S 1) 2, .fltret (S 1)].all fun i => At i h fun c => decide (bits (c.s (S 1)).toNat 63 32 = 0) && c.g.sh && mayCommit c h) &&
    At (.fltret (S 6)) s (fun c => decide (bits (c.s (S 6)).toNat 63 32 ≠ 0)) && [s, withPosted s].all fun s => At (.fltret (S 1)) s fun c => decide (bits (c.s (S 1)).toNat 63 32 = 0) && !c.g.sh && roomB c s &&
      mayCommit c s && (let s1 := (c.commit s false).publish c.g c.core 3
       (s1.hasPosted c.g 4 == !s.posted.isEmpty) && roomB c (s1.faultReturn c.bez.num ((c.s (S 1)).setWidth 32) c.die c.handle))) = true := by decide +kernel

theorem witness_LocketAndHost_audit : ([0, 8].all fun e => let s := withIn (.auditRecordDelivery 0 1) { (tMb 0 0 e tSt) with audits := [{ bezel := 0, kind := 1, addr := 0, count := 1 }] }
    (s.bezel? 0).any fun b => (s.audits.find? fun x => x.bezel == 0 && x.kind == 1).any fun q => (s.mbPost b b.faultMb (BitVec.ofNat 32 1) q.body).isSome == decide (e = 8)) = true := by decide +kernel

theorem witness_LocketAndHost_memory : (let s := tSt
    let t := s.setSidecar 4 { owner := 5 }
    decide (hdmBytes - 8 < hdmBytes ∧ (hdmBytes - 8) % 64 + 8 ≤ 64 ∧ s.host.entropy = false ∧ (s.sidecar (s.localPa 0x400 / 256)).owner = 0 ∧ s.mailboxAt (s.localPa 0x400) = none ∧ s.localPa 0x400 % 64 + 56 ≤ 56 ∧
      s.poisoned (s.localPa 0x400 / 256) = false ∧ (t.sidecar (t.localPa 0x400 / 256)).owner = 5 ∧ ({ s with host := { s.host with entropy := true } } : State).host.entropy = true)) = true := by decide +kernel

theorem witness_LocketAndHost_held : (let s := fun (o : List Undo) => (tSt.modTeam 1 fun t => { t with mapped := [{ off := 0, va := 0x400, sector := tSt.localPa 0x400 / 256, owner := 0, filled := true, dirty := true }], undo := o })
    [[], [({ owner := tG, blk := 0, old := [] } : Undo)]].all fun o => decide ((s o).host.entropy = false ∧ ((s o).sidecar ((s o).localPa 0x400 / 256)).owner = 0) &&
      ((s o).recallWaits ((s o).localPa 0x400 / 256) == !o.isEmpty)) = true := by decide +kernel

/-- A group whose `tlbinv` of step `n` has its flag raised, and a store of step 3 on its way. -/
def tInval (n : Nat) : State :=
  tSt [] (tOp [] (.inval 0 0x800000 (2 ^ 16) n)) fun s => withIn (.operationCompletion tG 1 0xFFFFFFFF) { s with posted := [{ src := tG, kernel := (0, 0), instr := 3, cells := [(2 ^ 43 + tPa, 1)], owner := 0 }] }

theorem witness_LocketAndHost_inval : ([0, 5].all fun n => On (tInval n) tG fun _ g => (g.op? 1).any fun x =>
    decide (x.what = .inval 0 0x800000 (2 ^ 16) n) && ((tInval n).underWay 0 0x800000 (2 ^ 16) n == decide (n = 5))) = true := by decide +kernel

theorem witness_LocketAndHost_throttle : (let s := { tSt with host := { thrStep := 1 } }
    [((1 : BitVec 2), true), (2, true), (0, false)].all fun q =>
      (decide (q.1 = s.host.thrStep) || decide (s.host.thrStep < q.1) == s.host.overLimit 2800001 0) == q.2) = true := by decide +kernel

theorem witness_LocketAndHost_registers : (let at_ := fun (m : MState) (e : Bool) => { tSt with host := { mstate := m, entropy := e } }
    decide ((at_ .configOpen false).mcmdTakes 2 = false ∧ (0x10 : BitVec 16).toNat % 8 = 0 ∧ allowListed 0x10 = false ∧ allowListed 0x30 = true ∧ (at_ .run false).host.mstate = .run ∧
      (at_ .configLocked false).host.mstate = .configLocked ∧ (at_ .configOpen true).host.entropy = true) && [MState.configOpen, .configLocked].all fun m => (at_ m true).mcmdTakes 3) = true := by decide +kernel

/-- A step with a move next. -/
def Next (s : State) (m : Move) (p : State → Bool) : Bool := match s.agenda with | x :: rest => decide (x = m) && p { s.tick with agenda := rest } | [] => false

theorem witness_StepRunsDecoded_issue : ([0x20D0D1D2, 0x08000001].all fun w => let s := tSt [] (fun g => { g with clause := g.clause.map fun c => { c with words := [BitVec.ofNat 32 w] } }) fun s => { s with agenda := [.issue tG] }
    Next s (.issue tG) fun t => t.mayIssue tG && (t.ctxOf tG).any fun c => (c.cl.words[c.cl.idx]?).any fun x => Ok (decode x) == decide (w = 0x20D0D1D2)) = true := by decide +kernel

theorem witness_StepRunsDecoded_others : (Next { State.reset with agenda := [.issue tG] } (.issue tG) (fun t => !t.mayIssue tG) && Next { State.reset with agenda := [.event .mcmdLock] } (.event .mcmdLock) (fun _ => true) &&
    ([0x70000000, 0x80000000].all fun w => Next (State.reset.placePave w) (.pave 0) fun t => (t.engines.find? fun x => x.chan == 0).any fun e => (decodePave e.word).isSome == decide (w = 0x70000000)) &&
    decide (State.reset.agenda = [] ∧ State.reset.choose = none) && (let s := { State.reset with units := [(.chan 0, .quarantine)] }
      decide (s.agenda = [] ∧ s.choose = some (.event (.unitScrubComplete (.chan 0)))))) = true := by decide +kernel

theorem witness_StepRunsDecoded_hw : ([(HwStep.fence (.chan 0), true), (.ack 0, false)].all fun q => Next { State.reset with agenda := [.hw q.1] } (.hw q.1) fun t => (t.hwStep q.1).isSome == q.2) = true := by
  decide +kernel

theorem witness_StepKeepsMemOk : (State.reset.withFetchWord 32 0x20D0D1D2).MemOk ∧ ∃ t, step (State.reset.withFetchWord 32 0x20D0D1D2) = .next t := by
  refine ⟨⟨by decide +kernel, by decide +kernel, by decide +kernel⟩, ?_⟩
  have h : (match step (State.reset.withFetchWord 32 0x20D0D1D2) with | .next _ => true | _ => false) = true := by decide +kernel
  split at h
  · exact ⟨_, by assumption⟩
  · cases h

theorem witness_EncodeDecode : encode (.sadd 0xD0 0xD1 0xD2) = some 0x20D0D1D2 ∧ encode (.pvVec 4 3) = some 0x10010003 ∧ encode .keyDrawComplete = none := by decide +kernel

/-! ### Words written out from the encodings of the opcode table (R61, R345), operands different from field to field -/

/-- The word decodes to the instruction, and is the instruction's encoding. -/
def isWord (w : W32) (i : Instr) : Bool := (match decode w with | .ok j => decide (j = i) | .error _ => false) && decide (encode i = some w) && WellFormed i

/-- The pavé word decodes to the instruction, and is its encoding. -/
def isPave (w : W32) (i : Instr) : Bool := decide (decodePave w = some i) && decide (encode i = some w) && WellFormed i

theorem test_decode_0_0 : (isWord 0x01ABCDE5 (.bra 0xABCDE5) &&
    isWord 0x0261A5C3 (.brz 0x61 0xA5C3) &&
    isWord 0x0361A5C3 (.brnz 0x61 0xA5C3) &&
    isWord 0x0461A5C3 (.call 0x61 0xA5C3) &&
    isWord 0x05F06100 (.ret 0x61) &&
    isWord 0x0661D209 (.brx 0x61 0xD2 0x9) &&
    isWord 0x07F0A5C3 (.split 0xA5C3) &&
    isWord 0x08000000 .join &&
    isWord 0x09000000 .dpush &&
    isWord 0x0A000000 .dpop &&
    isWord 0x0B000000 .exit &&
    isWord 0x0C000000 .yield &&
    isWord 0x0DF00312 (.mode 0x312) &&
    isWord 0x0E000000 .nop) = true := by decide +kernel

theorem test_decode_1_0 : (isWord 0x1061D201 (.ballot 0x61 0xD2 0x1) &&
    isWord 0x1161D200 (.vall 0x61 0xD2) &&
    isWord 0x1261D200 (.vany 0x61 0xD2) &&
    isWord 0x1361D253 (.shfl 0x61 0xD2 0x53) &&
    isWord 0x1461D215 (.shflx 0x61 0xD2 0x15) &&
    isWord 0x1561D216 (.shflu 0x61 0xD2 0x16) &&
    isWord 0x1661D217 (.shfld 0x61 0xD2 0x17) &&
    isWord 0x1761D2B5 (.rdlane 0x61 0xD2 0xB5) &&
    isWord 0x1861D2B6 (.wrlane 0x61 0xD2 0xB6) &&
    isWord 0x1961D200 (.lsum 0x61 0xD2) &&
    isWord 0x1A61D200 (.lmax 0x61 0xD2) &&
    isWord 0x1B61D200 (.lmin 0x61 0xD2) &&
    isWord 0x1C61D203 (.scan 0x61 0xD2 0x3) &&
    isWord 0x1D61D201 (.mcount 0x61 0xD2 0x1)) = true := by decide +kernel

theorem test_decode_2_0 : (isWord 0x2061D253 (.sadd 0x61 0xD2 0x53) &&
    isWord 0x2161D253 (.ssub 0x61 0xD2 0x53) &&
    isWord 0x2261D253 (.smul 0x61 0xD2 0x53) &&
    isWord 0x2361D253 (.smulh 0x61 0xD2 0x53) &&
    isWord 0x2461D253 (.smulhu 0x61 0xD2 0x53) &&
    isWord 0x2561D253 (.sdivu 0x61 0xD2 0x53) &&
    isWord 0x2661D253 (.sremu 0x61 0xD2 0x53) &&
    isWord 0x2761D253 (.sand 0x61 0xD2 0x53) &&
    isWord 0x2861D253 (.sor 0x61 0xD2 0x53) &&
    isWord 0x2961D253 (.sxor 0x61 0xD2 0x53) &&
    isWord 0x2A61D253 (.sandn 0x61 0xD2 0x53) &&
    isWord 0x2B61D253 (.sshl 0x61 0xD2 0x53) &&
    isWord 0x2C61D253 (.sshr 0x61 0xD2 0x53) &&
    isWord 0x2D61D253 (.ssar 0x61 0xD2 0x53) &&
    isWord 0x2E61D253 (.smin 0x61 0xD2 0x53) &&
    isWord 0x2F61D253 (.smax 0x61 0xD2 0x53)) = true := by decide +kernel

theorem test_decode_3_0 : (isWord 0x3061D253 (.sminu 0x61 0xD2 0x53) &&
    isWord 0x3161D253 (.smaxu 0x61 0xD2 0x53) &&
    isWord 0x3261D253 (.seq 0x61 0xD2 0x53) &&
    isWord 0x3361D253 (.slt 0x61 0xD2 0x53) &&
    isWord 0x3461D253 (.sltu 0x61 0xD2 0x53) &&
    isWord 0x3561D253 (.ssel 0x61 0xD2 0x53) &&
    isWord 0x3661D253 (.sbfe 0x61 0xD2 0x53) &&
    isWord 0x3761D253 (.sbfi 0x61 0xD2 0x53) &&
    isWord 0x3861D200 (.spopc 0x61 0xD2) &&
    isWord 0x3961D200 (.sclz 0x61 0xD2) &&
    isWord 0x3A61D200 (.sctz 0x61 0xD2) &&
    isWord 0x3B61D200 (.smov 0x61 0xD2) &&
    isWord 0x3C61A5C3 (.smovi 0x61 0xA5C3) &&
    isWord 0x3D61A5C3 (.smovh 0x61 0xA5C3)) = true := by decide +kernel

theorem test_decode_4_0 : (isWord 0x4061D253 (.add 0x61 0xD2 0x53) &&
    isWord 0x4161D253 (.sub 0x61 0xD2 0x53) &&
    isWord 0x4261D253 (.mul 0x61 0xD2 0x53) &&
    isWord 0x4361D253 (.fma 0x61 0xD2 0x53) &&
    isWord 0x4461D253 (.fms 0x61 0xD2 0x53) &&
    isWord 0x4561D253 (.fnma 0x61 0xD2 0x53) &&
    isWord 0x4661D253 (.min 0x61 0xD2 0x53) &&
    isWord 0x4761D253 (.max 0x61 0xD2 0x53) &&
    isWord 0x4861D200 (.abs 0x61 0xD2) &&
    isWord 0x4961D200 (.neg 0x61 0xD2) &&
    isWord 0x4A61D200 (.mov 0x61 0xD2) &&
    isWord 0x4B61D253 (.and 0x61 0xD2 0x53) &&
    isWord 0x4C61D253 (.or 0x61 0xD2 0x53) &&
    isWord 0x4D61D253 (.xor 0x61 0xD2 0x53) &&
    isWord 0x4E61D200 (.not 0x61 0xD2) &&
    isWord 0x4F61D253 (.shl 0x61 0xD2 0x53)) = true := by decide +kernel

theorem test_decode_5_0 : (isWord 0x5061D253 (.shr 0x61 0xD2 0x53) &&
    isWord 0x5161D253 (.sar 0x61 0xD2 0x53) &&
    isWord 0x5261D253 (.mulhi 0x61 0xD2 0x53) &&
    isWord 0x5361D253 (.clamp 0x61 0xD2 0x53) &&
    isWord 0x5461D253 (.sel 0x61 0xD2 0x53) &&
    isWord 0x5561D253 (.cmpeq 0x61 0xD2 0x53) &&
    isWord 0x5661D253 (.cmpne 0x61 0xD2 0x53) &&
    isWord 0x5761D253 (.cmplt 0x61 0xD2 0x53) &&
    isWord 0x5861D253 (.cmple 0x61 0xD2 0x53) &&
    isWord 0x5961D253 (.cmpun 0x61 0xD2 0x53) &&
    isWord 0x5A61D200 (.floor 0x61 0xD2) &&
    isWord 0x5B61D200 (.ceil 0x61 0xD2) &&
    isWord 0x5C61D200 (.rnde 0x61 0xD2) &&
    isWord 0x5D61D200 (.trunc 0x61 0xD2) &&
    isWord 0x5E61D200 (.fract 0x61 0xD2) &&
    isWord 0x5F61D253 (.copysign 0x61 0xD2 0x53)) = true := by decide +kernel

theorem test_decode_6_0 : (isWord 0x6061D200 (.popc 0x61 0xD2) &&
    isWord 0x6161D200 (.clz 0x61 0xD2) &&
    isWord 0x6261D253 (.bfe 0x61 0xD2 0x53) &&
    isWord 0x6361D253 (.bfi 0x61 0xD2 0x53) &&
    isWord 0x6461D253 (.dot2 0x61 0xD2 0x53) &&
    isWord 0x6561D202 (.swaph 0x61 0xD2 0x2) &&
    isWord 0x6661D253 (.perm 0x61 0xD2 0x53) &&
    isWord 0x6761D253 (.lanes 0x61 0xD2 0x53) &&
    isWord 0x6861D253 (.ldexp 0x61 0xD2 0x53)) = true := by decide +kernel

theorem test_decode_7_0 : (isWord 0x7061D274 (.cvt 0x61 0xD2 0x7 0x4) &&
    isWord 0x7161D2BD (.cvtf 0x61 0xD2 0x1 0x7 0x5) &&
    isWord 0x7261D253 (.pack 0x61 0xD2 0x53) &&
    isWord 0x7361D200 (.unpkl 0x61 0xD2) &&
    isWord 0x7461D200 (.unpkh 0x61 0xD2) &&
    isWord 0x7561D200 (.rcp 0x61 0xD2) &&
    isWord 0x7661D200 (.rsq 0x61 0xD2) &&
    isWord 0x7761D200 (.sqrt 0x61 0xD2) &&
    isWord 0x7861D200 (.exp2 0x61 0xD2) &&
    isWord 0x7961D200 (.log2 0x61 0xD2) &&
    isWord 0x7A61D200 (.sinpi 0x61 0xD2) &&
    isWord 0x7B61D200 (.cospi 0x61 0xD2) &&
    isWord 0x7C61D200 (.rred 0x61 0xD2) &&
    isWord 0x7D61D200 (.tanh 0x61 0xD2) &&
    isWord 0x7E61D253 (.div 0x61 0xD2 0x53)) = true := by decide +kernel

theorem test_decode_8_0 : (isWord 0x806100B0 (.rgrow 0x61 0xB0) &&
    isWord 0x81F00018 (.rshrink 0x18) &&
    isWord 0x8261000D (.trgrow 0x61 0xD) &&
    isWord 0x83F0000B (.trshrink 0xB) &&
    isWord 0x8461D202 (.vshape 0x61 0xD2 0x2) &&
    isWord 0x8561F01A (.sread 0x61 0x1A) &&
    isWord 0x86F06104 (.swrite 0x61 0x4) &&
    isWord 0x8761F002 (.slit 0x61 0x2)) = true := by decide +kernel

theorem test_decode_9_0 : (isWord 0x9061D253 (.ld 0x61 0xD2 0x53) &&
    isWord 0x9161D253 (.ld16 0x61 0xD2 0x53) &&
    isWord 0x9261D253 (.ld8 0x61 0xD2 0x53) &&
    isWord 0x9361D253 (.st 0x61 0xD2 0x53) &&
    isWord 0x9461D253 (.st16 0x61 0xD2 0x53) &&
    isWord 0x9561D253 (.st8 0x61 0xD2 0x53) &&
    isWord 0x9661D253 (.lds 0x61 0xD2 0x53) &&
    isWord 0x9761D253 (.sts 0x61 0xD2 0x53) &&
    isWord 0x9861D253 (.ldb 0x61 0xD2 0x53) &&
    isWord 0x9961D253 (.stb 0x61 0xD2 0x53) &&
    isWord 0x9A61D253 (.smap 0x61 0xD2 0x53) &&
    isWord 0x9BF06100 (.sunmap 0x61) &&
    isWord 0x9CF06100 (.sflush 0x61) &&
    isWord 0x9DF0F034 (.fence 0x1 0x2 0x4) &&
    isWord 0x9E61D253 (.cpy 0x61 0xD2 0x53) &&
    isWord 0x9FF061D2 (.pref 0x61 0xD2)) = true := by decide +kernel

theorem test_decode_a_0 : (isWord 0xA061D253 (.binit 0x61 0xD2 0x53) &&
    isWord 0xA1F06101 (.barr 0x61 0x1) &&
    isWord 0xA2F061D2 (.barx 0x61 0xD2) &&
    isWord 0xA3F061D2 (.bwait 0x61 0xD2) &&
    isWord 0xA461D253 (.atadd 0x61 0xD2 0x53) &&
    isWord 0xA561D253 (.atmin 0x61 0xD2 0x53) &&
    isWord 0xA661D253 (.atmax 0x61 0xD2 0x53) &&
    isWord 0xA761D253 (.atand 0x61 0xD2 0x53) &&
    isWord 0xA861D253 (.ator 0x61 0xD2 0x53) &&
    isWord 0xA961D253 (.atxor 0x61 0xD2 0x53) &&
    isWord 0xAA61D253 (.atxch 0x61 0xD2 0x53) &&
    isWord 0xAB61D253 (.atcas 0x61 0xD2 0x53) &&
    isWord 0xAC61D200 (.tlincSignal 0x61 0xD2) &&
    isWord 0xAC61D201 (.tlincReserve 0x61 0xD2) &&
    isWord 0xAC61D202 (.tlincComplete 0x61 0xD2) &&
    isWord 0xAD61D202 (.tlrd 0x61 0xD2 0x2)) = true := by decide +kernel

theorem test_decode_b_0 : (isWord 0xB00DF000 (.tzero 0xD) &&
    isWord 0xB10D61D2 (.mma 0xD 0x61 0xD2) &&
    isWord 0xB30D6100 (.tld 0xD 0x61) &&
    isWord 0xB40D6100 (.tst 0xD 0x61) &&
    isWord 0xB50D0621 (.tcvt 0xD 0x6 0x2 0x1) &&
    isWord 0xB661061D (.tcolr 0x61 0x6 0x1D) &&
    isWord 0xB70D611E (.tcolw 0xD 0x61 0x1E) &&
    isWord 0xB8000000 .mfence &&
    isWord 0xB961F004 (.rprd 0x61 0x4) &&
    isWord 0xBA0DF000 (.stest 0xD) &&
    isWord 0xBB0D6101 (.tscale 0xD 0x61 0x1)) = true := by decide +kernel

theorem test_decode_c_0 : (isWord 0xC061D200 (.fopen 0x61 0xD2) &&
    isWord 0xC161D253 (.fsend 0x61 0xD2 0x53) &&
    isWord 0xC261D253 (.fmcast 0x61 0xD2 0x53) &&
    isWord 0xC3F06100 (.freseed 0x61) &&
    isWord 0xC4F06100 (.fclose 0x61) &&
    isWord 0xC561D204 (.fstat 0x61 0xD2 0x4) &&
    isWord 0xC861D253 (.coll 0x61 0xD2 0x53) &&
    isWord 0xC9F06105 (.cringCfg 0x61 0x5) &&
    isWord 0xC9F0610D (.cringRel 0x61 0x5) &&
    isWord 0xC9F06115 (.cringClose 0x61 0x5) &&
    isWord 0xCA61D253 (.tcopy 0x61 0xD2 0x53) &&
    isWord 0xCB61D253 (.xroute 0x61 0xD2 0x53) &&
    isWord 0xCCF06100 (.xtable 0x61)) = true := by decide +kernel

theorem test_decode_d_0 : (isWord 0xD0F061D2 (.task 0x61 0xD2) &&
    isWord 0xD161A5C3 (.trap 0x61 0xA5C3) &&
    isWord 0xD2000000 .tret &&
    isWord 0xD3000000 .tmask &&
    isWord 0xD4000000 .tunmask &&
    isWord 0xD5000000 .lkill &&
    isWord 0xD861D2F0 (.mbrecv 0x61 0xD2) &&
    isWord 0xD961D253 (.mbsend 0x61 0xD2 0x53) &&
    isWord 0xDA61D204 (.mbpeek 0x61 0xD2 0x4) &&
    isWord 0xDC61D2F0 (.launch 0x61 0xD2) &&
    isWord 0xDD61D204 (.kquery 0x61 0xD2 0x4) &&
    isWord 0xDEF06100 (.kcancel 0x61) &&
    isWord 0xDFF06100 (.kpreemptSave 0x61) &&
    isWord 0xDFF06101 (.kpreemptDiscard 0x61)) = true := by decide +kernel

theorem test_decode_e_0 : (isWord 0xE061D200 (.aopen 0x61 0xD2) &&
    isWord 0xE161D253 (.astep 0x61 0xD2 0x53) &&
    isWord 0xE2F06100 (.aclose 0x61) &&
    isWord 0xE3F06100 (.aabandon 0x61) &&
    isWord 0xE461D203 (.aquery 0x61 0xD2 0x3) &&
    isWord 0xE5F061D2 (.aresolve 0x61 0xD2) &&
    isWord 0xE6F06100 (.acret 0x61) &&
    isWord 0xE861D253 (.pvsub 0x61 0xD2 0x53) &&
    isWord 0xE961D2F0 (.pvfill 0x61 0xD2) &&
    isWord 0xEA61D201 (.pvstat 0x61 0xD2 0x1)) = true := by decide +kernel

theorem test_decode_f_0 : (isWord 0xF061D200 (.bzreq 0x61 0xD2) &&
    isWord 0xF161D200 (.keygenGenerate 0x61 0xD2) &&
    isWord 0xF161D201 (.keygenDestroy 0x61 0xD2) &&
    isWord 0xF261D253 (.keyseal 0x61 0xD2 0x53) &&
    isWord 0xF361D253 (.attest 0x61 0xD2 0x53) &&
    isWord 0xF461D253 (.locketw 0x61 0xD2 0x53) &&
    isWord 0xF561D201 (.caprd 0x61 0xD2 0x1) &&
    isWord 0xF6F06103 (.tlbinv 0x61 0x3) &&
    isWord 0xF7F06100 (.fltret 0x61)) = true := by decide +kernel

theorem test_decode_pave : (isPave 0x00000000 .pvNop &&
    isPave 0x1A95DC35 (.pvVec 0x2A57 0x1C35) &&
    isPave 0x2B477698 (.pvRows 0x5A3B 0x2D3) &&
    isPave 0x3A95DC35 (.pvMac 0x2A57 0x1C35) &&
    isPave 0x4000A5C3 (.pvScale 0xA5C3) &&
    isPave 0x50000000 .pvOut &&
    isPave 0x60000000 .pvSync &&
    isPave 0x70000000 .pvEnd) = true := by decide +kernel

/-! ### Well-formedness (R55, R56): an ill-formed term for each check -/

theorem test_ill_formed : (([.brx 0xD1 0xD2 1, .brx 0xD1 0xD2 11, .mode 0x2000, .mode 0x0D00, .mode 0x0050, .mode 0x0009, .ballot 0xD0 1 2, .shflx 1 2 32, .shflu 1 2 32, .shfld 1 2 32, .rdlane 0xD0 1 192, .wrlane 1 2 192, .scan 1 2 4, .mcount 0xD0 1 2, .swaph 1 2 3, .cvt 1 2 9 0, .cvt 1 2 0 9, .rgrow 0xD0 4, .rgrow 0xD0 192, .rgrow 0xD0 12, .rshrink 4, .rshrink 192, .rshrink 12, .trgrow 0xD0 0, .trgrow 0xD0 17, .trshrink 0, .trshrink 17, .vshape 0xD0 1 3, .sread 0xD0 11, .sread 0xD0 32, .swrite 0xD0 5, .slit 0xD0 3, .fence 0 1 5, .fence 0 0 1, .barr 0xD0 2, .tlrd 0xD0 0xD1 3, .tcvt 1 2 3 0, .tcvt 1 2 0 3, .tcvt 1 2 1 1, .tcolr 1 1 32, .tcolw 1 1 32, .rprd 0xD0 5, .tscale 1 1 2, .fstat 0xD0 0xD1 5, .mbpeek 0xD0 0xD1 5, .kquery 0xD0 0xD1 5, .aquery 0xD0 0xD1 4, .pvstat 0xD0 0xD1 2, .caprd 0xD0 0xD1 2, .tlbinv 0xD0 4] : List Instr).all fun i => !WellFormed i) = true := by decide +kernel

/-! ### One step on the manual's worked values -/

/-- The group after the word's instruction, from the state. -/
def After (w : W32) (s : State) (p : Group → Bool) : Bool :=
  match decode w with
  | .ok i => (match exec i s with | .next t => (t.group? tG).any p | _ => false)
  | .error _ => false

/-- A group with vector registers set in every lane. -/
def tVec (e : Nat) (vs : List (Nat × W32)) (h : State → State := id) (lits : List W32 := [0, 0, 0, 0]) : State :=
  tStOf (tRec 0 0 0 sup 0) [] (fun g => { (vs.foldl (fun (g : Group) p => { g with v := g.v.set p.1 { l := Lanes.splat p.2 } }) g) with
    gmode := BitVec.ofNat 16 e, clause := g.clause.map fun c => { c with lits := lits } }) id h

/-- Lane 5 of a vector register. -/
def lane5 (n : Nat) (g : Group) : W32 := (g.vreg (BitVec.ofNat 8 n)).l.lane 5

/-- The format slots of the record: fs3 set. -/
def tFs3 (fs : Nat) (s : State) : State :=
  s.modKernel 0 0 fun k => { k with record := k.record.take 136 ++ leBytes fs 8 ++ k.record.drop 144 }

/-- `smovi`, `smovh` (R134, worked constant). -/
theorem test_smovi_signs : After 0x3CD89ABC tSt (fun g => g.sreg 8 == 0xFFFFFFFFFFFF9ABC) = true := by decide +kernel
theorem test_smovh_shifts : After 0x3DD89ABC (tSt [(8, 0x12345678)]) (fun g => g.sreg 8 == 0x123456789ABC) = true := by decide +kernel
/-- `sbfe` (the same worked constant: k0 = 0x1008). -/
theorem test_sbfe_extracts : After 0x36D9D8CC (tStOf (tRec 0 0 0 sup 0) [(8, 0x123456789ABC)] (fun g => { g with clause := g.clause.map fun c => { c with lits := [0x1008] } }) id id)
    (fun g => g.sreg 9 == 0x789A) = true := by decide +kernel
/-- `sadd` wraps modulo 2^64 (R132), its source also its destination. -/
theorem test_sadd_wraps : After 0x20D1D1D1 (tSt [(1, 0x8000000000000003)]) (fun g => g.sreg 1 == 6) = true := by decide +kernel
/-- I32 `add` wraps (R28). -/
theorem test_add_wraps : After 0x40020301 (tVec 0 [(3, 0x7FFFFFFF), (1, 1)]) (fun g => lane5 2 g == 0x80000000) = true := by decide +kernel
/-- `dot2` (worked, R145). -/
theorem test_dot2_ties : After 0x64060405 (tVec 3 [(4, 0x3F803F80), (5, 0x33803F81)]) (fun g => lane5 6 g == 0x3F810000) = true := by decide +kernel
/-- `cvt` from F32 and from I32 to I8x4 (worked, R147). -/
theorem test_cvt_clamps : After 0x70050427 (tVec 0 [(4, 0x43965999)]) (fun g => lane5 5 g == 0x7F) = true := by decide +kernel
theorem test_cvt_wraps : After 0x70050407 (tVec 0 [(4, 300)]) (fun g => lane5 5 g == 0x2C) = true := by decide +kernel
/-- `cvtf` through T6 (worked, R148). -/
theorem test_cvtf_encodes : After 0x7107038B (tVec 2 [(3, 0x3FC00000), (7, 0x10)] (tFs3 0x13)) (fun g => lane5 7 g == 0x490) = true := by decide +kernel
theorem test_cvtf_decodes : After 0x7108070B (tVec 2 [(7, 0x490)] (tFs3 0x13)) (fun g => lane5 8 g == 0x3FC00000) = true := by decide +kernel
/-- `rred`, `sinpi`, `cospi` (worked, R154). -/
theorem test_rred_exact : After 0x7C020300 (tVec 2 [(3, 0x400AAAAB)]) (fun g => lane5 2 g == 0x3E2AAAB0) = true := by decide +kernel
theorem test_cospi_odd : After 0x7B020300 (tVec 2 [(3, 0xBF800000)]) (fun g => lane5 2 g == 0xBF800000) = true := by decide +kernel

/-- F32 to BF16 in the five modes, and with SAT (worked rounding of R30). -/
theorem test_bf16_rounding : (([(0x3F808000, [0x3F80, 0x3F80, 0x3F81, 0x3F80, 0x3F81]), (0x3F808001, [0x3F81, 0x3F80, 0x3F81, 0x3F80, 0x3F81]),
    (0xBF808000, [0xBF80, 0xBF80, 0xBF80, 0xBF81, 0xBF81]), (0x7F7FFFFF, [0x7F80, 0x7F7F, 0x7F80, 0x7F7F, 0x7F80])] : List (Nat × List Nat)).all fun q =>
      q.2.zipIdx.all fun r => bf16.round r.2 false false (f32.dec false q.1) == r.1) = true := by decide +kernel

/-- The fates of R60's worked decodings that need no more than a word. -/
theorem test_refused_words : (([0x00000000, 0x0E000001, 0x4AC0DB05, 0xB2000000, 0xAC11D203] : List W32).all fun w => match decode w with | .error _ => true | .ok _ => false) = true := by decide +kernel
/-- A reserved operand code traps ILLOPERAND (R57, worked decoding). -/
theorem test_reserved_code : (match decode 0x4A05CA00 with | .ok i => (tSt.ctx).any fun c => decide (precheck c i = some ILLOPERAND) | .error _ => false) = true := by decide +kernel

/-- A word placed with `withFetchWord` is what the next step runs (log entry 4), and the table's numbering of its bits is the
decoder's. -/
theorem test_withFetchWord : (match step (State.reset.withFetchWord 32 0x3CD81234) with
    | .next t => (t.group? tG).any fun g => decide (g.sreg 8 = 0x1234)
    | _ => false) = true := by decide +kernel
theorem test_decodeTableWord : decodeTableWord 32 0x40030501 = some (.add 3 5 1) ∧ decodeTableWord 32 0x70000000 = some (.cvt 0 0 0 0) ∧ decodeTableWord 32 0x0E000001 = none := by decide +kernel

end Sys2Proof.Tests
end

section
/-! SUPPORT. The encoder and the decoders agree (R24, R55 to R58, R61, R345). Each format of a word is read once, as an equivalence
between the word put together of its parts and the fields that the decoders cut from it (`word_…`, named by the widths of the parts);
both directions of the round trip go through these. -/

namespace Sys2Proof.Encoding

open Sys2Proof Sys2Proof.Machine

/-! ### Fields of a word -/

section Formats

variable {w : W32}

/-- A run of bits of a word is a value put together of two exactly when its two parts are theirs. -/
theorem append_eq_fld_iff (w : W32) (lo m n : Nat) (x : BitVec m) (y : BitVec n) :
    x ++ y = fld w lo (m + n) ↔ x = fld w (lo + n) m ∧ fld w lo n = y := by
  rw [fld, ← BitVec.extractLsb'_append_extractLsb'_eq_extractLsb' (x := w) (start₁ := lo) rfl]
  constructor
  · intro h
    have hx := congrArg (BitVec.extractLsb' n m) h
    have hy := congrArg (BitVec.extractLsb' 0 n) h
    rw [BitVec.extractLsb'_append_eq_left, BitVec.extractLsb'_append_eq_left] at hx
    rw [BitVec.extractLsb'_append_eq_right, BitVec.extractLsb'_append_eq_right] at hy
    exact ⟨hx, hy.symm⟩
  · rintro ⟨rfl, rfl⟩
    rfl

/-- A run of bits of a word is a value exactly when both parts of a cut agree. -/
theorem eq_fld_iff (w : W32) (lo m n : Nat) (x : BitVec (m + n)) :
    x = fld w lo (m + n) ↔ x.extractLsb' n m = fld w (lo + n) m ∧ fld w lo n = x.extractLsb' 0 n := by
  rw [← append_eq_fld_iff, BitVec.extractLsb'_append_extractLsb']

/-- An opcode alone: its two digits. -/
theorem opcode_eq_fld_iff (w : W32) (o : BitVec 8) :
    o = fld w 24 8 ↔ fld w 28 4 = o.extractLsb' 4 4 ∧ fld w 24 4 = o.extractLsb' 0 4 := by
  rw [eq_fld_iff w 24 4 4 o, eq_comm]

/-- An opcode with fixed bits below it: its two digits, and those bits. -/
theorem fixedBits_eq_fld_iff (w : W32) (lo n : Nat) (o : BitVec (4 + (4 + n))) : o = fld w lo (4 + (4 + n)) ↔
    fld w (lo + (4 + n)) 4 = o.extractLsb' (4 + n) 4 ∧ fld w (lo + n) 4 = o.extractLsb' n 4 ∧ fld w lo n = o.extractLsb' 0 n := by
  rw [eq_fld_iff, eq_comm, eq_comm (a := fld w lo (4 + n)), eq_fld_iff, eq_comm (b := fld w (lo + n) 4),
    BitVec.extractLsb'_extractLsb'_of_le (by omega), BitVec.extractLsb'_extractLsb'_of_le (by omega)]

/-- A word is the run of all its bits. -/
theorem eq_word_iff {x : W32} {P : Prop} (h : x = fld w 0 32 ↔ P) : x = w ↔ P := by
  rwa [fld, BitVec.extractLsb'_eq_self] at h

/-- One part more at the low end of a format. The formats below stand by the widths of their parts, opcode first. -/
theorem append_format {lo m n : Nat} {x : BitVec m} {y : BitVec n} {P : Prop} (h : x = fld w (lo + n) m ↔ P) :
    x ++ y = fld w lo (m + n) ↔ P ∧ fld w lo n = y := by
  rw [append_eq_fld_iff, h]

@[simp] theorem word_8_24 (o : BitVec 8) (a : BitVec 24) : (o ++ a : W32) = w ↔
    (fld w 28 4 = o.extractLsb' 4 4 ∧ fld w 24 4 = o.extractLsb' 0 4) ∧ fld w 0 24 = a :=
  eq_word_iff <| append_format <| opcode_eq_fld_iff w o

@[simp] theorem word_8_8_16 (o : BitVec 8) (a : BitVec 8) (b : BitVec 16) : (o ++ a ++ b : W32) = w ↔
    ((fld w 28 4 = o.extractLsb' 4 4 ∧ fld w 24 4 = o.extractLsb' 0 4) ∧ fld w 16 8 = a) ∧ fld w 0 16 = b :=
  eq_word_iff <| append_format <| append_format <| opcode_eq_fld_iff w o

@[simp] theorem word_16_16 (o : BitVec 16) (a : BitVec 16) : (o ++ a : W32) = w ↔
    (fld w 28 4 = o.extractLsb' 12 4 ∧ fld w 24 4 = o.extractLsb' 8 4 ∧ fld w 16 8 = o.extractLsb' 0 8) ∧ fld w 0 16 = a :=
  eq_word_iff <| append_format <| fixedBits_eq_fld_iff w 16 8 o

@[simp] theorem word_16_8_8 (o : BitVec 16) (a : BitVec 8) (b : BitVec 8) : (o ++ a ++ b : W32) = w ↔
    ((fld w 28 4 = o.extractLsb' 12 4 ∧ fld w 24 4 = o.extractLsb' 8 4 ∧ fld w 16 8 = o.extractLsb' 0 8) ∧ fld w 8 8 = a) ∧
      fld w 0 8 = b :=
  eq_word_iff <| append_format <| append_format <| fixedBits_eq_fld_iff w 16 8 o

@[simp] theorem word_8_8_8_8 (o : BitVec 8) (a : BitVec 8) (b : BitVec 8) (c : BitVec 8) : (o ++ a ++ b ++ c : W32) = w ↔
    (((fld w 28 4 = o.extractLsb' 4 4 ∧ fld w 24 4 = o.extractLsb' 0 4) ∧ fld w 16 8 = a) ∧ fld w 8 8 = b) ∧ fld w 0 8 = c :=
  eq_word_iff <| append_format <| append_format <| append_format <| opcode_eq_fld_iff w o

@[simp] theorem word_8_8_8_4_4 (o : BitVec 8) (a : BitVec 8) (b : BitVec 8) (c : BitVec 4) (d : BitVec 4) :
    (o ++ a ++ b ++ c ++ d : W32) = w ↔
    ((((fld w 28 4 = o.extractLsb' 4 4 ∧ fld w 24 4 = o.extractLsb' 0 4) ∧ fld w 16 8 = a) ∧ fld w 8 8 = b) ∧ fld w 4 4 = c) ∧
      fld w 0 4 = d :=
  eq_word_iff <| append_format <| append_format <| append_format <| append_format <| opcode_eq_fld_iff w o

@[simp] theorem word_8_8_8_1_4_3 (o : BitVec 8) (a : BitVec 8) (b : BitVec 8) (c : BitVec 1) (d : BitVec 4) (e : BitVec 3) :
    (o ++ a ++ b ++ c ++ d ++ e : W32) = w ↔
    (((((fld w 28 4 = o.extractLsb' 4 4 ∧ fld w 24 4 = o.extractLsb' 0 4) ∧ fld w 16 8 = a) ∧ fld w 8 8 = b) ∧ fld w 7 1 = c) ∧
      fld w 3 4 = d) ∧ fld w 0 3 = e :=
  eq_word_iff <| append_format <| append_format <| append_format <| append_format <| append_format <| opcode_eq_fld_iff w o

@[simp] theorem word_26_1_2_3 (o : BitVec 26) (a : BitVec 1) (b : BitVec 2) (c : BitVec 3) : (o ++ a ++ b ++ c : W32) = w ↔
    (((fld w 28 4 = o.extractLsb' 22 4 ∧ fld w 24 4 = o.extractLsb' 18 4 ∧ fld w 6 18 = o.extractLsb' 0 18) ∧ fld w 5 1 = a) ∧
      fld w 3 2 = b) ∧ fld w 0 3 = c :=
  eq_word_iff <| append_format <| append_format <| append_format <| fixedBits_eq_fld_iff w 6 18 o

@[simp] theorem word_12_4_16 (o : BitVec 12) (a : BitVec 4) (b : BitVec 16) : (o ++ a ++ b : W32) = w ↔
    ((fld w 28 4 = o.extractLsb' 8 4 ∧ fld w 24 4 = o.extractLsb' 4 4 ∧ fld w 20 4 = o.extractLsb' 0 4) ∧ fld w 16 4 = a) ∧
      fld w 0 16 = b :=
  eq_word_iff <| append_format <| append_format <| fixedBits_eq_fld_iff w 20 4 o

@[simp] theorem word_12_4_8_8 (o : BitVec 12) (a : BitVec 4) (b : BitVec 8) (c : BitVec 8) : (o ++ a ++ b ++ c : W32) = w ↔
    (((fld w 28 4 = o.extractLsb' 8 4 ∧ fld w 24 4 = o.extractLsb' 4 4 ∧ fld w 20 4 = o.extractLsb' 0 4) ∧ fld w 16 4 = a) ∧
      fld w 8 8 = b) ∧ fld w 0 8 = c :=
  eq_word_iff <| append_format <| append_format <| append_format <| fixedBits_eq_fld_iff w 20 4 o

@[simp] theorem word_12_4_4_4_4_4 (o : BitVec 12) (a : BitVec 4) (b : BitVec 4) (c : BitVec 4) (d : BitVec 4) (e : BitVec 4) :
    (o ++ a ++ b ++ c ++ d ++ e : W32) = w ↔
    (((((fld w 28 4 = o.extractLsb' 8 4 ∧ fld w 24 4 = o.extractLsb' 4 4 ∧ fld w 20 4 = o.extractLsb' 0 4) ∧ fld w 16 4 = a) ∧
      fld w 12 4 = b) ∧ fld w 8 4 = c) ∧ fld w 4 4 = d) ∧ fld w 0 4 = e :=
  eq_word_iff <| append_format <| append_format <| append_format <| append_format <| append_format <| fixedBits_eq_fld_iff w 20 4 o

@[simp] theorem word_8_8_4_4_8 (o : BitVec 8) (a : BitVec 8) (b : BitVec 4) (c : BitVec 4) (d : BitVec 8) :
    (o ++ a ++ b ++ c ++ d : W32) = w ↔
    ((((fld w 28 4 = o.extractLsb' 4 4 ∧ fld w 24 4 = o.extractLsb' 0 4) ∧ fld w 16 8 = a) ∧ fld w 12 4 = b) ∧ fld w 8 4 = c) ∧
      fld w 0 8 = d :=
  eq_word_iff <| append_format <| append_format <| append_format <| append_format <| opcode_eq_fld_iff w o

@[simp] theorem word_16_8_5_3 (o : BitVec 16) (a : BitVec 8) (b : BitVec 5) (c : BitVec 3) : (o ++ a ++ b ++ c : W32) = w ↔
    (((fld w 28 4 = o.extractLsb' 12 4 ∧ fld w 24 4 = o.extractLsb' 8 4 ∧ fld w 16 8 = o.extractLsb' 0 8) ∧ fld w 8 8 = a) ∧
      fld w 3 5 = b) ∧ fld w 0 3 = c :=
  eq_word_iff <| append_format <| append_format <| append_format <| fixedBits_eq_fld_iff w 16 8 o

theorem word_32 (o : BitVec 32) : o = w ↔
    fld w 28 4 = o.extractLsb' 28 4 ∧ fld w 24 4 = o.extractLsb' 24 4 ∧ fld w 0 24 = o.extractLsb' 0 24 :=
  eq_word_iff <| fixedBits_eq_fld_iff w 0 24 o

theorem pave_4_14_14 (o : BitVec 4) (a b : BitVec 14) : (o ++ a ++ b : W32) = w ↔
    (fld w 28 4 = o ∧ fld w 14 14 = a) ∧ fld w 0 14 = b :=
  eq_word_iff <| append_format <| append_format <| eq_comm

theorem pave_4_15_10_3 (o : BitVec 4) (a : BitVec 15) (b : BitVec 10) (c : BitVec 3) : (o ++ a ++ b ++ c : W32) = w ↔
    ((fld w 28 4 = o ∧ fld w 13 15 = a) ∧ fld w 3 10 = b) ∧ fld w 0 3 = c :=
  eq_word_iff <| append_format <| append_format <| append_format <| eq_comm

theorem pave_16_16 (o a : BitVec 16) :
    (o ++ a : W32) = w ↔ (fld w 28 4 = o.extractLsb' 12 4 ∧ fld w 16 12 = o.extractLsb' 0 12) ∧ fld w 0 16 = a :=
  eq_word_iff <| append_format <| by rw [eq_fld_iff w 16 4 12 o, eq_comm]

theorem pave_32 (o : BitVec 32) : o = w ↔ fld w 28 4 = o.extractLsb' 28 4 ∧ fld w 0 28 = o.extractLsb' 0 28 :=
  eq_word_iff <| by rw [eq_fld_iff w 0 4 28 o, eq_comm]

end Formats

/-! ### The words of the clause stream -/

/-- The instructions of the pavé stream (R345). -/
def IsPave (i : Instr) : Prop :=
  (∃ o n f r x, i = .pvVec o n ∨ i = .pvRows f r ∨ i = .pvMac o n ∨ i = .pvScale x) ∨
    i = .pvNop ∨ i = .pvOut ∨ i = .pvSync ∨ i = .pvEnd

/-- The word of an instruction of the clause stream decodes to it. -/
theorem decode_of_encode (w : W32) (i : Instr) (hp : ¬ IsPave i) (h : encode i = some w) : decode w = .ok i := by
  cases i
  case pvNop | pvVec | pvRows | pvMac | pvScale | pvOut | pvSync | pvEnd => simp [IsPave] at hp
  all_goals simp only [encode, reduceCtorEq, Option.some.injEq, word_8_24, word_8_8_16, word_16_16, word_16_8_8, word_8_8_8_8,
    word_8_8_8_4_4, word_8_8_8_1_4_3, word_26_1_2_3, word_12_4_16, word_12_4_8_8, word_12_4_4_4_4_4, word_8_8_4_4_8, word_16_8_5_3,
    word_32] at h
  all_goals simp [decode, decode0, decode1, decode2, decode3, decode4, decode5, decode6, decode7, decode8, decode9, decodeA, decodeB,
    decodeC, decodeD, decodeE, decodeF, fixed, h]

/-- Every instruction that a decoder can answer for a word is an instruction of the clause stream whose word it is. -/
def Names (w : W32) (x : Except DecodeError Instr) : Prop := ∀ i, x = .ok i → encode i = some w ∧ ¬ IsPave i

@[simp] theorem names_error (w : W32) (e : DecodeError) : Names w (.error e) := fun _ h => nomatch h

@[simp] theorem names_ok {w : W32} {i : Instr} : Names w (.ok i) ↔ encode i = some w ∧ ¬ IsPave i :=
  ⟨fun h => h i rfl, fun h _ hi => Except.ok.inj hi ▸ h⟩

@[simp] theorem names_ite {w : W32} {p : Prop} [Decidable p] {x y : Except DecodeError Instr} :
    Names w (if p then x else y) ↔ (p → Names w x) ∧ (¬ p → Names w y) := by
  split <;> simp [*]

@[simp] theorem names_fixed {w : W32} {ok : Bool} {e : DecodeError} {x : Except DecodeError Instr} :
    Names w (fixed ok e x) ↔ (ok = true → Names w x) := by
  rw [fixed, names_ite]
  exact and_iff_left fun _ => names_error w e

/-- The sixteen values of a digit of an opcode. -/
theorem digit_cases (x : BitVec 4) : x = 0 ∨ x = 1 ∨ x = 2 ∨ x = 3 ∨ x = 4 ∨ x = 5 ∨ x = 6 ∨ x = 7 ∨ x = 8 ∨
    x = 9 ∨ x = 10 ∨ x = 11 ∨ x = 12 ∨ x = 13 ∨ x = 14 ∨ x = 15 := by
  revert x; decide

/-- Each decoder names what it answers, one lemma per leading digit: in each of its sixteen cases the fields that it reads are those of
the word's format, and the fixed fields hold the values that it has tested. -/
theorem decode0_names {w : W32} (hw : fld w 28 4 = 0) : Names w (decode0 w) := by
  rcases digit_cases (fld w 24 4) with h | h | h | h | h | h | h | h | h | h | h | h | h | h | h | h
  all_goals simp [decode0, h, hw, encode, IsPave, word_32]

theorem decode1_names {w : W32} (hw : fld w 28 4 = 1) : Names w (decode1 w) := by
  rcases digit_cases (fld w 24 4) with h | h | h | h | h | h | h | h | h | h | h | h | h | h | h | h
  all_goals simp [decode1, h, hw, encode, IsPave]

theorem decode2_names {w : W32} (hw : fld w 28 4 = 2) : Names w (decode2 w) := by
  rcases digit_cases (fld w 24 4) with h | h | h | h | h | h | h | h | h | h | h | h | h | h | h | h
  all_goals simp [decode2, h, hw, encode, IsPave]

theorem decode3_names {w : W32} (hw : fld w 28 4 = 3) : Names w (decode3 w) := by
  rcases digit_cases (fld w 24 4) with h | h | h | h | h | h | h | h | h | h | h | h | h | h | h | h
  all_goals simp [decode3, h, hw, encode, IsPave]

theorem decode4_names {w : W32} (hw : fld w 28 4 = 4) : Names w (decode4 w) := by
  rcases digit_cases (fld w 24 4) with h | h | h | h | h | h | h | h | h | h | h | h | h | h | h | h
  all_goals simp [decode4, h, hw, encode, IsPave]

theorem decode5_names {w : W32} (hw : fld w 28 4 = 5) : Names w (decode5 w) := by
  rcases digit_cases (fld w 24 4) with h | h | h | h | h | h | h | h | h | h | h | h | h | h | h | h
  all_goals simp [decode5, h, hw, encode, IsPave]

theorem decode6_names {w : W32} (hw : fld w 28 4 = 6) : Names w (decode6 w) := by
  rcases digit_cases (fld w 24 4) with h | h | h | h | h | h | h | h | h | h | h | h | h | h | h | h
  all_goals simp [decode6, h, hw, encode, IsPave]

theorem decode7_names {w : W32} (hw : fld w 28 4 = 7) : Names w (decode7 w) := by
  rcases digit_cases (fld w 24 4) with h | h | h | h | h | h | h | h | h | h | h | h | h | h | h | h
  all_goals simp [decode7, h, hw, encode, IsPave]

theorem decode8_names {w : W32} (hw : fld w 28 4 = 8) : Names w (decode8 w) := by
  rcases digit_cases (fld w 24 4) with h | h | h | h | h | h | h | h | h | h | h | h | h | h | h | h
  all_goals simp [decode8, h, hw, encode, IsPave]

theorem decode9_names {w : W32} (hw : fld w 28 4 = 9) : Names w (decode9 w) := by
  rcases digit_cases (fld w 24 4) with h | h | h | h | h | h | h | h | h | h | h | h | h | h | h | h
  all_goals simp [decode9, h, hw, encode, IsPave]

theorem decodeA_names {w : W32} (hw : fld w 28 4 = 10) : Names w (decodeA w) := by
  rcases digit_cases (fld w 24 4) with h | h | h | h | h | h | h | h | h | h | h | h | h | h | h | h
  all_goals simp [decodeA, h, hw, encode, IsPave]

theorem decodeB_names {w : W32} (hw : fld w 28 4 = 11) : Names w (decodeB w) := by
  rcases digit_cases (fld w 24 4) with h | h | h | h | h | h | h | h | h | h | h | h | h | h | h | h
  all_goals simp +contextual [decodeB, h, hw, encode, IsPave, word_32]

theorem decodeC_names {w : W32} (hw : fld w 28 4 = 12) : Names w (decodeC w) := by
  rcases digit_cases (fld w 24 4) with h | h | h | h | h | h | h | h | h | h | h | h | h | h | h | h
  all_goals simp +contextual [decodeC, h, hw, encode, IsPave]

theorem decodeD_names {w : W32} (hw : fld w 28 4 = 13) : Names w (decodeD w) := by
  rcases digit_cases (fld w 24 4) with h | h | h | h | h | h | h | h | h | h | h | h | h | h | h | h
  all_goals simp +contextual [decodeD, h, hw, encode, IsPave, word_32]

theorem decodeE_names {w : W32} (hw : fld w 28 4 = 14) : Names w (decodeE w) := by
  rcases digit_cases (fld w 24 4) with h | h | h | h | h | h | h | h | h | h | h | h | h | h | h | h
  all_goals simp [decodeE, h, hw, encode, IsPave]

theorem decodeF_names {w : W32} (hw : fld w 28 4 = 15) : Names w (decodeF w) := by
  rcases digit_cases (fld w 24 4) with h | h | h | h | h | h | h | h | h | h | h | h | h | h | h | h
  all_goals simp [decodeF, h, hw, encode, IsPave]

/-- A word that decodes to an instruction is its word. -/
theorem decode_names (w : W32) : Names w (decode w) := by
  rcases digit_cases (fld w 28 4) with h | h | h | h | h | h | h | h | h | h | h | h | h | h | h | h
  all_goals simp only [decode, h, BitVec.reduceToNat]
  · exact decode0_names h
  · exact decode1_names h
  · exact decode2_names h
  · exact decode3_names h
  · exact decode4_names h
  · exact decode5_names h
  · exact decode6_names h
  · exact decode7_names h
  · exact decode8_names h
  · exact decode9_names h
  · exact decodeA_names h
  · exact decodeB_names h
  · exact decodeC_names h
  · exact decodeD_names h
  · exact decodeE_names h
  · exact decodeF_names h

/-! ### The pavé words -/

/-- The word of a pavé instruction decodes to it (R345). -/
theorem decodePave_of_encode (w : W32) (i : Instr) (hp : IsPave i) (h : encode i = some w) : decodePave w = some i := by
  rcases hp with ⟨o, n, f, r, x, rfl | rfl | rfl | rfl⟩ | rfl | rfl | rfl | rfl
  all_goals simp only [encode, Option.some.injEq, pave_4_14_14, pave_4_15_10_3, pave_16_16, pave_32] at h
  all_goals simp [decodePave, h]

/-- A word that decodes to a pavé instruction is its word (R345). -/
theorem encode_of_decodePave (w : W32) (i : Instr) (h : decodePave w = some i) : encode i = some w ∧ IsPave i := by
  rcases digit_cases (fld w 28 4) with hw | hw | hw | hw | hw | hw | hw | hw | hw | hw | hw | hw | hw | hw | hw | hw
  all_goals simp only [decodePave, hw, BitVec.reduceToNat, reduceCtorEq, Option.some.injEq, Option.ite_none_right_eq_some,
    beq_iff_eq] at h
  case inr.inl | inr.inr.inr.inl => subst h; simp [encode, IsPave, hw, pave_4_14_14]
  all_goals
    obtain ⟨hz, rfl⟩ := h
    simp [-word_16_16, encode, IsPave, hw, hz, pave_4_15_10_3, pave_16_16, pave_32]

/-! ### The steps without a word -/

/-- An input of each step without a word. -/
def sampleEvent : Instr → Event
  | .clauseFetch => .clauseFetch ⟨0, 0, false⟩
  | .clauseStart => .clauseStart ⟨0, 0, false⟩
  | .operationCompletion => .operationCompletion ⟨0, 0, false⟩ 0 0
  | .groupSwap => .groupSwap 0 0 none
  | .groupExitDrain => .groupExitDrain ⟨0, 0, false⟩
  | .shareGrant => .shareGrant 0 0 false
  | .pageWalkComplete => .pageWalkComplete 0 0 0
  | .faultRecordDelivery => .faultRecordDelivery 0
  | .stashRecall => .stashRecall 0 0 false
  | .blockedAccessResume => .blockedAccessResume ⟨0, 0, false⟩
  | .copyEngineComplete => .copyEngineComplete 0
  | .leaseExpiry => .leaseExpiry 0 0
  | .postedStoreArrival => .postedStoreArrival (.own 0)
  | .bwaitSatisfied => .bwaitSatisfied ⟨0, 0, false⟩
  | .ticketDrawResume => .ticketDrawResume ⟨0, 0, false⟩
  | .matrixOpComplete => .matrixOpComplete ⟨0, 0, false⟩ 0 none
  | .transferStart => .transferStart 0
  | .chunkArrival => .chunkArrival 0 0 0 0 []
  | .trailerArrival => .trailerArrival 0 0 0 0 0
  | .nackArrival => .nackArrival 0 0 0 [] false
  | .ackArrival => .ackArrival 0 0 0 false
  | .absentRetryTimer => .absentRetryTimer 0 0
  | .reseedArrival => .reseedArrival 0 0 0
  | .flowCloseComplete => .flowCloseComplete 0
  | .tcopyCreditGrant => .tcopyCreditGrant 0
  | .ringLineReport => .ringLineReport 0 0
  | .descriptorReceive => .descriptorReceive 0 0 0 ⟨0, 0, false, 0, 0, 0⟩
  | .contribEntryHead => .contribEntryHead ⟨0, 0, false⟩
  | .collectiveComplete => .collectiveComplete 0 0 []
  | .capacityClaim => .capacityClaim 0
  | .claimReply => .claimReply 0
  | .taskCommit => .taskCommit ⟨0, 0, false⟩
  | .trapDelivery => .trapDelivery ⟨0, 0, false⟩
  | .deferredTrapTake => .deferredTrapTake ⟨0, 0, false⟩
  | .stopComplete => .stopComplete 0
  | .maskedHoldTimeout => .maskedHoldTimeout ⟨0, 0, false⟩
  | .contextRestore => .contextRestore 0 0
  | .sealArrival => .sealArrival 0 0 0 [] 0
  | .mailboxFieldStore => .mailboxFieldStore 0 0 0 [] 0
  | .hostMailboxWrite => .hostMailboxWrite 0 0 0 []
  | .outboundPhaseAdvance => .outboundPhaseAdvance 0 0
  | .teamDispatch => .teamDispatch 0
  | .retirementComplete => .retirementComplete 0 0
  | .compensatorLaunch => .compensatorLaunch 0
  | .compensatorRetire => .compensatorRetire 0
  | .paveCommandStart => .paveCommandStart 0
  | .paveCommandComplete => .paveCommandComplete 0
  | .paveFillComplete => .paveFillComplete 0
  | .rehashSweepComplete => .rehashSweepComplete 0
  | .unitScrubComplete => .unitScrubComplete (.core 0)
  | .keyDrawComplete => .keyDrawComplete 0 false
  | .generatorRetest => .generatorRetest false
  | .hostMemWrite => .hostMemWrite 0 []
  | .hostMemRead => .hostMemRead 0 0
  | .auditRecordDelivery => .auditRecordDelivery 0 0
  | .mcmdRun => .mcmdRun false
  | .mcmdDrawOpenKey => .mcmdDrawOpenKey false
  | .bar0Write => .bar0Write 0 0 0
  | .throttleStep => .throttleStep 0 0 0
  | .coldReset => .coldReset false []
  | .warmReset => .warmReset false
  | .bar0Read => .bar0Read 0 0
  | _ => .mcmdLock

theorem eventInstr_sampleEvent {i : Instr} (h : encode i = none) : eventInstr (sampleEvent i) = i := by
  cases i
  all_goals simp only [encode, reduceCtorEq] at h
  all_goals rfl

/-- The encoder has no word exactly for the steps that an event is the input of. -/
theorem encode_eq_none_iff (i : Instr) : encode i = none ↔ ∃ e : Event, i = eventInstr e := by
  constructor
  · exact fun h => ⟨sampleEvent i, (eventInstr_sampleEvent h).symm⟩
  · rintro ⟨e, rfl⟩
    cases e <;> rfl

/-- Settles O58: each direction through the formats of the words, the pavé words apart. -/
theorem encodeDecode : Obligations.EncodeDecode := by
  intro i w pave hpave
  have hp : pave ↔ IsPave i := hpave
  rw [hp]
  refine ⟨fun h => ⟨decode_of_encode w i h, fun hd => (decode_names w i hd).1⟩,
    fun h => ⟨decodePave_of_encode w i h, fun hd => (encode_of_decodePave w i hd).1⟩,
    fun h hd => (decode_names w i hd).2 h, fun h hd => h (encode_of_decodePave w i hd).2, encode_eq_none_iff i⟩

/-! ### Words written out -/

/-- Settles O57: every word is decoded by evaluation. -/
theorem decodeWords : Obligations.DecodeWords :=
  ⟨rfl, rfl, rfl, rfl, rfl, rfl, rfl, rfl, rfl, rfl, rfl, rfl, rfl, rfl, rfl, rfl, rfl, rfl, rfl, rfl, rfl, rfl, rfl, rfl, rfl, rfl,
    rfl, rfl, rfl, rfl, rfl, ⟨.filler, rfl⟩, ⟨.reservedOpcode, rfl⟩, ⟨.reservedValue, rfl⟩, ⟨.filler, rfl⟩⟩

end Sys2Proof.Encoding
end

section
/-! SUPPORT. What a step carries out (log entry 1): the statement of the steps is refuted by a state in which the passing of time
changes a team. -/

namespace Sys2Proof.Machine

open Sys2Proof

/-- A module that holds one group: PENDING, outside its active set, and with no live slot, so that it is not ready (R88, R92). -/
def unreadyPending : State :=
  { teams := [{ sid := 1, bezel := 0, kslot := 0, kseq := 0, tid := 0, core := 0, groups := [{ alive := false }] }] }

/-- The passing of time puts the group to sleep. -/
theorem tick_unreadyPending_asleep : unreadyPending.tick.teams.map (fun t => t.groups.map (·.asleep)) = [[true]] := rfl

/-- Refutes O56: its last clause says that the passing of time leaves every team as it was, but `State.tick` rouses the groups that
have become ready and marks as asleep those that are not (`State.rouseAll`, R88 and R99), and those marks are fields of the teams. In
`unreadyPending` the one group is awake before the tick and asleep after it. -/
theorem not_stepRunsDecoded : ¬ Obligations.StepRunsDecoded := by
  unfold Obligations.StepRunsDecoded
  intro h
  obtain ⟨-, -, -, -, -, -, -, -, -, hteams, -⟩ := h unreadyPending { unreadyPending.tick with agenda := [] } [] rfl
  have hasleep := tick_unreadyPending_asleep
  rw [hteams] at hasleep
  exact absurd hasleep (by decide)

end Sys2Proof.Machine
end

section
/-! SUPPORT. What an instruction that writes one scalar, and what a branch, `yield`, `mode` or `nop`, leaves alone (R57, R102, R107,
R131). -/

namespace Sys2Proof.Machine

open Sys2Proof

/-! ### Passing an instruction, field by field -/

@[simp] theorem Group.advance_v (g : Group) : g.advance.v = g.v := (congrArg Group.v g.advance_body :)
@[simp] theorem Group.advance_o (g : Group) : g.advance.o = g.o := (congrArg Group.o g.advance_body :)
@[simp] theorem Group.advance_t (g : Group) : g.advance.t = g.t := (congrArg Group.t g.advance_body :)
@[simp] theorem Group.advance_s (g : Group) : g.advance.s = g.s := (congrArg Group.s g.advance_body :)
@[simp] theorem Group.advance_exited (g : Group) : g.advance.exited = g.exited := (congrArg Group.exited g.advance_body :)
@[simp] theorem Group.advance_dsp (g : Group) : g.advance.dsp = g.dsp := (congrArg Group.dsp g.advance_body :)
@[simp] theorem Group.advance_gmode (g : Group) : g.advance.gmode = g.gmode := (congrArg Group.gmode g.advance_body :)
@[simp] theorem Group.advance_sreg (g : Group) (n : Nat) : g.advance.sreg n = g.sreg n := by simp [Group.sreg]
@[simp] theorem Group.modClause_sreg (g : Group) (f : Clause → Clause) (n : Nat) : (g.modClause f).sreg n = g.sreg n := by
  simp [Group.sreg]

/-! ### A scalar result, field by field -/

@[simp] theorem Group.resultS_v (g : Group) (d : BitVec 8) (v : W64) : (g.resultS d v).v = g.v :=
  (congrArg Group.v (g.resultS_frame d v) :)
@[simp] theorem Group.resultS_o (g : Group) (d : BitVec 8) (v : W64) : (g.resultS d v).o = g.o :=
  (congrArg Group.o (g.resultS_frame d v) :)
@[simp] theorem Group.resultS_t (g : Group) (d : BitVec 8) (v : W64) : (g.resultS d v).t = g.t :=
  (congrArg Group.t (g.resultS_frame d v) :)
@[simp] theorem Group.resultS_exited (g : Group) (d : BitVec 8) (v : W64) : (g.resultS d v).exited = g.exited :=
  (congrArg Group.exited (g.resultS_frame d v) :)
@[simp] theorem Group.resultS_dsp (g : Group) (d : BitVec 8) (v : W64) : (g.resultS d v).dsp = g.dsp :=
  (congrArg Group.dsp (g.resultS_frame d v) :)
@[simp] theorem Group.resultS_gmode (g : Group) (d : BitVec 8) (v : W64) : (g.resultS d v).gmode = g.gmode :=
  (congrArg Group.gmode (g.resultS_frame d v) :)

/-- Of the body of a group a scalar result changes the scalar registers and their poison at most. -/
theorem Group.resultS_body (g : Group) (d : BitVec 8) (v : W64) :
    { (g.resultS d v).body with s := g.s, sbad := g.sbad } = g.body := by
  show { g.resultS d v with s := g.s, sbad := g.sbad }.body = g.body
  rw [Group.resultS_frame]

/-- A change of a group leaves every byte of memory and of a stash as it was. -/
theorem State.sameBytes_modGroup (s : State) (r : GRef) (f : Group → Group) : s.SameBytes (s.modGroup r f) := by
  refine ⟨fun _ => rfl, fun sid a => ?_⟩
  unfold State.modGroup
  by_cases h : sid = r.team
  · subst h
    rw [State.team?_modTeam_same s _ _ (by simp)]
    simp [Option.map_map, Function.comp_def]
  · rw [State.team?_modTeam_other s _ _ _ (by simp) h]

/-- An effect on the issuing group and the passing of the instruction are one change of that group. -/
theorem Ctx.past_mod (c : Ctx) (s : State) (f : Group → Group) : c.past (c.mod s f) = s.modGroup c.g fun g => (f g).advance :=
  s.modGroup_modGroup c.g f Group.advance

variable {i : Instr} {s t : State} {c : Ctx} {d : BitVec 8}

/-- `sread` of a register that leader and shadow read alike, or outside SHADOW, writes one scalar (R121, R122). -/
theorem execSread_ok {n : BitVec 8} (h : Issuing (.sread d n) c s)
    (hs : c.shadowed = true ∨ c.g.sh = true → n ≠ 0 ∧ n ≠ 1 ∧ n ≠ 3) : ∃ v, exec (.sread d n) s = .next (c.scal s d v) := by
  by_cases hp : passedReg n.toNat = true
  · have hn : ¬ (c.shadowed = true ∨ c.g.sh = true) := by
      intro hc
      obtain ⟨h0, h1, h3⟩ := hs hc
      simp only [passedReg, Bool.or_eq_true, decide_eq_true_eq] at hp
      bv_omega
    simp only [not_or, Bool.not_eq_true] at hn
    refine ⟨sysReg c n.toNat, issue_ok h ?_⟩
    simp [hp, readPassed, passSide, hn, bind, Except.bind]
  · exact ⟨sysReg c n.toNat, issue_ok h (if_neg hp)⟩

/-- `slit` writes one scalar, or traps where the clause has no such pair of literals (R129). -/
theorem execSlit_cases {n : BitVec 8} (h : Issuing (.slit d n) c s) :
    (∃ v, exec (.slit d n) s = .next (c.scal s d v)) ∨ exec (.slit d n) s = .next (c.traps s ILLOPERAND 0) := by
  by_cases hn : c.cl.lits.length ≤ n.toNat + 1
  · exact .inr (issue_trap h (if_pos hn))
  · exact .inl ⟨_, issue_ok h (if_neg hn)⟩

/-- An instruction that writes one scalar writes some value to it, or traps. -/
theorem exec_of_scalarDst (hd : scalarDst i = some d) (h : Issuing i c s)
    (hs : c.shadowed = true ∨ c.g.sh = true → ∀ d n, i = .sread d n → n ≠ 0 ∧ n ≠ 1 ∧ n ≠ 3) :
    (∃ v, exec i s = .next (c.scal s d v)) ∨ ∃ code, exec i s = .next (c.traps s code 0) := by
  cases i
  all_goals cases hd
  case sread n => exact .inl (execSread_ok h fun hc => hs hc _ _ rfl)
  case slit n => exact (execSlit_cases h).imp_right fun h => ⟨_, h⟩
  case cmpeq => exact .inl ⟨_, by rw [exec_cmpeq]; exact vecCmp_ok h _⟩
  case cmpne => exact .inl ⟨_, by rw [exec_cmpne]; exact vecCmp_ok h _⟩
  case cmplt => exact .inl ⟨_, by rw [exec_cmplt]; exact vecCmp_ok h _⟩
  case cmple => exact .inl ⟨_, by rw [exec_cmple]; exact vecCmp_ok h _⟩
  case cmpun => exact .inl ⟨_, by rw [exec_cmpun]; exact vecCmp_ok h _⟩
  all_goals exact .inl ⟨_, scalarOp_ok h _⟩

/-! ### Branches, `yield`, `mode` and `nop` (R102, R107) -/

/-- The branches, `yield`, `mode` and `nop`. -/
def MovesOnly (i : Instr) : Prop :=
  ∃ (d a n : BitVec 8) (k : BitVec 16) (o : BitVec 24), i = .bra o ∨ i = .brz d k ∨ i = .brnz d k ∨ i = .call d k ∨ i = .ret a ∨
    i = .brx d a n ∨ i = .yield ∨ i = .mode k ∨ i = .nop

/-- What such an instruction leaves of a group `g` in `g'`: every register but the scalar of a `call`, and every control register but
the GMODE of a `mode`. -/
structure MovesOnlyFrame (i : Instr) (g g' : Group) : Prop where
  v : g'.v = g.v
  o : g'.o = g.o
  t : g'.t = g.t
  exited : g'.exited = g.exited
  dsp : g'.dsp = g.dsp
  gmode : (∀ k, i ≠ .mode k) → g'.gmode = g.gmode
  mode : ∀ k, i = .mode k → g'.gmode = k
  sreg : ∀ n < 32, (∀ d k, i = .call d k → d.toNat ≠ 0xD0 + n) → g'.sreg n = g.sreg n

/-- Passing the instruction keeps the frame. -/
theorem MovesOnlyFrame.advance {g g' : Group} (h : MovesOnlyFrame i g g') : MovesOnlyFrame i g g'.advance := by
  obtain ⟨hv, ho, ht, he, hd, hg, hm, hs⟩ := h
  constructor <;> simpa

/-- A branch to a target changes the clause alone. -/
theorem MovesOnlyFrame.modClause {g : Group} (f : Clause → Clause) (hi : ∀ k, i ≠ .mode k) : MovesOnlyFrame i g (g.modClause f) := by
  constructor <;> simp [hi]

theorem MovesOnlyFrame.refl {g : Group} (hi : ∀ k, i ≠ .mode k) : MovesOnlyFrame i g g := by
  constructor <;> simp [hi]

/-- The issuing group traps, or keeps the frame of such an instruction and moves past it. -/
def MovesOnlyNext (i : Instr) (c : Ctx) (s : State) (x : Host.Outcome State Fault Refusal) : Prop :=
  (∃ code addr, x = .next (c.traps s code addr)) ∨
    ∃ f : Group → Group, x = .next (s.modGroup c.g fun g => (f g).advance) ∧ ∀ g, MovesOnlyFrame i g (f g)

/-- An effect that leaves the state alone. -/
theorem issue_stays {f : Ctx → State → Res} (h : Issuing i c s) (hi : ∀ k, i ≠ .mode k) (hf : f c s = .ok s) :
    MovesOnlyNext i c s (issue i s f) :=
  .inr ⟨id, issue_ok h hf, fun _ => .refl hi⟩

/-- An effect that changes the issuing group alone. -/
theorem issue_changes {f : Ctx → State → Res} {u : Group → Group} (h : Issuing i c s) (hf : f c s = .ok (c.mod s u))
    (hu : ∀ g, MovesOnlyFrame i g (u g)) : MovesOnlyNext i c s (issue i s f) :=
  .inr ⟨u, by rw [issue_ok h hf, c.past_mod], hu⟩

/-- A branch to an address in a register traps on a misaligned target (R56). -/
theorem issue_goReg {f : Ctx → State → Res} {target : VA} (h : Issuing i c s) (hi : ∀ k, i ≠ .mode k)
    (hf : f c s = goReg c s target) : MovesOnlyNext i c s (issue i s f) := by
  by_cases ht : target.toNat % 4 ≠ 0
  · exact .inl ⟨ALIGN, _, issue_trap h (hf.trans (if_pos ht))⟩
  · exact issue_changes h (hf.trans (if_neg ht)) fun _ => .modClause _ hi

/-- A conditional branch goes to its target or on (R102). -/
theorem issue_branchIf {f : Ctx → State → Res} {p : Prop} [Decidable p] {target : VA} (h : Issuing i c s) (hi : ∀ k, i ≠ .mode k)
    (hf : f c s = .ok (if p then goTo c s target else s)) : MovesOnlyNext i c s (issue i s f) := by
  by_cases hp : p
  · exact issue_changes h (hf.trans (by rw [if_pos hp]; rfl)) fun _ => .modClause _ hi
  · exact issue_stays h hi (hf.trans (by rw [if_neg hp]))

/-- What `call` leaves: the other registers. -/
theorem MovesOnlyFrame.call {g : Group} {k : BitVec 16} (v : W64) (f : Clause → Clause) :
    MovesOnlyFrame (.call d k) g ((g.resultS d v).modClause f) := by
  constructor
  case sreg =>
    intro n _ hd
    simp [Group.resultS_sreg, hd d k rfl]
  all_goals simp

/-- What the branches, `yield`, `mode` and `nop` do. -/
theorem exec_of_movesOnly (hi : MovesOnly i) (h : Issuing i c s) : MovesOnlyNext i c s (exec i s) := by
  obtain ⟨d, a, n, k, o, rfl | rfl | rfl | rfl | rfl | rfl | rfl | rfl | rfl⟩ := hi
  · exact issue_changes h rfl fun _ => .modClause _ (by simp)
  · exact issue_branchIf h (by simp) rfl
  · exact issue_branchIf h (by simp) rfl
  · exact issue_changes h (congrArg _ (s.modGroup_modGroup c.g _ _)) fun _ => .call _ _
  · exact issue_goReg h (by simp) rfl
  · exact issue_goReg h (by simp) rfl
  · exact issue_changes h rfl fun _ => .modClause _ (by simp)
  · refine issue_changes h rfl fun g => ?_
    constructor <;> simp [Group.sreg]
  · exact issue_stays h (by simp) rfl

/-- Settles O13: each instruction traps or is one change of its own group, whose frame is that of its effect (`Group.resultS`, or
`MovesOnlyFrame`) and of the passing of the instruction (`Group.advance`). -/
theorem scalarFrame : Obligations.ScalarFrame := by
  refine ⟨fun s t c i d hd hs h ht => ?_, fun s t c i hi h ht => ?_⟩
  · obtain ⟨v, hv⟩ | ⟨code, hcode⟩ := exec_of_scalarDst hd h hs
    · obtain rfl := Host.Outcome.next.inj (hv.symm.trans ht)
      rw [Ctx.scal, c.past_mod]
      refine .inr ⟨_, rfl, s.sameBytes_modGroup _ _, fun g => ⟨fun n _ hn => ?_, ?_⟩⟩
      · simp [Group.resultS_sreg, hn]
      · rw [Group.advance_body, Group.resultS_body]
    · exact .inl ⟨code, Host.Outcome.next.inj (ht.symm.trans hcode)⟩
  · obtain ⟨code, addr, hcode⟩ | ⟨f, hf, hframe⟩ := exec_of_movesOnly hi h
    · exact .inl ⟨code, addr, Host.Outcome.next.inj (ht.symm.trans hcode)⟩
    · obtain rfl := Host.Outcome.next.inj (hf.symm.trans ht)
      refine .inr ⟨_, rfl, s.sameBytes_modGroup _ _, fun g => ?_⟩
      obtain ⟨hv, ho, htile, he, hd, hg, hm, hsreg⟩ := (hframe g).advance
      exact ⟨hv, ho, htile, he, hd, hg, hm, hsreg⟩

end Sys2Proof.Machine
end

section
/-! SUPPORT. The checks of R60 and the pavé words: the statement of failed checks is refuted by a state in which a `pv.vec` fails
the check of recompute code. -/

namespace Sys2Proof.Machine

open Sys2Proof

/-! ### A pavé word in a group that runs recompute code (R60, R290, R345) -/

/-- A clause whose first instruction is at issue. -/
def startedClause : Clause := { hdr := 0, head := 0, words := [], lits := [], slot := .a, started := true }

/-- The issuing group: it runs recompute code. -/
def recomputing : Ctx :=
  let grp : Group := { mode := .recompute, clause := some startedClause }
  let kern : Kernel := { slot := 0, seq := 1, st := .running, record := [], recAddr := 0 }
  { g := { team := 1, grp := 0 }, grp := grp, kern := kern, cl := startedClause, bez := { num := 0, st := .active, kernels := [kern] },
    team := { sid := 1, bezel := 0, kslot := 0, kseq := 1, tid := 0, core := 0, groups := [grp] } }

/-- The module with that group at issue, and no pavé engine at a word. -/
def recomputingState : State := { cur := some recomputing.g, bezels := [recomputing.bez], teams := [recomputing.team] }

theorem recomputingState_ctx : recomputingState.ctx = some recomputing := rfl

/-- A `pv.vec` whose word has the leading byte 0x18 fails the check of recompute code as a `wrlane` would. -/
theorem precheck_recomputing_pvVec : precheck recomputing (.pvVec 0x2000 0) = some ILLOP := rfl

/-- Refutes O15: its first clause is about every instruction that has a word, and so about the pavé words too, which a group never
issues (R345): `exec` runs them at a pavé engine and makes no check of R60. In `recomputingState` the check of recompute code (R290)
fails for a `pv.vec`, whose leading byte 0x18 is the opcode of `wrlane`, and `exec` refuses the word since no engine is at one. -/
theorem not_failedChecksTrap : ¬ Obligations.FailedChecksTrap := by
  intro h
  obtain ⟨htrap, -, -⟩ := h.1 recomputingState recomputing (.pvVec 0x2000 0) 0x18000000 ILLOP
  have hnext := htrap rfl recomputingState_ctx precheck_recomputing_pvVec
  have hrefused : exec (.pvVec 0x2000 0) recomputingState = .refused .noIssuer := rfl
  rw [hrefused] at hnext
  cases hnext

end Sys2Proof.Machine
end

section
/-! SUPPORT. How a clause is fetched and how it starts (R46, R49, R50, R102, R107, R283). -/

namespace Sys2Proof.Machine

open Sys2Proof

/-! ### Starting a clause (R50, R102, R107) -/

section Start

variable {s : State} {r : GRef} {t : Team} {g : Group} {c : Clause}

/-- A group on a core in which an event at a clause can take place: it is free, its shadow is not parked, and its team runs. -/
structure AtClause (s : State) (r : GRef) (t : Team) (g : Group) : Prop where
  team : s.team? r.team = some t
  group : s.group? r = some g
  free : g.free = true
  unparked : s.shadowParked r = false
  running : s.goesOn t g false = true

/-- A team that runs goes on. -/
theorem State.goesOn_of_running (s : State) (g : Group) (he : t.ended = false) (hc : t.ctx = .running) : s.goesOn t g false = true := by
  simp [State.goesOn, he, hc]

theorem AtClause.clauseStart_none (h : AtClause s r t g) (hc : g.clause = some c)
    (hw : g.waitMet c.head = false ∨ g.yielded = true ∧ s.othersReady r = true) : s.clauseStart r = none := by
  obtain hw | ⟨hy, ho⟩ := hw
  · simp [State.clauseStart, h.group, hc, hw]
  · simp [State.clauseStart, h.group, hc, hy, ho]

theorem AtClause.clauseStart_some (h : AtClause s r t g) (hc : g.clause = some c) (hn : c.started = false) (hw : g.waitMet c.head = true)
    (hy : g.yielded = true → s.othersReady r = false) : s.clauseStart r =
      if g.em c.slot = 0 then
        some (s.modGroup r fun g => { (g.setPc (if g.mode = .recompute then .h else c.slot) { hdr := c.next }) with
          clause := none, lastSlot := c.slot, yielded := headYield c.head })
      else some (s.modGroup r fun g => { g with clause := some { c with started := true }, yielded := false }) := by
  have hyo : (g.yielded && s.othersReady r) = false := by
    cases hg : g.yielded with
    | false => rfl
    | true => simp [hy hg]
  simp [State.clauseStart, h.team, h.group, h.free, h.unparked, h.running, hc, hn, hw, hyo]

end Start

/-! ### Fetching a clause (R46, R49, R283) -/

section Fetch

variable {s u : State} {r : GRef} {t : Team} {g g1 : Group} {b : Bezel} {k : Kernel} {sl : Slot} {pc : Pc} {h : W32}

/-- A group without a clause fetches: once its ended slots have been settled, in `u`, slot `sl` is picked, and `h` is the header at
its PC (R92, R93). -/
structure Fetches (s u : State) (r : GRef) (t : Team) (g g1 : Group) (b : Bezel) (k : Kernel) (sl : Slot) (h : W32) : Prop extends
    AtClause s r t g where
  bezel : s.bezel? t.bezel = some b
  kernel : s.kernel? t.bezel t.kslot = some k
  noClause : g.clause = none
  live : g.alive = true
  settled : s.settleSlots r t k b = u
  settledGroup : u.group? r = some g1
  settledLive : g1.alive = true
  slot : u.pickSlot g1 t k b = some sl
  header : u.fetchWord t k b (g1.pcOf sl).hdr = .ok h

/-- The clause of a header at an address and the words that follow it. -/
def fetchedClause (hdr : VA) (h : W32) (sl : Slot) (ws : List W32) : Clause :=
  { hdr := hdr, head := h, words := ws.take (headCount h), lits := ws.drop (headCount h), slot := sl }

/-- A header that breaks R49 traps. -/
theorem Fetches.clauseFetch_badHeader (hf : Fetches s u r t g g1 b k sl h) (hb : 4 < headLits h ∨ h.toNat % 16 ≠ 0) :
    s.clauseFetch r = some (u.clauseTrap r g1 sl (g1.pcOf sl).hdr ILLCLAUSE 0) := by
  have hbad : badHeader h = true := by simpa [badHeader] using hb
  simp [State.clauseFetch, hf.team, hf.group, hf.bezel, hf.kernel, hf.free, hf.noClause, hf.unparked, hf.running, hf.live, hf.settled,
    hf.settledGroup, hf.settledLive, hf.slot, hf.header, hbad]

/-- With a good header and all its words there, a broken clause traps, and another is placed in the group. -/
theorem Fetches.clauseFetch_words (hf : Fetches s u r t g g1 b k sl h) (hl : headLits h ≤ 4) (h0 : h.toNat % 16 = 0) {ws : List W32}
    (hw : u.fetchMany t k b ((g1.pcOf sl).hdr + 4) (headCount h + headLits h) = .ok ws) :
    s.clauseFetch r = some (if badClause h (ws.take (headCount h)) = true then u.clauseTrap r g1 sl (g1.pcOf sl).hdr ILLCLAUSE 0 else
      ((u.touch b t.core [(g1.pcOf sl).hdr.setWidth 64]).fillCode t k b (g1.pcOf sl).hdr (1 + ws.length)).modGroup r fun g =>
        g.setClause (fetchedClause (g1.pcOf sl).hdr h sl ws) (g1.pcOf sl)) := by
  have hgood : badHeader h = false := by simpa [badHeader] using ⟨hl, h0⟩
  rw [BitVec.ofNat_eq_ofNat] at hw
  cases hbad : badClause h (ws.take (headCount h)) <;>
    simp [State.clauseFetch, hf.team, hf.group, hf.bezel, hf.kernel, hf.free, hf.noClause, hf.unparked, hf.running, hf.live, hf.settled,
      hf.settledGroup, hf.settledLive, hf.slot, hf.header, hgood, hw, hbad, fetchedClause]

/-- A slot that does not go back to a resume point receives the clause as fetched. -/
theorem Group.setClause_fresh (g : Group) (c : Clause) (hp : pc.resume = false) : g.setClause c pc = { g with clause := some c } := by
  simp [Group.setClause, hp]

/-- A slot that goes back to a resume point in the clause starts it there (R283). -/
theorem Group.setClause_resume (g : Group) (c : Clause) (hp : pc.resume = true) (hi : pc.idx < c.words.length)
    (he : pc.idx = 0 → g.em c.slot ≠ 0) :
    (g.setClause c pc).clause = some { c with idx := pc.idx, started := true, issuedM := g.cutM, issuedC := g.cutC } := by
  have hem : ¬ (decide (pc.idx = 0) && decide (g.em c.slot = 0)) = true := by simpa using he
  rw [Group.setClause, if_pos hp, if_neg hem, if_neg (by omega)]

end Fetch

/-- CLAUSE_START of a group. -/
theorem exec_clauseStart_of {s t : State} {r : GRef} (hin : s.input = some (.clauseStart r)) (h : s.clauseStart r = some t) :
    exec .clauseStart s = .next t := eventStep_ok hin h

/-- CLAUSE_FETCH of a group. -/
theorem exec_clauseFetch_of {s t : State} {r : GRef} (hin : s.input = some (.clauseFetch r)) (h : s.clauseFetch r = some t) :
    exec .clauseFetch s = .next t := eventStep_ok hin h

/-- Settles O16: CLAUSE_START through what `State.clauseStart` answers, CLAUSE_FETCH through what `State.clauseFetch` and
`Group.setClause` answer. -/
theorem clauseStarts : Obligations.ClauseStarts := by
  refine ⟨fun s r t g c hin ht hg hc hn hfree hpark hend hctx => ?_,
    fun s u r t g g1 b k sl pc h hin ht hg hb hk hfree hc halive hpark hend hctx hu hg1 halive1 hsl hpc hh => ?_⟩
  · have hat : AtClause s r t g := ⟨ht, hg, hfree, hpark, s.goesOn_of_running g hend hctx⟩
    refine ⟨fun hw => eventStep_refused ?_, fun hw hy =>
      ⟨fun he => exec_clauseStart_of hin ?_, fun he => exec_clauseStart_of hin ?_⟩⟩
    · rw [hin]
      exact hat.clauseStart_none hc hw
    · rw [hat.clauseStart_some hc hn hw hy, if_neg he]
    · rw [hat.clauseStart_some hc hn hw hy, if_pos he]
  · subst hpc
    have hf : Fetches s u r t g g1 b k sl h :=
      ⟨⟨ht, hg, hfree, hpark, s.goesOn_of_running g hend hctx⟩, hb, hk, hc, halive, hu.symm, hg1, halive1, hsl, hh⟩
    refine ⟨fun hbad => exec_clauseFetch_of hin (hf.clauseFetch_badHeader hbad),
      fun ws hl h0 hw => ⟨fun hbad => ?_, fun hgood => ?_⟩⟩
    · refine exec_clauseFetch_of hin ?_
      rw [hf.clauseFetch_words hl h0 hw, if_pos hbad]
    · have hplaced := exec_clauseFetch_of hin (hf.clauseFetch_words hl h0 hw)
      rw [if_neg (by simp [hgood])] at hplaced
      refine ⟨fetchedClause (g1.pcOf sl).hdr h sl ws, rfl, rfl, rfl, rfl, rfl, rfl, rfl, rfl, fun hp => ?_,
        fun hp hi he => ⟨hplaced, ?_⟩⟩
      · simpa only [Group.setClause_fresh _ _ hp] using hplaced
      · exact g1.setClause_resume _ hp hi he

end Sys2Proof.Machine
end

section
/-! SUPPORT. Instructions that find the effective mask empty, and a shadow at its leader's load-value queue (R51, R97, R98). -/

namespace Sys2Proof.Machine

open Sys2Proof

section EmptyMasks

variable {i : Instr} {s : State} {c : Ctx} {d a b : BitVec 8}

/-! ### An empty effective mask (R51, R98) -/

/-- A leader's load that finds the effective mask empty completes at its issue. -/
theorem loadOp_empty {n : Nat} (h : Issuing i c s) (hl : c.g.sh = false) (he : c.em = 0) (hr : c.RoomA s) :
    loadOp i d a b n s = .next (c.past (c.noneA s)) :=
  issue_ok h (by simp only [classA, hl, Bool.false_eq_true, if_false, he, if_true, instantA_room hr])

/-- `ldb` is such a load too. -/
theorem execLdb_empty (h : Issuing (.ldb d a b) c s) (hl : c.g.sh = false) (he : c.em = 0) (hr : c.RoomA s) :
    execLdb d a b s = .next (c.past (c.noneA s)) :=
  issue_ok h (by simp only [classA, hl, Bool.false_eq_true, if_false, he, if_true, instantA_room hr])

/-- An instruction of class b with nothing to do signs its scalar operands, by a shadow or where there is room. -/
theorem classB_nothing {l : List W64} (hr : c.g.sh = true ∨ c.RoomB s) :
    classB c s l (fun s => instantB c s .ok) = .ok (sign c s l) := by
  cases hs : c.g.sh with
  | true => simp only [classB, hs, if_true]; rfl
  | false => simp only [classB, hs, Bool.false_eq_true, if_false, instantB_room (hr.resolve_left (by simp [hs]))]; rfl

/-- A lane store that finds the effective mask empty does nothing where no shadow must agree. -/
theorem laneStore_empty {ad : Nat → W64} {al n : Nat} {data : Nat → W32} (he : c.em = 0) (hr : c.RoomB s) (hs : c.shadowed = false) :
    laneStore c s ad al n data = .ok s := by
  have hlanes : (lanesOf c.em).isEmpty = true := by rw [he]; decide
  simp [laneStore, hlanes, instantB_room hr, hs, Except.map]

/-! ### A shadow at its leader's load-value queue (R97) -/

/-- A shadow takes the oldest entry, once it is filled and when it was made at the same PC. -/
theorem takeLvq_same {ld : Group} {e : LvqEntry} {rest : List LvqEntry} (hg : s.group? c.g.leader = some ld) (hq : ld.lvq = e :: rest)
    (hf : e.filled = true) (hp : e.pc = c.pc.setWidth 64) :
    takeLvq c s = .ok (c.mod (s.modGroup c.g.leader fun g => { g with lvq := rest }) fun g =>
      e.dest.foldl (fun g x => g.receive 0xFFFFFFFF x) g) := by
  simp only [takeLvq, hg, hq, hf, hp, Bool.not_true, Bool.false_eq_true, if_false, bne_self_eq_false]
  rfl

/-- An entry of another PC is a mismatch. -/
theorem takeLvq_other {ld : Group} {e : LvqEntry} {rest : List LvqEntry} (hg : s.group? c.g.leader = some ld) (hq : ld.lvq = e :: rest)
    (hf : e.filled = true) (hp : e.pc ≠ c.pc.setWidth 64) : takeLvq c s = .error (.done (s.mismatch c.g)) := by
  simp [takeLvq, hg, hq, hf, hp]

/-- The instructions of class a whose result a shadow takes from that queue as soon as it issues them. -/
def TakesLvq (i : Instr) : Prop :=
  ∃ d a b f, i = .ld d a b ∨ i = .ld16 d a b ∨ i = .ld8 d a b ∨ i = .lds d a b ∨ i = .ldb d a b ∨
    i = .tlincReserve d a ∨ i = .tlrd d a f

/-- Each of them is an issue whose effect is of class a. -/
theorem TakesLvq.exec_eq (h : TakesLvq i) (s : State) :
    ∃ k : Ctx → State → Res, exec i s = issue i s fun c s => classA c s (k c) := by
  obtain ⟨d, a, b, f, rfl | rfl | rfl | rfl | rfl | rfl | rfl⟩ := h
  all_goals exact ⟨_, rfl⟩

end EmptyMasks

/-- Settles O20: each clause is the issue of an instruction whose effect is one of the lemmas above, for loads, for class b, for
stores, and for a shadow (`TakesLvq`). -/
theorem emptyMasksAndShadows : Obligations.EmptyMasksAndShadows := by
  intro s c d a b f i
  refine ⟨fun hl he hr h hi => ?_, fun he hr h => ⟨fun hi => ?_, fun hi => ?_⟩, fun he hr h hs hi => ?_,
    fun ld e rest hsh hg hq hf h hi => ?_⟩
  · obtain rfl | rfl | rfl | rfl := hi
    · exact loadOp_empty h hl he hr
    · exact loadOp_empty h hl he hr
    · exact loadOp_empty h hl he hr
    · exact execLdb_empty h hl he hr
  · obtain rfl | rfl := hi <;> exact issue_ok h ((if_pos he).trans (classB_nothing hr))
  · obtain rfl | rfl := hi <;> exact issue_ok h ((if_pos he).trans (classB_nothing hr))
  · obtain rfl | rfl | rfl | rfl := hi
    · exact issue_ok h (laneStore_empty he hr hs)
    · exact issue_ok h (laneStore_empty he hr hs)
    · exact issue_ok h (laneStore_empty he hr hs)
    · refine issue_ok h ?_
      simp only [he, ne_eq, not_true_eq_false, if_false]
      exact laneStore_empty he hr hs
  · obtain ⟨k, hk⟩ := TakesLvq.exec_eq ⟨d, a, b, f, hi⟩ s
    have hcls : classA c s (k c) = takeLvq c s := if_pos hsh
    rw [hk]
    exact ⟨fun hp => issue_ok h (hcls.trans (takeLvq_same hg hq hf hp)),
      fun hp => issue_done h (hcls.trans (takeLvq_other hg hq hf hp))⟩

end Sys2Proof.Machine
end

section
/-! SUPPORT. Mailboxes: what a write at its home leaves alone, the instructions (R70 to R73), and the events (R65, R67, R72). -/

namespace Sys2Proof.Machine

open Sys2Proof

/-! ### What a write at its home leaves alone (R217) -/

/-- A fold of steps that each leave a field alone leaves it alone. -/
theorem State.foldl_keeps {α β : Type} (field : State → β) {f : State → α → State} (hf : ∀ s x, field (f s x) = field s) :
    ∀ (l : List α) (s : State), field (l.foldl f s) = field s
  | [], _ => rfl
  | x :: l, s => (State.foldl_keeps field hf l (f s x)).trans (hf s x)

@[simp] theorem State.freeSector_teams (s : State) (n : Nat) : (s.freeSector n).teams = s.teams := by
  unfold State.freeSector State.checkSector
  repeat' split
  all_goals rfl

@[simp] theorem State.freeSector_host (s : State) (n : Nat) : (s.freeSector n).host = s.host := by
  unfold State.freeSector State.checkSector
  repeat' split
  all_goals rfl

@[simp] theorem State.homeCells_teams (s : State) (cells : List (Nat × Byte)) (owner : Nat) (page : Option Bool) :
    (s.homeCells cells owner page).teams = s.teams :=
  (State.foldl_keeps State.teams (f := fun t x => t.setSidecar x (s.sidecarAfter cells owner page x)) (fun _ _ => rfl) _ _).trans
    (State.foldl_keeps State.teams State.freeSector_teams _ s)

@[simp] theorem State.homeCells_host (s : State) (cells : List (Nat × Byte)) (owner : Nat) (page : Option Bool) :
    (s.homeCells cells owner page).host = s.host :=
  (State.foldl_keeps State.host (f := fun t x => t.setSidecar x (s.sidecarAfter cells owner page x)) (fun _ _ => rfl) _ _).trans
    (State.foldl_keeps State.host State.freeSector_host _ s)

@[simp] theorem State.noteLate_teams (s : State) (space a n : Nat) : (s.noteLate space a n).teams = s.teams := by
  unfold State.noteLate; split <;> rfl

/-- A store that reaches its home changes no team. -/
@[simp] theorem State.takeEffect_teams (s : State) (p : Posted) : (s.takeEffect p).teams = s.teams :=
  (State.foldl_keeps State.teams (f := fun s (x : Nat × Byte) => s.noteLate 0 x.1 1) (fun s x => s.noteLate_teams 0 x.1 1) _ _).trans
    (s.homeCells_teams _ _ _)

@[simp] theorem State.drain_teams (s : State) (f : Posted → Bool) : (s.drain f).teams = s.teams :=
  State.foldl_keeps State.teams State.takeEffect_teams _ _

@[simp] theorem State.atHome_teams (s : State) (o : Obj) : (s.atHome o).teams = s.teams := by
  cases o with
  | stash => rfl
  | glob pa va ow => exact s.drain_teams _

/-- A write to an object changes nothing that the host holds. -/
@[simp] theorem State.objWrite_host (s : State) (o : Obj) (n : Nat) (l : List Byte) : (s.objWrite o n l).host = s.host := by
  cases o with
  | stash => rfl
  | glob pa va ow => exact s.homeCells_host _ _ _

/-! ### Finding the issuing group when its mailbox has been found -/

section Argument

variable {c : Ctx} {s s1 : State} {k : Acc} {ad : W64} {o : Obj}

/-- Finding a counter changes no team. -/
theorem Ctx.Counter.teams (h : c.Counter s k ad o s1) : s1.teams = s.teams := by
  obtain ⟨pa, ow, -, -, rfl, rfl⟩ := h
  simp

theorem Ctx.Counter.group? (h : c.Counter s k ad o s1) (r : GRef) : s1.group? r = s.group? r := by
  simp [State.group?, State.team?, h.teams]

theorem Ctx.Counter.roomA (h : c.Counter s k ad o s1) (hr : c.RoomA s) : c.RoomA s1 := by
  simpa only [Ctx.RoomA, h.group?] using hr

theorem Ctx.Counter.roomB (h : c.Counter s k ad o s1) (hr : c.RoomB s) : c.RoomB s1 := by
  simpa only [Ctx.RoomB, h.group?] using hr

/-! ### The object that a mailbox instruction names (R70) -/

theorem mailboxArg_misaligned (ha : ad.toNat % 32 ≠ 0) : mailboxArg c s k ad = .error (.trap ALIGN ad) := if_pos ha

theorem mailboxArg_outside (ha : ad.toNat % 32 = 0) (hb : ad.toNat < c.bez.mbox.toNat ∨ c.bez.mbox.toNat + 2048 ≤ ad.toNat) :
    mailboxArg c s k ad = .error (.trap PROT ad) := by
  rw [mailboxArg, if_neg (by simpa using ha), if_pos (by simpa using hb)]

theorem mailboxArg_inside (ha : ad.toNat % 32 = 0) (hlo : c.bez.mbox.toNat ≤ ad.toNat) (hhi : ad.toNat < c.bez.mbox.toNat + 2048)
    (h : c.Counter s k ad o s1) : mailboxArg c s k ad = .ok (s1, o) := by
  rw [mailboxArg, if_neg (by simpa using ha), if_neg (by simp; omega), counterAt_counter h]

end Argument

/-! ### A message taken from an inbound mailbox (R71) -/

section Take

variable {s : State} {bz : Bezel} {o : Obj}

theorem State.mbTake_closed (h : s.mbDir o = true ∨ s.mbEnable o = false) : s.mbTake bz o = (s, 2, 0, [], false) := by
  simp only [State.mbTake]
  rw [if_pos (by simpa using h)]

theorem State.mbTake_empty (hd : s.mbDir o = false) (he : s.mbEnable o = true) (hp : s.objPhase o = s.mbHead o) :
    s.mbTake bz o = (s, 1, 0, [], false) := by
  simp [State.mbTake, hd, he, hp]

theorem State.mbTake_message {pa : Nat} (hd : s.mbDir o = false) (he : s.mbEnable o = true) (hp : s.objPhase o ≠ s.mbHead o)
    (hs : s.mbSlot bz o ((s.mbHead o).toNat % 256) = some pa) : s.mbTake bz o =
      (s.objWrite o 4 (leBytes (s.mbHead o + 1).toNat 4), 0, (s.mbHead o).toNat % 256, s.homeBytes pa 64, s.poisoned (pa / 256)) := by
  simp [State.mbTake, hd, he, hp, hs]

end Take

/-! ### The mailbox instructions (R70 to R73) -/

section Instructions

variable {i : Instr} {c : Ctx} {s s1 s2 s3 : State} {d a b f : BitVec 8} {o : Obj} {k : Acc}

/-- The mailbox instructions that come as far as the object they name, each with the kind of its access; an `mbsend` checks its
flag word first (R72). -/
def NamesMailbox (i : Instr) (c : Ctx) (s : State) (d a b f : BitVec 8) (k : Acc) : Prop :=
  i = .mbrecv d a ∧ k = Acc.sync ∨ i = .mbsend d a b ∧ k = Acc.sync ∧ bits (c.s b).toNat 63 33 = 0 ∧ c.RoomB s ∨
    i = .mbpeek d a f ∧ k = Acc.syncRead

/-! `hem` below is that EM is not zero, in the spelling of the literal that `simp` reduces the model's tests to. -/

/-- The trap of the object that a mailbox instruction names is the trap of the instruction. -/
theorem NamesMailbox.exec_trap {code : Nat} {addr : W64} (hi : NamesMailbox i c s d a b f k) (h : Issuing i c s) (he : c.em ≠ 0)
    (hl : c.g.sh = false) (hr : c.RoomA s) (ht : mailboxArg c s k (c.s a) = .error (.trap code addr)) :
    exec i s = .next (c.traps s code addr) := by
  have hem : ¬ c.em = 0#32 := he
  have hg := State.ctx_group h.ctx
  have hgate := gateA_room (t := s) hg hr
  obtain ⟨rfl, rfl⟩ | ⟨rfl, rfl, hb, hrb⟩ | ⟨rfl, rfl⟩ := hi
  · refine issue_trap h ?_
    simp [hem, hl, hgate, ht, bind, Except.bind]
  · refine issue_trap h ?_
    simp [classB, hem, hl, hb, gateB_room (t := s) hg hrb, ht, bind, Except.bind, Functor.map, Except.map]
  · refine issue_trap h ?_
    simp [classA, hem, hl, hgate, ht, bind, Except.bind]

theorem execMbrecv_empty (h : Issuing (.mbrecv d a) c s) (he : c.em = 0) (hl : c.g.sh = false) (hr : c.RoomA s) :
    execMbrecv d a s = .next (c.past (c.noneA s)) :=
  issue_ok h (by simp [he, classA, hl, instantA_room hr])

theorem execMbpeek_empty (h : Issuing (.mbpeek d a f) c s) (he : c.em = 0) (hl : c.g.sh = false) (hr : c.RoomA s) :
    execMbpeek d a f s = .next (c.past (c.noneA s)) :=
  issue_ok h (by simp [he, classA, hl, instantA_room hr])

/-- R71: the task commits, a message is taken as one operation, and the group acquires where it took one. -/
theorem execMbrecv_takes {st slot : Nat} {msg : List Byte} {t : State} (h : Issuing (.mbrecv d a) c s) (he : c.em ≠ 0)
    (hl : c.g.sh = false) (hr : c.RoomA s) (ho : mailboxArg c s .sync (c.s a) = .ok (s1, o)) (hc : c.MayCommit s1)
    (hs2 : s2 = (c.commit s1 false).publish c.g c.core 3) (htake : s2.mbTake c.bez o = (s3, st, slot, msg, false))
    (ht : t = if st = 0 then c.mod s3 fun g => g.acquireAt (s2.releasedAt o c.core fun _ => true) else s3) (hrt : c.RoomA t) :
    execMbrecv d a s = .next (c.past (c.opA t [.vec d c.em (recvLanes msg st slot) .g] .ready true)) := by
  subst hs2 ht
  have hem : ¬ c.em = 0#32 := he
  refine issue_ok h ?_
  simp [hem, hl, gateA_room (t := s) (State.ctx_group h.ctx) hr, ho, boundary_commit false hc, htake, issueA_room hrt, bind, Except.bind]

/-- R73: the field that the instruction selects is read. -/
theorem execMbpeek_reads (h : Issuing (.mbpeek d a f) c s) (he : c.em ≠ 0) (hl : c.g.sh = false) (hr : c.RoomA s)
    (ho : mailboxArg c s .syncRead (c.s a) = .ok (s1, o)) (hr1 : c.RoomA s1) :
    execMbpeek d a f s = .next (c.past (c.opA s1 [.scal (sdstNum d) (s1.mbPeek o f.toNat)] .ready false)) := by
  have hem : ¬ c.em = 0#32 := he
  refine issue_ok h ?_
  simp [classA, hem, hl, gateA_room (t := s) (State.ctx_group h.ctx) hr, ho, issueA_room hr1, bind, Except.bind]

/-- An `mbsend` of a shadow, or with EM zero, only signs (R51, R98, R288). -/
theorem execMbsend_nothing (h : Issuing (.mbsend d a b) c s) (hn : c.em = 0 ∨ c.g.sh = true) (hr : c.g.sh = true ∨ c.RoomB s) :
    execMbsend d a b s =
      .next (c.past (signData c (sign c s [c.s a, c.s b]) (if c.em = 0 then 0 else 0x3FFF) (c.v d))) := by
  refine issue_ok h ?_
  cases hs : c.g.sh with
  | true => simp [classB, hs, bind, Except.bind, Functor.map, Except.map]
  | false =>
    have he : c.em = 0 := hn.resolve_right (by simp [hs])
    have hrb : c.RoomB s := hr.resolve_left (by simp [hs])
    simp [classB, hs, he, instantB_room hrb, bind, Except.bind, Functor.map, Except.map]

theorem execMbsend_badOperand (h : Issuing (.mbsend d a b) c s) (he : c.em ≠ 0) (hl : c.g.sh = false)
    (hb : bits (c.s b).toNat 63 33 ≠ 0) : execMbsend d a b s = .next (c.traps s ILLOPERAND 0) := by
  have hem : ¬ c.em = 0#32 := he
  refine issue_trap h ?_
  simp [classB, hem, hl, hb, bind, Except.bind, Functor.map, Except.map]

/-- R72, R288: the message is held with the version, and its body is signed. -/
theorem execMbsend_held (h : Issuing (.mbsend d a b) c s) (he : c.em ≠ 0) (hl : c.g.sh = false)
    (hb : bits (c.s b).toNat 63 33 = 0) (hr : c.RoomB s) (ho : mailboxArg c s .sync (c.s a) = .ok (s1, o)) (hr1 : c.RoomB s1) :
    execMbsend d a b s = .next (c.past (signData c (sign c (c.held s1 (.mbsend o
      ((List.range 14).flatMap fun i => leBytes ((c.v d).l.lane i).toNat 4) ((c.s b).setWidth 32) ((c.s b).toNat.testBit 32)))
      [c.s a, c.s b]) 0x3FFF (c.v d))) := by
  have hem : ¬ c.em = 0#32 := he
  refine issue_ok h ?_
  simp [classB, hem, hl, hb, gateB_room (t := s) (State.ctx_group h.ctx) hr, ho, defer_room hr1, bind, Except.bind, Functor.map,
    Except.map]

end Instructions

/-! ### The events of a mailbox (R65, R67, R72) -/

section Events

variable {s : State} {bz : Bezel} {o : Obj} {bn m slot off : Nat} {data : List Byte}

/-- An event may reach mailbox `m` of bezel `bn`, which is `o`: its page is mapped and does not migrate (R64, R316). -/
structure MailboxOpen (s : State) (bn m : Nat) (bz : Bezel) (o : Obj) : Prop where
  bezel : s.bezel? bn = some bz
  number : m < 64
  mailbox : s.mailbox bz m = some o
  still : s.objMoving o = false

/-- A host write to an open sector takes effect once there is an open key (R359, R372). -/
theorem State.hostOpen_open {pa : Nat} (f : State → State) (he : s.host.entropy = false) (hp : (s.sidecar (pa / 256)).owner = 0) :
    s.hostOpen pa f = f s := by
  simp [State.hostOpen, he, hp]

/-- A SEAL that touches the seal word of a slot of an enabled inbound mailbox is what `State.sealSlot` makes of it (R67). -/
theorem MailboxOpen.sealArrival {pa : Nat} (h : MailboxOpen s bn m bz o) (hdata : data ≠ []) (hent : s.host.entropy = false)
    (hslot : slot < 256) (hlo : 56 < off + data.length) (hhi : off + data.length ≤ 64) (hd : s.mbDir o = false)
    (he : s.mbEnable o = true) (hpa : s.mbSlot bz o slot = some pa) (how : (s.sidecar (pa / 256)).owner = 0) :
    s.sealArrival bn m slot data off = some (s.sealSlot bz o slot data off) := by
  have hin : ¬ (64 ≤ m ∨ 256 ≤ slot ∨ 64 < off + data.length ∨ off + data.length ≤ 56) := by have := h.number; omega
  simp only [not_or, Nat.not_le, Nat.not_lt] at hin
  simp [State.sealArrival, h.bezel, h.mailbox, h.still, hin, hdata, hd, he, hpa, State.hostOpen_open _ hent how]

/-- A write that misses part of the seal word is recorded (R67). -/
theorem State.sealSlot_misses (h : 56 < off ∨ off + data.length < 64) :
    s.sealSlot bz o slot data off = s.locket o.die 9 0x0502 0 (s.mbRing o + BitVec.ofNat 64 (64 * slot)) := by
  rw [State.sealSlot, if_pos (by simpa using h)]

/-- The sequence number in the seal word of a write (R66). -/
def sealSeq (data : List Byte) (off : Nat) : W32 := BitVec.ofNat 32 (leNat (slice (slice data (56 - off) 8) 4 4))

/-- The sequence number `q` does not belong in slot `slot`, or is not among those that the mailbox may receive (R67). -/
def State.SealRejected (s : State) (o : Obj) (slot : Nat) (q : W32) : Prop :=
  slot ≠ (q - 1).toNat % 256 ∨ q = s.mbHead o ∨ 256 < (q - s.mbHead o).toNat ∨ q = s.objPhase o ∨ 2 ^ 31 < (q - s.objPhase o).toNat

/-- The test that the model makes. -/
theorem State.sealRejected_iff {q : W32} : s.SealRejected o slot q ↔
    (slot ≠ (q - 1).toNat % 256 || (q - s.mbHead o).toNat = 0 || 256 < (q - s.mbHead o).toNat || (q - s.objPhase o).toNat = 0 ||
      2 ^ 31 < (q - s.objPhase o).toNat : Bool) = true := by
  have hzero (x : W32) : (q - x).toNat = 0 ↔ q = x := by
    rw [← sub_eq_zero (a := q), ← BitVec.toNat_inj]
    rfl
  simp only [State.SealRejected, Bool.or_eq_true, decide_eq_true_eq, hzero, or_assoc]

/-- A write that covers the seal word comes to the test of its sequence number (R67). -/
theorem State.sealSlot_covers {pa : Nat} (hlo : off ≤ 56) (hhi : off + data.length = 64) (hpa : s.mbSlot bz o slot = some pa) :
    (s.SealRejected o slot (sealSeq data off) → s.sealSlot bz o slot data off = s.mbReject o) ∧
    (¬ s.SealRejected o slot (sealSeq data off) →
      s.sealSlot bz o slot data off = State.mbAdvance bz o 256 (s.landSector [(pa + off, data)] 0 none 0)) := by
  have hcov : ¬ (decide (56 < off) || decide (off + data.length < 64)) = true := by simp; omega
  rw [State.sealSlot, if_neg hcov, hpa, State.sealRejected_iff]
  exact ⟨fun hr => if_pos hr, fun hr => if_neg hr⟩

/-- A device store to a mailbox object is what `State.mailboxStore` makes of it (R65). -/
theorem MailboxOpen.exec_fieldStore {handle : W64} (h : MailboxOpen s bn m bz o) (hdata : data ≠ []) (hlen : off + data.length ≤ 32)
    (hin : s.input = some (.mailboxFieldStore bn m off data handle)) :
    execMailboxFieldStore s = .next (s.mailboxStore bz o off data handle) := by
  refine eventStep_ok hin ?_
  have hm := h.number
  simp [h.bezel, h.mailbox, h.still, hdata, hm, hlen]

/-- A host write to a mailbox object in an open sector is what `State.hostMailbox` makes of it (R65). -/
theorem MailboxOpen.exec_hostWrite {pa ow : Nat} {va : W64} (h : MailboxOpen s bn m bz (.glob pa va ow)) (hdata : data ≠ [])
    (hent : s.host.entropy = false) (hlen : off + data.length ≤ 32) (how : (s.sidecar (pa / 256)).owner = 0)
    (hin : s.input = some (.hostMailboxWrite bn m off data)) :
    execHostMailboxWrite s = .next (s.hostMailbox (.glob pa va ow) off data) := by
  refine eventStep_ok hin ?_
  have hm := h.number
  simp [h.bezel, h.mailbox, h.still, hdata, hm, hlen, State.hostOpen_open _ hent how]

/-- A host write within HEAD of an outbound mailbox is made (R65). -/
theorem State.hostMailbox_head (hd : s.mbDir o = true) (hlo : 4 ≤ off) (hhi : off + data.length ≤ 8) :
    s.hostMailbox o off data = s.objWrite o off data := by
  simp [State.hostMailbox, hd, hlo, hhi]

/-- Any other host write to a mailbox object is recorded (R65). -/
theorem State.hostMailbox_other (h : s.mbDir o = false ∨ off < 4 ∨ 8 < off + data.length) :
    s.hostMailbox o off data = s.locket o.die 9 0x0501 0 o.va := by
  rw [State.hostMailbox, if_neg]
  obtain h | h | h := h <;> simp [h]

/-- The state in which an outbound message has arrived: PHASE is its number, it waits no more, and MSI-X is sent where it, or the
mailbox, asks (R72). -/
def State.outboundDone (s : State) (o x : Obj) (n : W32) (irq : Bool) (r : GRef) (op : Nat) : State :=
  let s1 := (s.objWrite o 0 (leBytes n.toNat 4)).noteRelease o 0 0 3
  let msix := if irq || s.mbIrq o then [HostOut.msix (s.mbVector o)] else []
  { s1 with host := { s1.host with outbound := s1.host.outbound.erase (x, n, irq, r, op), out := msix ++ s1.host.out } }

/-- The oldest outbound message of a mailbox arrives, and the flag of its `mbsend` is lowered (R72). -/
theorem MailboxOpen.exec_outbound {x : Obj} {n : W32} {irq : Bool} {r : GRef} {op : Nat} (h : MailboxOpen s bn m bz o)
    (hin : s.input = some (.outboundPhaseAdvance bn m))
    (hold : (s.host.outbound.find? fun p => (s.homeOf p.1).place == o.place) = some (x, n, irq, r, op)) :
    execOutboundPhaseAdvance s = .next ((s.outboundDone o x n irq r op).modGroup r fun g => g.dropOp op) := by
  refine eventStep_ok hin ?_
  simp only [State.outboundAdvance, h.bezel, h.mailbox, h.still, hold, Option.bind_some]
  rfl

/-- The message has left the queue of those that wait. -/
theorem State.outboundDone_outbound (s : State) (o x : Obj) (n : W32) (irq : Bool) (r : GRef) (op : Nat) :
    (s.outboundDone o x n irq r op).host.outbound = s.host.outbound.erase (x, n, irq, r, op) := by
  simp [State.outboundDone]

/-- MSI-X has been sent for a message that asks for it. -/
theorem State.msix_mem_outboundDone (s : State) (o x : Obj) (n : W32) (r : GRef) (op : Nat) :
    HostOut.msix (s.mbVector o) ∈ (s.outboundDone o x n true r op).host.out := by
  simp [State.outboundDone]

end Events

/-- Settles O46: a take through what `State.mbTake` answers; each instruction through the object that it names (`mailboxArg`) and
its own lemma above; a seal through `State.sealSlot`, and the other events through what each makes of an open mailbox. -/
theorem mailboxes : Obligations.Mailboxes := by
  intro s s1 s2 s3 t c d a b f o bn m slot off data msg bz
  refine ⟨?take, ?traps, fun h he hl hr => execMbrecv_empty h he hl hr, fun h he hl hr => execMbpeek_empty h he hl hr,
    fun h hn hr => execMbsend_nothing h hn hr, ?run, ⟨rfl, rfl, rfl, rfl⟩, ?events⟩
  case take =>
    rintro _ rfl
    exact ⟨State.mbTake_closed, State.mbTake_empty, fun _ => State.mbTake_message⟩
  case traps =>
    intro i kind hi h he hl hr
    have hnames : NamesMailbox i c s d a b f kind := hi
    exact ⟨fun ha => hnames.exec_trap h he hl hr (mailboxArg_misaligned ha),
      fun ha hb => hnames.exec_trap h he hl hr (mailboxArg_outside ha hb)⟩
  case run =>
    intro ha hlo hhi he hl
    refine ⟨fun st h hr hctr hc hs2 htake ht hrt => ?_, fun h hb => execMbsend_badOperand h he hl hb, fun h hb hr hctr => ?_,
      fun h hr hctr => ?_⟩
    · exact execMbrecv_takes h he hl hr (mailboxArg_inside ha hlo hhi hctr) hc hs2 htake ht hrt
    · exact execMbsend_held h he hl hb hr (mailboxArg_inside ha hlo hhi hctr) (hctr.roomB hr)
    · exact execMbpeek_reads h he hl hr (mailboxArg_inside ha hlo hhi hctr) (hctr.roomA hr)
  case events =>
    intro hbz hm hmb hmov hdata hent
    have hopen : MailboxOpen s bn m bz o := ⟨hbz, hm, hmb, hmov⟩
    refine ⟨fun pa q hin hslot h56 h64 hd he hpa how hq => ?_, fun h hin hlen => hopen.exec_fieldStore hdata hlen hin,
      fun pa x ow hin hlen ho how => ?_, fun x n irq r op hin hold => ?_⟩
    · have hseal := hopen.sealArrival hdata hent hslot h56 h64 hd he hpa how
      have hexec {u : State} (hu : s.sealSlot bz o slot data off = u) : exec .sealArrival s = .next u :=
        eventStep_ok hin (hseal.trans (congrArg some hu))
      refine ⟨fun hmiss => hexec (State.sealSlot_misses hmiss), fun hoff hlen => ?_⟩
      obtain ⟨hrej, hacc⟩ := State.sealSlot_covers hoff hlen hpa
      subst hq
      refine ⟨fun h1 h2 h3 h4 h5 => hexec (hacc ?_), fun hr => hexec (hrej hr)⟩
      rintro (h | h | h | h | h)
      · exact h h1
      · exact h2 h
      · exact absurd h3 (Nat.not_le.2 h)
      · exact h4 h
      · exact absurd h5 (Nat.not_le.2 h)
    · subst ho
      have hexec := hopen.exec_hostWrite hdata hent hlen how hin
      exact ⟨fun hd h4 h8 => hexec.trans (congrArg _ (State.hostMailbox_head hd h4 h8)),
        fun h => hexec.trans (congrArg _ (State.hostMailbox_other h))⟩
    · refine ⟨s.outboundDone o x n irq r op, hopen.exec_outbound hin hold, rfl, s.outboundDone_outbound o x n irq r op, ?_⟩
      rintro rfl
      exact s.msix_mem_outboundDone o x n r op

end Sys2Proof.Machine
end

section
/-! SUPPORT. A group at its placement, the dispatcher, and the retirement of a kernel (R74 to R76, R82 to R84, R89, R90). -/

namespace Sys2Proof.Machine

open Sys2Proof

/-! ### A group at its placement (R89, R90) -/

@[simp] theorem Group.setCkpt_s (g : Group) (c : Ckpt) : (g.setCkpt c).s = g.s := by unfold Group.setCkpt; split <;> rfl
@[simp] theorem Group.setCkpt_v (g : Group) (c : Ckpt) : (g.setCkpt c).v = g.v := by unfold Group.setCkpt; split <;> rfl
@[simp] theorem Group.setCkpt_pcA (g : Group) (c : Ckpt) : (g.setCkpt c).pcA = g.pcA := by unfold Group.setCkpt; split <;> rfl
@[simp] theorem Group.setCkpt_life (g : Group) (c : Ckpt) : (g.setCkpt c).life = g.life := by unfold Group.setCkpt; split <;> rfl

section Start

variable (k : Kernel) (tid n now : Nat)

/-- No register from s8 on is preloaded (R90). -/
theorem preScalars_find?_none {i : Nat} (hi : 8 ≤ i) : (preScalars k tid n).find? (fun p => p.1 == i) = none := by
  simp only [List.find?_eq_none, preScalars, List.mem_filterMap, List.mem_range, beq_iff_eq]
  rintro p ⟨j, hj, hp⟩ rfl
  split at hp
  · obtain rfl := Option.some.inj hp
    exact absurd hi (Nat.not_le.2 hj)
  · cases hp

/-- Bit 7 of PRELOAD puts ARGS into s7 (R90). -/
theorem preScalars_find?_args (h : (recPreload k.record).getLsbD 7 = true) :
    (preScalars k tid n).find? (fun p => p.1 == 7) = some (7, recArgs k.record) := by
  have hfirst : ∀ f : Nat → W64, (List.range 8).find? (fun i =>
      (if (recPreload k.record).getLsbD i then some (i, f i) else none).any fun p => p.1 == 7) = some 7 := by
    intro f
    refine List.find?_range_eq_some.2 ⟨by simp [h], by simp, fun j hj => ?_⟩
    split
    · simp; omega
    · rfl
  rw [preScalars, List.find?_filterMap, hfirst, Option.bind_some, if_pos h]
  rfl

/-- What scalar register `i` of a group holds at its placement: all ones in s30, a preloaded value, or 0 (R89, R90). -/
def startScalar (i : Nat) : W64 :=
  if i = 30 then 0xFFFFFFFF else match (preScalars k tid n).find? (fun p => p.1 == i) with | some p => p.2 | none => 0

/-- The fields of a group at its placement that its first checkpoint leaves alone (R89). -/
theorem startGroup_fields : (startGroup k tid n now).s = Vector.ofFn (fun i => startScalar k tid n i.val) ∧
    (startGroup k tid n now).v.length = roleVregs (recRole k.record (roleOf k.record n).1) ∧
    (startGroup k tid n now).pcA = { hdr := (recCode k.record).setWidth 57 } ∧ (startGroup k tid n now).life = .pending := by
  unfold startGroup
  dsimp only
  split
  · rw [Group.setCkpt_s, Group.setCkpt_v, Group.setCkpt_pcA, Group.setCkpt_life]
    exact ⟨rfl, by simp, rfl, rfl⟩
  · exact ⟨rfl, by simp, rfl, rfl⟩

theorem startGroup_sreg {i : Nat} (hi : i < 32) : (startGroup k tid n now).sreg i = startScalar k tid n i := by
  obtain ⟨hs, -⟩ := startGroup_fields k tid n now
  simp [Group.sreg, hs, hi]

end Start

/-! ### The dispatcher, and retirement (R76, R82, R83) -/

section Events

variable {s : State} {die pr bn slot : Nat} {k : Kernel} {b : Bezel} {l : List (Nat × Nat)}

/-- The dispatcher places the teams that it chooses, claims their ids, and the bezel and the queue take note (R76, R310). -/
theorem exec_teamDispatch_places (hin : s.input = some (.teamDispatch die))
    (h : s.drawKernels.dispatchChoice die = some (b, pr, k, .fresh l)) :
    exec .teamDispatch s = .next (((((l.foldl (fun s p => s.placeTeam b.num k p.1 p.2) s.drawKernels).modKernel b.num k.slot
      fun x => x.claim (l.map (·.1))).formed b.num).served die b.num pr k.slot)) :=
  eventStep_ok hin (by simp only [State.teamDispatch, h])

/-- With nothing to place, and no ticket to draw, there is no such step. -/
theorem exec_teamDispatch_idle (hin : s.input = some (.teamDispatch die)) (h : s.drawKernels.dispatchChoice die = none)
    (hd : s.drawKernels = s) : exec .teamDispatch s = .refused (.notEnabled "TEAM_DISPATCH") := by
  refine eventStep_refused ?_
  rw [hd] at h
  simp [hin, State.teamDispatch, hd, h]

/-- A DRAINING kernel of which everything has drained retires (R83). -/
theorem State.retire_drained (hk : s.kernel? bn slot = some k) (hst : k.st = .draining) (hd : s.drainedKernel bn k = true) :
    s.retire bn slot = some (s.endKernel bn slot) := by
  simp [State.retire, hk, hst, hd]

/-- No other kernel retires. -/
theorem State.retire_none (hk : s.kernel? bn slot = some k) (h : k.st ≠ .draining ∨ s.drainedKernel bn k = false) :
    s.retire bn slot = none := by
  rw [State.retire, hk]
  exact if_pos (by simpa using h)

/-- A kernel without an error, a cancellation or a lost lane ends COMPLETE (R82). -/
theorem Kernel.ending_complete (he : k.err = 0) (hc : k.cancel = false) (hl : k.lost = 0) : k.ending = .complete := by
  simp [Kernel.ending, he, hc, hl]

/-- A cancelled kernel ends CANCELLED, unless it was refused (R82, R87). -/
theorem Kernel.ending_cancelled (he : k.err ≠ 8) (hc : k.cancel = true) : k.ending = .cancelled := by
  simp [Kernel.ending, he, hc]

end Events

/-- Settles O48: TEAM_DISPATCH through the dispatcher's choice, the start of a group through its scalars at placement
(`startScalar`), RETIREMENT_COMPLETE through `State.retire`. -/
theorem kernelEvents : Obligations.KernelEvents := by
  intro s slot k b
  refine ⟨fun die pr l hin => ⟨exec_teamDispatch_places hin, exec_teamDispatch_idle hin⟩, fun tid g now => ?_, fun bn hin hk => ?_,
    Kernel.ending_complete, Kernel.ending_cancelled⟩
  · obtain ⟨-, hv, hpc, hlife⟩ := startGroup_fields k tid g now
    refine ⟨startGroup_sreg k tid g now (by decide), ?_, congrArg Pc.hdr hpc, hv, hlife, fun h => ?_⟩
    · rw [startGroup_sreg k tid g now (by decide)]
      simp [startScalar, preScalars_find?_none]
    · rw [startGroup_sreg k tid g now (by decide)]
      simp [startScalar, preScalars_find?_args k tid g h]
  · refine ⟨fun hst hd => eventStep_ok hin (State.retire_drained hk hst hd), fun h => eventStep_refused ?_⟩
    rw [hin]
    exact State.retire_none hk h

end Sys2Proof.Machine
end

section
/-! SUPPORT. `launch`, from the reads of its record to its answer, and the instructions that act on a kernel that a handle names
(R81, R85 to R87, R377). -/

namespace Sys2Proof.Machine

open Sys2Proof

/-! ### Room and groups where only memory or bezels have changed -/

section Room

variable {c : Ctx} {s t : State}

/-- Room for an operation of class a depends on the issuing group alone. -/
theorem Ctx.RoomA.of_group? (h : t.group? c.g = s.group? c.g) (hr : c.RoomA s) : c.RoomA t := by
  simpa only [Ctx.RoomA, h] using hr

@[simp] theorem State.group?_modKernel (s : State) (b k : Nat) (f : Kernel → Kernel) (r : GRef) :
    (s.modKernel b k f).group? r = s.group? r := rfl

/-- A new kernel changes no group (R84). -/
theorem State.group?_newKernel {b : Bezel} {r tab : List Byte} {recAddr : W64} {comp : Option Nat} {slot : Nat} {seq : W32}
    (h : s.newKernel b r tab recAddr comp = (t, slot, seq)) (q : GRef) : t.group? q = s.group? q := by
  obtain ⟨rfl, -⟩ := Prod.mk.inj h
  rfl

/-- Reading a record changes no group. -/
theorem Ctx.Reads.group? {k : Acc} {ad : W64} {n : Nat} {r : List Byte} (h : c.Reads s k ad n r t) (q : GRef) :
    t.group? q = s.group? q := by
  obtain ⟨p, -, -, rfl, -⟩ := h
  exact State.group?_reading c s ad p q

end Room

/-! ### What `launch` reads (R85) -/

section Reads

variable {c : Ctx} {s t : State} {r tab : List Byte} {x : Nat → State} {w : Nat → List Byte}

/-- Two offsets from an address are one. -/
theorem addr_add_offsets (ad : W64) (m n : Nat) : ad + BitVec.ofNat 64 m + BitVec.ofNat 64 n = ad + BitVec.ofNat 64 (m + n) := by
  rw [BitVec.add_assoc, ← BitVec.ofNat_add]

/-- Doublewords that the group can read one after another are read in that order. -/
theorem readDwords_reads (n : Nat) {ad : W64} (x : Nat → State) (w : Nat → List Byte) (hg : (x 0).group? c.g = some c.grp)
    (h : ∀ k < n, c.Reads (x k) .scalarLoad (ad + BitVec.ofNat 64 (8 * k)) 8 (w k) (x (k + 1))) :
    readDwords c (x 0) ad n = .ok (x n, (List.range n).flatMap w) := by
  induction n generalizing ad x w with
  | zero => rfl
  | succ n ih =>
    have hfirst : c.Reads (x 0) .scalarLoad ad 8 (w 0) (x 1) := by simpa using h 0 (by omega)
    have hrest : readDwords c (x 1) (ad + 8) n = .ok (x (n + 1), (List.range n).flatMap fun k => w (k + 1)) := by
      refine ih (fun k => x (k + 1)) _ ((hfirst.group? c.g).trans hg) fun k hk => ?_
      have had : ad + 8 + BitVec.ofNat 64 (8 * k) = ad + BitVec.ofNat 64 (8 * (k + 1)) := by
        rw [Nat.mul_succ, Nat.add_comm]
        exact addr_add_offsets ad 8 (8 * k)
      rw [had]
      exact h (k + 1) (by omega)
    rw [readDwords, readRecord, readRecordAs_reads hg hfirst]
    simp only [bind, Except.bind, hrest, List.range_succ_eq_map, List.flatMap_cons, List.flatMap_map]

/-- The recipe table's first doubleword and entry 0, `tab`, as `launch` reads them after the record `r`: nothing where RECIPES is
0 or misaligned (R85). -/
def Ctx.ReadsRecipe0 (c : Ctx) (s : State) (r tab : List Byte) (t : State) (x : Nat → State) (w : Nat → List Byte) : Prop :=
  (recRecipes r = 0 ∨ (recRecipes r).toNat % 8 ≠ 0) ∧ tab = [] ∧ t = s ∨
    recRecipes r ≠ 0 ∧ (recRecipes r).toNat % 8 = 0 ∧ c.Reads s .scalarLoad (recRecipes r) 8 (w 0) (x 0) ∧
      (∀ k < 4, c.Reads (x k) .scalarLoad (recRecipes r + BitVec.ofNat 64 (32 + 8 * k)) 8 (w (k + 1)) (x (k + 1))) ∧
      tab = w 0 ++ (w 1 ++ w 2 ++ w 3 ++ w 4) ∧ t = x 4

theorem readRecipe0_reads (hg : s.group? c.g = some c.grp) (h : c.ReadsRecipe0 s r tab t x w) :
    readRecipe0 c s r = .ok (t, tab) := by
  obtain ⟨hnone, rfl, rfl⟩ | ⟨h0, h8, hcount, hentry, rfl, rfl⟩ := h
  · exact if_pos hnone
  · have hcount' : readDwords c s (recRecipes r) 1 = .ok (x 0, w 0) := by
      rw [readDwords, readRecord, readRecordAs_reads hg hcount]
      simp [bind, Except.bind, readDwords]
    have hentry' : readDwords c (x 0) (recRecipes r + 32) 4 = .ok (x 4, w 1 ++ w 2 ++ w 3 ++ w 4) := by
      rw [readDwords_reads 4 x (fun k => w (k + 1)) ((hcount.group? c.g).trans hg) fun k hk => ?_]
      · simp [List.range_succ]
      · exact (addr_add_offsets (recRecipes r) 32 (8 * k)).symm ▸ hentry k hk
    rw [readRecipe0, if_neg (not_or.2 ⟨h0, not_not.2 h8⟩)]
    simp only [bind, Except.bind, hcount', hentry']

/-- No use of the counter at `ad` makes `launch` wait (R377): the record names none, or its page is present and not moving. -/
def State.CtrSettled (s : State) (b : Bezel) (r : List Byte) (ad : W64) (done : Bool) : Prop :=
  ad = 0 ∨ ∀ y z, s.ctrUse b (recKey r % 4096) ad done ≠ .wait y z ∧ s.ctrUse b (recKey r % 4096) ad done ≠ .migrating

theorem parkOnCtr_settled {ad : W64} {done : Bool} (h : s.CtrSettled c.bez r ad done) : parkOnCtr c s r ad done = .ok () := by
  unfold parkOnCtr
  split
  · rfl
  · next h0 =>
    have huse := h.resolve_left h0
    split
    · next y z hw => exact absurd hw (huse y z).1
    · next hm => exact absurd hm (huse 0 0).2
    · rfl

end Reads

/-! ### The kernel of an accepted `launch` (R85) -/

section Kernel

variable {c : Ctx} {s t u : State} {d : BitVec 8} {r tab : List Byte} {recAddr n : W64} {slot : Nat} {seq : W32} {o : Obj}

/-- Without DONECTR, `launch` answers the handle and ticket 0. -/
theorem launchKernel_noCounter (hn : s.newKernel c.bez r tab recAddr none = (t, slot, seq)) (hr : c.RoomA t)
    (h0 : recDoneCtr r = 0) : launchKernel c s d r tab recAddr = .ok ((c.opA t
      [.scal (sdstNum d) (handleOf c.bez.num slot seq), .scal (sdstNum d + 1) 0] .ready true).tryAdmit c.bez.num slot) := by
  simp [launchKernel, hn, h0, issueA_room hr, Except.map]

/-- A drawn ticket is the kernel's, and is answered with the handle. -/
theorem launchKernel_ticket (hn : s.newKernel c.bez r tab recAddr none = (t, slot, seq)) (h0 : recDoneCtr r ≠ 0)
    (ho : t.ctrUse c.bez (recKey r % 4096) (recDoneCtr r) true = .ok o)
    (hd : t.draw o (handleOf c.bez.num slot seq) = .ticket n u) (hr : c.RoomA u) :
    launchKernel c s d r tab recAddr = .ok ((c.opA (u.modKernel c.bez.num slot fun x => { x with ticket := n })
      [.scal (sdstNum d) (handleOf c.bez.num slot seq), .scal (sdstNum d + 1) n] .ready true).tryAdmit c.bez.num slot) := by
  have hr' : c.RoomA (u.modKernel c.bez.num slot fun x => { x with ticket := n }) := hr.of_group? (State.group?_modKernel ..)
  simp only [launchKernel, hn, if_neg h0, ho, hd, issueA_room hr', Except.map]

/-- Where the counter has no room, the operation draws later, for the kernel and for the second register of the answer. -/
theorem launchKernel_waits (hn : s.newKernel c.bez r tab recAddr none = (t, slot, seq)) (hr : c.RoomA t) (h0 : recDoneCtr r ≠ 0)
    (ho : t.ctrUse c.bez (recKey r % 4096) (recDoneCtr r) true = .ok o)
    (hd : t.draw o (handleOf c.bez.num slot seq) = .wait) :
    launchKernel c s d r tab recAddr = .ok ((c.opA (t.modKernel c.bez.num slot fun x => { x with drawn := false })
      [.scal (sdstNum d) (handleOf c.bez.num slot seq), .scal (sdstNum d + 1) 0]
      (.draw o (.kernel c.bez.num slot seq) (sdstNum d + 1)) true).tryAdmit c.bez.num slot) := by
  have hr' : c.RoomA (t.modKernel c.bez.num slot fun x => { x with drawn := false }) := hr.of_group? (State.group?_modKernel ..)
  simp only [launchKernel, hn, if_neg h0, ho, hd, issueA_room hr', Except.map]

end Kernel

/-! ### `launch` (R85) -/

section Launch

variable {c : Ctx} {s s1 s2 s3 u : State} {d a : BitVec 8} {r tab : List Byte} {x : Nat → State} {w : Nat → List Byte}

theorem execLaunch_empty (h : Issuing (.launch d a) c s) (he : c.em = 0) (hl : c.g.sh = false) (hr : c.RoomA s) :
    execLaunch d a s = .next (c.past (c.noneA s)) :=
  issue_ok h (by simp [he, classA, hl, instantA_room hr])

theorem execLaunch_misaligned (h : Issuing (.launch d a) c s) (he : c.em ≠ 0) (hl : c.g.sh = false)
    (ha : (c.s a).toNat % 256 ≠ 0) : execLaunch d a s = .next (c.traps s ALIGN (c.s a)) := by
  refine issue_trap h ?_
  rw [if_neg he, hl, if_neg Bool.false_ne_true, if_pos ha]

/-- A leader's `launch` that has read its record `r` and recipe 0 `tab`, waits for no page of a counter, and has committed and
published: `s2` is the state before the commit, `s3` the one after it (R85, R377; log entry 21). -/
structure Launched (d a : BitVec 8) (c : Ctx) (s s1 s2 s3 : State) (r tab : List Byte) (x : Nat → State) (w : Nat → List Byte) :
    Prop where
  issuing : Issuing (.launch d a) c s
  lanes : c.em ≠ 0
  leader : c.g.sh = false
  aligned : (c.s a).toNat % 256 = 0
  room : c.RoomA s
  record : c.Reads s .scalarLoad (c.s a) 256 r s1
  recipe : c.ReadsRecipe0 s1 r tab s2 x w
  dep : s2.CtrSettled c.bez r (recDepCtr r) false
  done : s2.CtrSettled c.bez r (recDoneCtr r) true
  may : c.MayCommit s2
  committed : s3 = (c.commit s2 false).publish c.g c.core 3

/-- Such a `launch` answers the refusal code, or makes the kernel, as the committed state has it. -/
theorem Launched.exec_eq (h : Launched d a c s s1 s2 s3 r tab x w)
    (hu : (if s3.refusal c.bez r tab (recSuper c.kern.record) ≠ 0 then
      issueA c s3 [.scal (sdstNum d) (BitVec.ofNat 64 (2 ^ 63 + s3.refusal c.bez r tab (recSuper c.kern.record))),
        .scal (sdstNum d + 1) 0] .ready true
      else launchKernel c s3 d r tab (c.s a)) = .ok u) : execLaunch d a s = .next (c.past u) := by
  have hg : s.group? c.g = some c.grp := State.ctx_group h.issuing.ctx
  have hem : ¬ c.em = 0#32 := h.lanes
  have hrec : readRecord c s (c.s a) 256 = .ok (s1, r) := readRecordAs_reads hg h.record
  have htab : readRecipe0 c s1 r = .ok (s2, tab) := readRecipe0_reads ((h.record.group? c.g).trans hg) h.recipe
  have hgate : gateA c s = .ok () := gateA_room hg h.room
  refine issue_ok h.issuing ?_
  rw [h.committed] at hu
  simpa [hem, h.leader, h.aligned, hgate, hrec, htab, parkOnCtr_settled h.dep, parkOnCtr_settled h.done,
    boundary_commit false h.may, bind, Except.bind] using hu

/-- The refusal of the first failing check is answered (R81). -/
theorem Launched.exec_refused (h : Launched d a c s s1 s2 s3 r tab x w) (hr : c.RoomA s3)
    (hc : s3.refusal c.bez r tab (recSuper c.kern.record) ≠ 0) :
    execLaunch d a s = .next (c.past (c.opA s3 [.scal (sdstNum d) (BitVec.ofNat 64
      (2 ^ 63 + s3.refusal c.bez r tab (recSuper c.kern.record))), .scal (sdstNum d + 1) 0] .ready true)) :=
  h.exec_eq (by rw [if_pos hc, issueA_room hr])

/-- An accepted `launch` makes its kernel. -/
theorem Launched.exec_accepted (h : Launched d a c s s1 s2 s3 r tab x w)
    (hc : s3.refusal c.bez r tab (recSuper c.kern.record) = 0) (hk : launchKernel c s3 d r tab (c.s a) = .ok u) :
    execLaunch d a s = .next (c.past u) :=
  h.exec_eq (by rw [if_neg (not_not.2 hc), hk])

end Launch

/-! ### Refusals (R81) -/

section Refusal

variable {s : State} {b : Bezel} {r tab : List Byte} {super : Bool}

theorem State.refusal_noSlot (h : b.hasSlot = false) : s.refusal b r tab super = 10 := by
  simp [State.refusal, h]

theorem State.refusal_badRecord (h : b.hasSlot = true) (hr : recordBad r = true) : s.refusal b r tab super = 1 := by
  simp [State.refusal, h, hr]

/-- A kernel without SUPER may not launch one with it. -/
theorem State.refusal_super (h : b.hasSlot = true) (hr : recordBad r = false) (ht : recipe0Bad r tab = false)
    (hc : s.ctrBad b r = false) (hs : recSuper r = true) : s.refusal b r tab false = 9 := by
  simp [State.refusal, h, hr, ht, hc, hs]

end Refusal

/-! ### Reading a kernel, and delivering an event to it (R86, R87) -/

section Handle

variable {i : Instr} {c : Ctx} {s s1 : State} {d a f : BitVec 8} {op : Nat} {b : Bezel} {k : Kernel}
  {eff : Ctx → State → Kernel → State}

/-- R86: what a handle names is read, whatever EM holds. -/
theorem execKquery_reads (h : Issuing (.kquery d a f) c s) (hl : c.g.sh = false) (hr : c.RoomA s) :
    execKquery d a f s = .next (c.past (c.opA s [.scal (sdstNum d) (s.kqueryWord c.bez (c.s a) f.toNat)] .ready false)) := by
  refine issue_ok h ?_
  simp [classA, hl, gateA_room (t := s) (State.ctx_group h.ctx) hr, issueA_room hr, bind, Except.bind]

theorem kernelOp_empty (h : Issuing i c s) (he : c.em = 0) (hr : c.g.sh = true ∨ c.RoomB s) :
    kernelOp i op a eff s = .next (c.past (sign c s [c.s a])) :=
  issue_ok h ((if_pos he).trans (classB_nothing hr))

/-- A shadow commits and signs (R98). -/
theorem kernelOp_shadow (h : Issuing i c s) (he : c.em ≠ 0) (hs : c.g.sh = true) (hm : c.MayCommit s) :
    kernelOp i op a eff s = .next (c.past (sign c (c.commit s false) [c.s a])) := by
  have hem : ¬ c.em = 0#32 := he
  refine issue_ok h ?_
  simp [classB, hem, hs, boundary_commit false hm, bind, Except.bind]

/-- What the event leaves at the home of a bezel's kernels: its effect on the kernel that the handle names, or the record of an
event without effect (R87). -/
def Ctx.delivered (c : Ctx) (s : State) (b : Bezel) (op : Nat) (h : W64) (eff : State → Kernel → State) : State :=
  match ({ c with bez := b } : Ctx).target h with
  | some k => eff s k
  | none => s.locket c.bez.die 9 (0x0100 + op) c.handle h

theorem Ctx.delivered_target {h : W64} {e : State → Kernel → State} (ht : ({ c with bez := b } : Ctx).target h = some k) :
    c.delivered s b op h e = e s k := by
  rw [Ctx.delivered, ht]

theorem Ctx.delivered_none {h : W64} {e : State → Kernel → State} (ht : ({ c with bez := b } : Ctx).target h = none) :
    c.delivered s b op h e = s.locket c.bez.die 9 (0x0100 + op) c.handle h := by
  rw [Ctx.delivered, ht]

/-- A leader commits, publishes, and delivers its event (R87). -/
theorem kernelOp_leader (h : Issuing i c s) (he : c.em ≠ 0) (hl : c.g.sh = false) (hr : c.RoomB s) (hm : c.MayCommit s)
    (h1 : s1 = (c.commit s false).publish c.g c.core 3) (hb : s1.bezel? c.bez.num = some b) :
    kernelOp i op a eff s = .next (c.past (sign c (c.delivered s1 b op (c.s a) (eff c)) [c.s a])) := by
  subst h1
  have hem : ¬ c.em = 0#32 := he
  have hgate : gateB c s = .ok () := gateB_room (State.ctx_group h.ctx) hr
  refine issue_ok h ?_
  cases ht : ({ c with bez := b } : Ctx).target (c.s a) <;>
    simp [classB, Ctx.delivered, hem, hl, hgate, boundary_commit false hm, hb, ht, bind, Except.bind]

/-- The instructions that deliver an event to a kernel's home, each with its opcode and what the event does (R87). -/
def DeliversToKernel (i : Instr) (op : Nat) (a : BitVec 8) (c : Ctx) (eff : Kernel → State → State) : Prop :=
  i = .kcancel a ∧ op = 0xDE ∧ eff = (fun k s => s.cancelKernel c.bez.num k.slot) ∨
    i = .kpreemptSave a ∧ op = 0xDF ∧ eff = (fun k s => s.preemptSave c.bez.num k) ∨
    i = .kpreemptDiscard a ∧ op = 0xDF ∧ eff = (fun k s => s.preemptDiscard c.bez.num k)

theorem DeliversToKernel.exec_eq {e : Kernel → State → State} (h : DeliversToKernel i op a c e) (s : State) :
    ∃ eff : Ctx → State → Kernel → State, exec i s = kernelOp i op a eff s ∧ ∀ k t, eff c t k = e k t := by
  obtain ⟨rfl, rfl, rfl⟩ | ⟨rfl, rfl, rfl⟩ | ⟨rfl, rfl, rfl⟩ := h
  · exact ⟨fun c s k => s.cancelKernel c.bez.num k.slot, exec_kcancel a s, fun _ _ => rfl⟩
  · exact ⟨fun c s k => s.preemptSave c.bez.num k, exec_kpreemptSave a s, fun _ _ => rfl⟩
  · exact ⟨fun c s k => s.preemptDiscard c.bez.num k, exec_kpreemptDiscard a s, fun _ _ => rfl⟩

end Handle

/-- Settles O47: `launch` through what it has read and committed (`Launched`) and the kernel that it makes (`launchKernel`), the
refusals through `State.refusal`, and `kcancel` and `kpreempt` through the one operation that they share (`kernelOp`). -/
theorem kernelInstructions : Obligations.KernelInstructions := by
  intro s s1 s2 s3 t u c d a f r tab slot seq o n k b x w
  refine ⟨execLaunch_empty, execLaunch_misaligned, fun h he hl ha hr hrec htab hdep hdone hm h3 hr3 => ?_, fun sup => ?_,
    execKquery_reads, fun i op eff hi h => ?_⟩
  · have hL : Launched d a c s s1 s2 s3 r tab x w := ⟨h, he, hl, ha, hr, hrec, htab, hdep, hdone, hm, h3⟩
    refine ⟨hL.exec_refused hr3, fun hc hn => ?_⟩
    have hrt : c.RoomA t := hr3.of_group? (State.group?_newKernel hn c.g)
    exact ⟨fun h0 => hL.exec_accepted hc (launchKernel_noCounter hn hrt h0), fun h0 ho =>
      ⟨fun hd hru => hL.exec_accepted hc (launchKernel_ticket hn h0 ho hd hru),
        fun hd => hL.exec_accepted hc (launchKernel_waits hn hrt h0 ho hd)⟩⟩
  · refine ⟨State.refusal_noSlot, State.refusal_badRecord, fun hb hr ht hc hs hsup => ?_⟩
    subst hsup
    exact State.refusal_super hb hr ht hc hs
  · obtain ⟨eff', hexec, heff⟩ := DeliversToKernel.exec_eq hi s
    rw [hexec]
    refine ⟨kernelOp_empty h, kernelOp_shadow h, fun he hl hr hm h1 hb => ⟨fun ht => ?_, fun ht => ?_⟩⟩
    · rw [kernelOp_leader h he hl hr hm h1 hb, Ctx.delivered_target ht, heff]
    · rw [kernelOp_leader h he hl hr hm h1 hb, Ctx.delivered_none ht]

end Sys2Proof.Machine
end

section
/-! SUPPORT. Masks of lanes, and the votes over the lanes of EM (R25, R109). -/

namespace Sys2Proof.Machine

open Sys2Proof

/-! ### Masks of lanes (R25) -/

/-- The number whose bit `i`, for `i` below `n`, is `f i`: the sum that `maskOf` takes. -/
def bitSum (f : Nat → Bool) (n : Nat) : Nat := (List.range n).foldl (fun a i => a + if f i then 2 ^ i else 0) 0

theorem bitSum_succ (f : Nat → Bool) (n : Nat) : bitSum f (n + 1) = bitSum f n + if f n then 2 ^ n else 0 := by
  simp [bitSum, List.range_succ]

theorem bitSum_lt (f : Nat → Bool) (n : Nat) : bitSum f n < 2 ^ n := by
  induction n with
  | zero => simp [bitSum]
  | succ n ih =>
    rw [bitSum_succ, Nat.pow_succ]
    split <;> omega

theorem testBit_bitSum (f : Nat → Bool) (n k : Nat) : (bitSum f n).testBit k = (decide (k < n) && f k) := by
  induction n with
  | zero => simp [bitSum]
  | succ n ih =>
    have hor : bitSum f (n + 1) = (if f n then 2 ^ n else 0) ||| bitSum f n := by
      rw [bitSum_succ, Nat.add_comm]
      split
      · simpa using Nat.two_pow_add_eq_or_of_lt (bitSum_lt f n) 1
      · simp
    rw [hor, Nat.testBit_or, ih]
    by_cases hk : k = n
    · subst hk
      cases hf : f k <;> simp
    · have hlt : k < n + 1 ↔ k < n := by omega
      have hbit : (if f n then 2 ^ n else 0).testBit k = false := by
        split
        · exact Nat.testBit_two_pow_of_ne (Ne.symm hk)
        · exact Nat.zero_testBit k
      simp [hbit, hlt]

/-- Bit `i` of the mask of a test is the test of lane `i`. -/
@[simp] theorem getLsbD_maskOf (f : Nat → Bool) (i : Nat) : (maskOf f).getLsbD i = (decide (i < 32) && f i) := by
  show (BitVec.ofNat 32 (bitSum f 32)).getLsbD i = _
  rw [BitVec.getLsbD_ofNat, testBit_bitSum, ← Bool.and_assoc, Bool.and_self]

@[simp] theorem mem_lanesOf {m : W32} {i : Nat} : i ∈ lanesOf m ↔ i < 32 ∧ m.getLsbD i = true := by
  simp [lanesOf]

/-- Two masks are one when they name the same lanes. -/
theorem mask_eq_iff {m n : W32} : m = n ↔ ∀ i < 32, m.getLsbD i = n.getLsbD i :=
  ⟨fun h _ _ => h ▸ rfl, fun h => BitVec.eq_of_getLsbD_eq h⟩

/-! ### Votes (R109) -/

section Votes

variable {em : W32} {r : VReg} {p : W32 → Bool}

theorem getLsbD_voteMask {i : Nat} (hi : i < 32) : (voteMask em r p).getLsbD i = (em.getLsbD i && p (r.l.lane i)) := by
  simp only [voteMask, getLsbD_maskOf, hi, decide_true, Bool.true_and]

/-- Every lane of EM passes the test. -/
theorem voteMask_eq_em : voteMask em r p = em ↔ ∀ i < 32, em.getLsbD i = true → p (r.l.lane i) = true := by
  rw [mask_eq_iff]
  refine forall₂_congr fun i hi => ?_
  rw [getLsbD_voteMask hi]
  cases em.getLsbD i <;> simp

/-- No lane of EM passes the test. -/
theorem voteMask_eq_zero : voteMask em r p = 0 ↔ ∀ i < 32, em.getLsbD i = true → p (r.l.lane i) = false := by
  rw [mask_eq_iff]
  refine forall₂_congr fun i hi => ?_
  rw [getLsbD_voteMask hi]
  simp

end Votes

/-- A scalar that is 1 where a test holds, else 0, tells the test. -/
theorem ite_one_zero_iff (p : Prop) [Decidable p] :
    ((if p then 1 else 0 : W64) = 0 ∨ (if p then 1 else 0 : W64) = 1) ∧ ((if p then 1 else 0 : W64) = 1 ↔ p) := by
  split <;> simp [*]

/-- Settles O10: each vote is a scalar of the mask of the lanes that pass the test (`voteMask`). -/
theorem votes : Obligations.Votes := by
  rintro s c d a f x rfl
  refine ⟨fun h => ⟨_, scalarOp_ok h _, fun i hi => ?_⟩, fun h => ⟨_, scalarOp_ok h _, ?_⟩, fun h => ⟨_, scalarOp_ok h _, ?_⟩⟩
  · rw [getLsbD_voteMask hi]
    split <;> simp
  · refine (ite_one_zero_iff _).imp_right fun h => h.trans ?_
    simp [voteMask_eq_em]
  · rw [← ite_not]
    refine (ite_one_zero_iff _).imp_right fun h => h.trans ?_
    rw [voteMask_eq_zero]
    simp

end Sys2Proof.Machine
end

section
/-! SUPPORT. Where the branches move their slot, and where a group stands once it has passed an instruction (R46, R93, R102, R107). -/

namespace Sys2Proof.Machine

open Sys2Proof

/-! ### Branches (R102) -/

section Branches

variable {i : Instr} {s : State} {c : Ctx} {f : Ctx → State → Res} {t : VA}

/-- A target counts in words from the clause header (R56). -/
theorem Ctx.rel_eq (c : Ctx) (off : VA) : c.rel off = c.cl.hdr + 4 * off := by
  rw [Ctx.rel, BitVec.mul_comm]

/-- An address is a multiple of 4 when its two low bits are 0. -/
theorem lowBits_eq_zero_iff (t : VA) : t.extractLsb' 0 2 = 0 ↔ t.toNat % 4 = 0 := by
  simp [← BitVec.toNat_inj, BitVec.extractLsb'_toNat]

/-- A branch to an address in a register goes there, or traps when the address is misaligned (R56). -/
theorem issue_goReg_eq (h : Issuing i c s) (hf : f c s = goReg c s t) :
    issue i s f = .next (if t.extractLsb' 0 2 = 0 then c.past (goTo c s t) else c.traps s ALIGN (t.setWidth 64)) := by
  by_cases ht : t.toNat % 4 = 0
  · rw [if_pos ((lowBits_eq_zero_iff t).2 ht)]
    exact issue_ok h (hf.trans (if_neg (not_not.2 ht)))
  · rw [if_neg (mt (lowBits_eq_zero_iff t).1 ht)]
    exact issue_trap h (hf.trans (if_pos ht))

end Branches

/-! ### Passing an instruction (R46, R93) -/

section Advance

variable {g : Group} {c : Clause}

/-- The group with other checkpoints. -/
def Group.withCkpts (g : Group) (k0 k1 : Ckpt) : Group := { g with ck0 := k0, ck1 := k1 }

theorem Group.withCkpts_sreg (g : Group) (k0 k1 : Ckpt) (n : Nat) : (g.withCkpts k0 k1).sreg n = g.sreg n := rfl
theorem Group.withCkpts_vreg (g : Group) (k0 k1 : Ckpt) (code : BitVec 8) : (g.withCkpts k0 k1).vreg code = g.vreg code := rfl

/-- The group with neither a wait nor the mark of a commit. -/
def Group.unmarked (g : Group) : Group := { g with bnd := .idle, bndHere := false, wait := .none }

/-- A checkpoint written again after a task-ending instruction changes the two checkpoints alone (R222). -/
theorem Group.reCkpt_frame (g : Group) (c : Clause) : ∃ k0 k1, g.reCkpt c = g.withCkpts k0 k1 := by
  unfold Group.reCkpt
  dsimp only
  split
  · exact ⟨g.ck0, _, rfl⟩
  · exact ⟨_, g.ck1, rfl⟩

/-- Of a group that moves past its instruction, the checkpoints may be written again. -/
theorem Group.advance_frame (g : Group) : ∃ k0 k1, g.advance = g.unmarked.forward.withCkpts k0 k1 := by
  unfold Group.advance
  dsimp only
  split
  · split
    · exact Group.reCkpt_frame _ _
    · exact ⟨_, _, rfl⟩
  · exact ⟨_, _, rfl⟩

theorem Group.forward_inside (hc : g.clause = some c) (hi : c.idx + 1 < c.words.length) :
    g.forward = { g with clause := some { c with idx := c.idx + 1 } } := by
  simp [Group.forward, hc, hi]

theorem Group.forward_last (hc : g.clause = some c) (hi : c.words.length ≤ c.idx + 1) : g.forward = g.endClause c := by
  simp [Group.forward, hc, Nat.not_lt.2 hi]

/-- Closing batches changes the numbers and the members of batches alone (R176, R199). -/
theorem Group.closeBatches_frame (g : Group) (c : Clause) : ∃ n m q k l p, g.closeBatches c =
    { g with lastBatch := n, mbat := m, mq := q, lastCopyBatch := k, cbat := l, copies := p } := by
  unfold Group.closeBatches
  dsimp only
  repeat' split
  all_goals exact ⟨_, _, _, _, _, _, rfl⟩

/-- The end of a clause that moves its slot's PC (R93). -/
theorem Group.endClause_close (hc : c.close = true) (hm : g.mode ≠ .recompute) : g.endClause c =
    { (g.closeBatches c).setPc c.slot { hdr := c.target.getD c.next } with
      clause := none, lastSlot := c.slot, yielded := c.yield || headYield c.head } := by
  simp [Group.endClause, hc, hm]

/-- Inside a clause the group goes on at the next instruction, and no PC moves. -/
theorem Group.advance_inside (hc : g.clause = some c) (hi : c.idx + 1 < c.words.length) :
    g.advance.clause = some { c with idx := c.idx + 1 } ∧ g.advance.pcA = g.pcA ∧ g.advance.pcB = g.pcB ∧
      g.advance.pcH = g.pcH := by
  obtain ⟨k0, k1, h⟩ := g.advance_frame
  rw [h, Group.forward_inside (g := g.unmarked) hc hi]
  exact ⟨rfl, rfl, rfl, rfl⟩

/-- After the last instruction the clause has ended. -/
theorem Group.advance_last (hc : g.clause = some c) (hi : c.words.length ≤ c.idx + 1) :
    g.advance.clause = none ∧ g.advance.lastSlot = c.slot ∧ g.advance.yielded = (c.yield || headYield c.head) := by
  obtain ⟨k0, k1, h⟩ := g.advance_frame
  rw [h, Group.forward_last (g := g.unmarked) hc hi]
  exact ⟨rfl, rfl, rfl⟩

/-- After the last instruction, the slot of the clause, and no other, stands at the branch target or the next clause. -/
theorem Group.advance_last_pc (hc : g.clause = some c) (hi : c.words.length ≤ c.idx + 1) (hclose : c.close = true)
    (hm : g.mode ≠ .recompute) :
    (c.slot = .a → g.advance.pcA = { hdr := c.target.getD c.next } ∧ g.advance.pcB = g.pcB) ∧
    (c.slot = .b → g.advance.pcB = { hdr := c.target.getD c.next } ∧ g.advance.pcA = g.pcA) ∧
    (c.slot = .h → g.advance.pcH = { hdr := c.target.getD c.next } ∧ g.advance.pcA = g.pcA ∧ g.advance.pcB = g.pcB) := by
  obtain ⟨k0, k1, h⟩ := g.advance_frame
  rw [h, Group.forward_last (g := g.unmarked) hc hi, Group.endClause_close (g := g.unmarked) hclose hm]
  obtain ⟨n, m, q, k, l, p, hb⟩ := g.unmarked.closeBatches_frame c
  rw [hb]
  refine ⟨fun hs => ?_, fun hs => ?_, fun hs => ?_⟩ <;> rw [hs]
  · exact ⟨rfl, rfl⟩
  · exact ⟨rfl, rfl⟩
  · exact ⟨rfl, rfl, rfl⟩

end Advance

/-- Settles O7: each branch through its target (`Ctx.rel`, or `goReg` for an address in a register), the place of a group through what
`Group.advance` does inside a clause and at its end. -/
theorem branches : Obligations.Branches := by
  refine ⟨?_, fun g c hc => ⟨Group.advance_inside hc, fun hi => ?_, g.advance_body⟩⟩
  · rintro s c d a n i o hdr t u rfl rfl rfl
    simp only [← Ctx.rel_eq]
    refine ⟨fun h => issue_ok h rfl, fun h => ?_, fun h => ?_, fun h => issue_ok h rfl, fun h => issue_goReg_eq h rfl,
      fun h => issue_goReg_eq h rfl⟩
    · exact issue_ok h rfl
    · exact issue_ok h (by simp only [ne_eq, ite_not])
  · obtain ⟨hclause, hlast, hyield⟩ := Group.advance_last hc hi
    exact ⟨hclause, hlast, hyield, fun hclose hm => Group.advance_last_pc hc hi hclose hm⟩

end Sys2Proof.Machine
end

section
/-! SUPPORT. `exit`, `yield`, `mode` and `nop`, and the commit before a task-ending instruction (R59, R106, R107, R222, R287). -/

namespace Sys2Proof.Machine

open Sys2Proof

section Commit

variable {s : State} {c : Ctx} {here : Bool}

/-- The commit may run once the task has drained and no store of it waits for a recall (R222, R287). -/
theorem State.canCommit_iff (hg : s.group? c.g = some c.grp) :
    s.canCommit c = true ↔ c.grp.drained = true ∧ s.commitHeldUp c.g c.grp = false := by
  simp [State.canCommit, hg]

/-- Where the commit may not run yet, or leader and shadow must first agree, the group waits for TASK_COMMIT (R287). -/
theorem boundary_waits (hb : c.grp.bnd ≠ .passed) (h : s.canCommit c = false ∨ c.shadowed = true ∧ c.grp.mode ≠ .handler) :
    boundary c s here = .error (.wait .boundary (c.mod s fun g => { g with bnd := .waiting, bndHere := here })) := by
  have hno : ¬ (s.canCommit c && (!c.shadowed || c.grp.mode == .handler)) = true := by
    obtain h | ⟨hs, hm⟩ := h <;> simp [*]
  rw [boundary, if_neg (by simpa using hb), if_neg hno]

/-- R106: the task commits, then the lanes of EM exit. -/
theorem execExit_commits (h : Issuing .exit c s) (hm : c.MayCommit s) :
    execExit s = .next (c.past (c.mod (c.commit s false) fun g => { g with exited := g.exited ||| c.em })) :=
  issue_ok h (by rw [boundary_commit false hm]; rfl)

end Commit

/-- Settles O9: `exit` through the commit before it (`boundary_commit`), and that commit by the test that it makes
(`State.canCommit`). -/
theorem exitYieldModeNop : Obligations.ExitYieldModeNop := by
  refine ⟨fun s c i => ⟨execExit_commits, fun h => issue_ok h rfl, fun h => issue_ok h rfl, fun h => issue_ok h rfl⟩,
    fun s c here hg hb => ⟨fun hd hu hs => ?_, fun h => boundary_waits hb ?_⟩⟩
  · have hm : c.MayCommit s := .inr ⟨hb, (State.canCommit_iff hg).2 ⟨hd, hu⟩, hs⟩
    rw [boundary_commit here hm, Ctx.commit, if_neg hb]
  · rw [← or_assoc] at h
    refine h.imp_left fun h => ?_
    rw [← Bool.not_eq_true, State.canCommit_iff hg]
    obtain h | h := h <;> simp [h]

end Sys2Proof.Machine
end

section
/-! SUPPORT. `split`, `join`, `dpush` and `dpop` (R103 to R105, R285, R292). -/

namespace Sys2Proof.Machine

open Sys2Proof

variable {s t u : State} {c : Ctx} {p : Place}

/-! ### `split` (R103) -/

section Split

variable {i : BitVec 16}

theorem execSplit_illop (h : Issuing (.split i) c s) (hn : c.slot = .h ∨ c.grp.blive = true) :
    execSplit i s = .next (c.traps s ILLOP 0) :=
  issue_trap h (if_pos (by simpa using hn))

/-- With slot B free, `split` starts it where its live mask is not zero. -/
theorem execSplit_free (h : Issuing (.split i) c s) (hh : c.slot ≠ .h) (hb : c.grp.blive = false) :
    execSplit i s = .next (if c.grp.liveMask .b = 0 then c.past s
      else c.past (c.mod s fun g => { g with pcB := { hdr := c.rel (i.signExtend 57) }, blive := true })) := by
  have hgo : ¬ (c.slot == .h || c.grp.blive) = true := by simp [hh, hb]
  split
  · next hm => exact issue_ok h ((if_neg hgo).trans (if_pos hm))
  · next hm => exact issue_ok h ((if_neg hgo).trans (if_neg hm))

end Split

/-! ### `join` (R104) -/

section Join

theorem execJoin_handler (h : Issuing .join c s) (hh : c.slot = .h) : execJoin s = .next (c.traps s ILLOP 0) :=
  issue_trap h (if_pos (by simpa using hh))

theorem execJoin_alone (h : Issuing .join c s) (hh : c.slot ≠ .h) (hb : c.grp.blive = false) : execJoin s = .next (c.past s) :=
  issue_ok h (by simp [hh, hb])

/-- The other slot is on its way: this one parks. -/
theorem execJoin_parks (h : Issuing .join c s) (hh : c.slot ≠ .h) (hb : c.grp.blive = true)
    (ho : (if c.slot = .b then c.grp.ajoin else c.grp.bjoin) = false) :
    execJoin s = .next (c.past (c.mod s fun g => g.parkJoin c.slot c.cl.hdr c.cl.next)) :=
  issue_ok h (by simp [hh, hb, ho])

/-- The other slot is parked: the two merge. -/
theorem execJoin_merges (h : Issuing .join c s) (hh : c.slot ≠ .h) (hb : c.grp.blive = true)
    (ho : (if c.slot = .b then c.grp.ajoin else c.grp.bjoin) = true) :
    execJoin s = .next (c.past (c.mod s fun g => g.merge c.slot)) :=
  issue_ok h (by simp [hh, hb, ho])

/-- What the merge leaves in the masks, in slot B and in PC A (R104; log entry 48). -/
theorem Group.merge_fields (g : Group) (sl : Slot) :
    (g.merge sl).sreg 30 = g.sreg 30 ||| g.sreg 31 ∧ (g.merge sl).sreg 31 = 0 ∧ (g.merge sl).blive = false ∧
      (g.merge sl).bjoin = false ∧ (sl = .b → (g.merge sl).pcA.hdr = g.pcA.next) ∧ (sl = .a → (g.merge sl).pcA = g.pcA) := by
  have hs : (g.merge sl).s = ((g.setS 30 (g.sreg 30 ||| g.sreg 31)).setS 31 0).s := by
    unfold Group.merge; dsimp only; split <;> rfl
  have hsreg (n : Nat) : (g.merge sl).sreg n = ((g.setS 30 (g.sreg 30 ||| g.sreg 31)).setS 31 0).sreg n := by
    simp only [Group.sreg, hs]
  refine ⟨by simp [hsreg, Group.setS_sreg], by simp [hsreg, Group.setS_sreg], ?_⟩
  cases sl <;> simp [Group.merge]

end Join

/-! ### `dpush` (R105, R285) -/

section Push

/-- The group after `dpush` (R105). -/
def Group.pushed (g : Group) : Group := { (g.setS 31 0) with dsp := g.dsp + 16, blive := false, bjoin := false }

/-- The entry that `dpush` writes; `fill` stands in the fields that it leaves open where slot B is not live (R105; log entry 5). -/
def Group.pushEntry (g : Group) (fill : List Byte) : List Byte :=
  if g.blive then leBytes g.pcB.hdr.toNat 8 ++ leBytes ((g.sreg 31).toNat % 2 ^ 32) 4 ++ leBytes 1 4 else fill ++ leBytes 0 4

/-- The units of some places count, at once or after an implicit boundary. -/
theorem countUnits_of (h : c.UnitsFit s [p] ∧ t = c.counted s [p] ∨ countUnits c s [p] = .ok t) : countUnits c s [p] = .ok t := by
  obtain ⟨hfit, rfl⟩ | h := h
  · exact countUnits_fit hfit
  · exact h

theorem execDpush_illop (h : Issuing .dpush c s) (ha : c.slot ≠ .a) : execDpush s = .next (c.traps s ILLOP 0) :=
  issue_trap h (if_pos (by simpa using ha))

theorem execDpush_align (h : Issuing .dpush c s) (ha : c.slot = .a) (h16 : c.grp.dsp.toNat % 16 ≠ 0) :
    execDpush s = .next (c.traps s ALIGN (ownVa c.grp.dsp.toNat)) :=
  issue_trap h (by simp [ha, h16])

theorem execDpush_prot (h : Issuing .dpush c s) (ha : c.slot = .a) (h16 : c.grp.dsp.toNat % 16 = 0)
    (hout : recStash c.kern.record < c.grp.dsp.toNat + 16) : execDpush s = .next (c.traps s PROT (ownVa c.grp.dsp.toNat)) :=
  issue_trap h (by simp [ha, h16, hout])

/-- A shadow counts the block and writes no entry (R97, R285). -/
theorem execDpush_shadow (h : Issuing .dpush c s) (ha : c.slot = .a) (h16 : c.grp.dsp.toNat % 16 = 0)
    (hin : c.grp.dsp.toNat + 16 ≤ recStash c.kern.record) (hsh : c.g.sh = true)
    (hu : countUnits c s [.stash c.team.sid c.grp.dsp.toNat (ownVa c.grp.dsp.toNat)] = .ok t) :
    execDpush s = .next (c.past (c.mod t Group.pushed)) := by
  refine issue_ok h ?_
  simp only [ha, h16, Nat.not_lt.2 hin, hsh, hu, bne_self_eq_false, ne_eq, not_true_eq_false, Bool.false_eq_true, if_false, if_true]
  rfl

/-- A leader writes the entry at DSP. -/
theorem execDpush_leader (h : Issuing .dpush c s) (ha : c.slot = .a) (h16 : c.grp.dsp.toNat % 16 = 0)
    (hin : c.grp.dsp.toNat + 16 ≤ recStash c.kern.record) (hsh : c.g.sh = false)
    (hp : p = .stash c.team.sid c.grp.dsp.toNat (ownVa c.grp.dsp.toNat)) (hfree : s.heldBlock c.g p = none)
    (hu : countUnits c s [p] = .ok t) : execDpush s = .next (c.past (c.mod
      (holdStores c (t.fillPlaces [p]) [(p, c.grp.pushEntry (s.freeBytes 12))]) Group.pushed)) := by
  subst hp
  refine issue_ok h ?_
  simp only [ha, h16, Nat.not_lt.2 hin, hsh, hfree, hu, bne_self_eq_false, ne_eq, not_true_eq_false, Bool.false_eq_true, if_false]
  rfl

end Push

/-! ### `dpop` (R105) -/

section Pop

theorem execDpop_illop (h : Issuing .dpop c s) (hn : c.slot ≠ .a ∨ c.grp.blive = true) : execDpop s = .next (c.traps s ILLOP 0) :=
  issue_trap h (if_pos (by simpa using hn))

theorem execDpop_align (h : Issuing .dpop c s) (ha : c.slot = .a) (hb : c.grp.blive = false) (h16 : c.grp.dsp.toNat % 16 ≠ 0) :
    execDpop s = .next (c.traps s ALIGN (ownVa c.grp.dsp.toNat)) :=
  issue_trap h (by simp [ha, hb, h16])

theorem execDpop_empty (h : Issuing .dpop c s) (ha : c.slot = .a) (hb : c.grp.blive = false) (h0 : c.grp.dsp.toNat = 0) :
    execDpop s = .next (c.traps s PROT (ownVa 0)) :=
  issue_trap h (by simp [ha, hb, h0])

/-- A `dpop` that passes the checks of DSP: slot B is free, and the entry below DSP lies in the stash (R105; log entry 49). -/
structure PopsEntry (c : Ctx) (s : State) : Prop where
  issuing : Issuing .dpop c s
  slotA : c.slot = .a
  bFree : c.grp.blive = false
  aligned : c.grp.dsp.toNat % 16 = 0
  above : 16 ≤ c.grp.dsp.toNat
  inStash : c.grp.dsp.toNat ≤ recStash c.kern.record

/-- A valid entry restarts slot B. -/
theorem Group.popped_valid (g : Group) (pc : W64) {mv : W64} (hv : mv.getLsbD 32 = true) : g.popped pc mv =
    { ({ g with dsp := g.dsp - 16 } : Group).setS 31 ((mv.setWidth 32).setWidth 64) with
      pcB := { hdr := pc.setWidth 57 }, blive := true } := if_pos hv

theorem Group.popped_invalid (g : Group) (pc : W64) {mv : W64} (hv : mv.getLsbD 32 = false) :
    g.popped pc mv = { g with dsp := g.dsp - 16 } := if_neg (ne_true_of_eq_false hv)

/-- A leader reads the entry, and restarts slot B from a valid one (R105). -/
theorem PopsEntry.exec_leader (h : PopsEntry c s) (hsh : c.g.sh = false)
    (hp : p = .stash c.team.sid (c.grp.dsp.toNat - 16) (ownVa (c.grp.dsp.toNat - 16))) (hfree : s.heldBlock c.g p = none)
    (hsane : s.Sane p) {e : List Byte} (he : e = (s.fillPlaces [p]).loadBytes c.g c.grp c.core p 16) :
    execDpop s = .next (if (dword e 8).getLsbD 32 = true ∧ (dword e 0).toNat % 4 ≠ 0 then c.traps s ALIGN (dword e 0)
      else c.past (c.mod (passSide c (s.fillPlaces [p]) [dword e 0, dword e 8]) fun g => g.popped (dword e 0) (dword e 8))) := by
  obtain ⟨hi, ha, hb, h16, hlo, hhi⟩ := h
  have hsound : (s.fillPlaces [p]).placePoisoned p = false := (State.sane_fillPlaces (ps := [p]) (by simpa using hsane) hsane).1
  subst hp he
  split
  · next hbad =>
    refine issue_trap hi ?_
    simp [ha, hb, h16, Nat.not_lt.2 hlo, Nat.not_lt.2 hhi, hsh, hfree, hsound, hbad]
  · next hgood =>
    refine issue_ok hi ?_
    simp only [ha, hb, h16, Nat.not_lt.2 hlo, Nat.not_lt.2 hhi, hsh, hfree, hsound]
    simpa using hgood

/-- A shadow takes two values that its leader has passed. -/
theorem takeSide_two {ld : Group} {x y : W64} {rest : List W64} (hg : s.group? c.g.leader = some ld) (hs : ld.side = x :: y :: rest) :
    takeSide c s 2 = .ok (s.modGroup c.g.leader fun g => { g with side := g.side.drop 2 }, [x, y]) := by
  simp [takeSide, hg, hs]

/-- A shadow takes the entry that its leader has read (R97; log entry 50). -/
theorem PopsEntry.exec_shadow (h : PopsEntry c s) (hsh : c.g.sh = true) {ld : Group} {x y : W64} {rest : List W64}
    (hg : s.group? c.g.leader = some ld) (hs : ld.side = x :: y :: rest) : execDpop s = .next (c.past (c.mod
      (s.modGroup c.g.leader fun g => { g with side := g.side.drop 2 }) fun g => g.popped x y)) := by
  obtain ⟨hi, ha, hb, h16, hlo, hhi⟩ := h
  refine issue_ok hi ?_
  simp [ha, hb, h16, Nat.not_lt.2 hlo, Nat.not_lt.2 hhi, hsh, takeSide_two hg hs, bind, Except.bind]

end Pop

/-- Settles O8: one lemma for each outcome of each of the four instructions, and the fields that `Group.merge` leaves. -/
theorem divergence : Obligations.Divergence := by
  rintro s t c i off p rfl
  refine ⟨fun hh => ⟨fun h => execSplit_illop h (.inl hh), fun h => execJoin_handler h hh⟩, fun hh h => ?_, fun hh h =>
    ⟨execJoin_alone h hh, execJoin_parks h hh, fun hb ho => ⟨execJoin_merges h hh hb ho, ?_⟩⟩, fun h hp =>
    ⟨execDpush_illop h, execDpush_align h, execDpush_prot h, fun ha h16 hin hsh hu => ?_, fun ha h16 hin hsh hfree hu => ?_⟩,
    fun h hp => ⟨execDpop_illop h, execDpop_align h, execDpop_empty h, fun e u ha hb h16 hlo hhi hsh hfree hsane he hu => ?_,
      fun ld x y rest ha hb h16 hlo hhi hsh hg hs => PopsEntry.exec_shadow ⟨h, ha, hb, h16, hlo, hhi⟩ hsh hg hs⟩⟩
  · cases hb : c.grp.blive with
    | true => exact execSplit_illop h (.inr hb)
    | false => exact execSplit_free h hh hb
  · rintro _ rfl
    exact c.grp.merge_fields c.slot
  · exact execDpush_shadow h ha h16 hin hsh (hp ▸ countUnits_of hu)
  · exact ⟨s.freeBytes 12, by simp [State.freeBytes], execDpush_leader h ha h16 hin hsh hp hfree (countUnits_of hu)⟩
  · subst hu
    refine (PopsEntry.exec_leader ⟨h, ha, hb, h16, hlo, hhi⟩ hsh hp hfree hsane he).trans ?_
    cases hv : (dword e 8).getLsbD 32 with
    | false =>
      simp only [Group.popped_invalid _ _ hv, Bool.false_eq_true, false_and, if_false]
      rfl
    | true =>
      simp only [Group.popped_valid _ _ hv, true_and, if_true]
      rfl

end Sys2Proof.Machine
end

section
/-! SUPPORT. The shuffles, and the exchange of lanes between groups (R110, R111, R288). -/

namespace Sys2Proof.Machine

open Sys2Proof

section Shuffles

variable {s : State} {c : Ctx} {d a b n : BitVec 8} {src : Nat → Nat} {i : Instr} {x : W64} {k : Nat} {tg : Group}

/-! ### Shuffles (R110) -/

/-- A lane of EM takes from a dead lane. -/
def Ctx.takesDead (c : Ctx) (src : Nat → Nat) : Bool := (lanesOf c.em).any fun k => c.grp.dead.getLsbD (src k)

theorem Ctx.takesDead_iff : c.takesDead src = true ↔ ∃ k < 32, c.em.getLsbD k = true ∧ c.grp.dead.getLsbD (src k) = true := by
  simp [Ctx.takesDead, and_assoc]

/-- What a shuffle writes: the lanes taken, 0 from a dead lane, under U where every lane that is alive takes one value (R110, R116). -/
theorem shuffle_eq (c : Ctx) (s : State) (d a : BitVec 8) (src : Nat → Nat) : shuffle c s d a src = .ok (c.mod s fun g =>
    let g1 := g.resultV d c.em (if (c.v a).tag = .u ∧ c.takesDead src = false ∧ c.em = ~~~ c.grp.dead then .u else .g)
      (Lanes.of fun k => if c.grp.dead.getLsbD (src k) then 0 else (c.v a).l.lane (src k))
    { g1 with deadSrc := g1.deadSrc || c.takesDead src }) := by
  simp [shuffle, Ctx.takesDead, and_assoc]

/-- The shuffles, each with the lane that a lane of its result takes. -/
def Shuffles (i : Instr) (c : Ctx) (d a b n : BitVec 8) (src : Nat → Nat) : Prop :=
  (i = .shfl d a b ∧ src = fun k => ((c.v b).l.lane k).toNat % 32) ∨ (i = .shflx d a n ∧ src = fun k => k ^^^ n.toNat) ∨
    (i = .shflu d a n ∧ src = fun k => if k < n.toNat then k else k - n.toNat) ∨
    (i = .shfld d a n ∧ src = fun k => if 31 < k + n.toNat then k else k + n.toNat)

theorem Shuffles.exec_eq (hi : Shuffles i c d a b n src) (h : Issuing i c s) {t : State} (ht : shuffle c s d a src = .ok t) :
    exec i s = .next (c.past t) := by
  obtain ⟨rfl, rfl⟩ | ⟨rfl, rfl⟩ | ⟨rfl, rfl⟩ | ⟨rfl, rfl⟩ := hi
  all_goals exact issue_ok h ht

/-! ### Exchange between groups (R111) -/

theorem laneTarget_outside (h : 32 ≤ x.toNat ∨ c.team.groups.length ≤ x.toNat) : laneTarget c x = .error (.trap RANK x) :=
  if_neg (by simp; omega)

theorem laneTarget_group (hx : x.toNat = k) (hk : k < 32) (hg : c.team.groups[k]? = some tg) : laneTarget c x = .ok k := by
  have hlen : k < c.team.groups.length := (List.getElem?_eq_some_iff.1 hg).1
  subst hx
  exact if_pos (by simp [hk, hlen])

theorem execRdlane_rank (h : Issuing (.rdlane d a n) c s) (hx : 32 ≤ (c.s a).toNat ∨ c.team.groups.length ≤ (c.s a).toNat) :
    execRdlane d a n s = .next (c.traps s RANK (c.s a)) :=
  issue_trap h (by rw [laneTarget_outside hx]; rfl)

theorem execWrlane_rank (h : Issuing (.wrlane d a n) c s) (hx : 32 ≤ (c.s a).toNat ∨ c.team.groups.length ≤ (c.s a).toNat) :
    execWrlane d a n s = .next (c.traps s RANK (c.s a)) :=
  issue_trap h (by rw [laneTarget_outside hx]; rfl)

/-- The lanes of register `r` of a group as `rdlane` takes them: 0 where the lane is dead there. -/
def Group.readableLanes (g : Group) (r : Nat) : Lanes := Lanes.of fun j => if g.dead.getLsbD j then 0 else (g.v[r]?.getD {}).l.lane j

/-- A leader reads the target group at its issue, and passes on whether a lane there is dead (R111; log entries 32 and 50). -/
theorem execRdlane_leader (h : Issuing (.rdlane d a n) c s) (hl : c.g.sh = false) (hx : (c.s a).toNat = k) (hk : k < 32)
    (hg : c.team.groups[k]? = some tg) (hr : c.RoomA s) : execRdlane d a n s = .next (c.past (c.mod (passSide c
      (if c.em = 0 then c.noneA s else c.opA s [.vec d c.em (tg.readableLanes n.toNat) .g] .ready false)
      [if tg.dead &&& c.em = 0 then 0 else 1]) fun g => { g with deadSrc := g.deadSrc || (tg.dead &&& c.em != 0) })) := by
  have hclass : classA c s (fun s => if c.em = 0 then instantA c s
      else issueA c s [.vec d c.em (tg.readableLanes n.toNat) .g] .ready false) =
      .ok (if c.em = 0 then c.noneA s else c.opA s [.vec d c.em (tg.readableLanes n.toNat) .g] .ready false) := by
    rw [classA, hl, if_neg Bool.false_ne_true, instantA_room hr, issueA_room hr]
    split <;> rfl
  have hhit : ((if tg.dead &&& c.em = 0 then 0 else 1 : W64) != 0) = (tg.dead &&& c.em != 0) := by
    by_cases h0 : tg.dead &&& c.em = 0
    · rw [if_pos h0, h0]
      rfl
    · rw [if_neg h0]
      exact (bne_iff_ne.2 h0).symm
  refine issue_ok h ?_
  simp only [laneTarget_group hx hk hg, hg, Option.getD_some, bind, Except.bind]
  simp only [Group.readableLanes] at hclass
  rw [hclass]
  simp only [readPassed, hl, Bool.false_eq_true, if_false, hhit, Group.readableLanes]

/-- A leader's `wrlane` is held with the task, and signs what it sends (R111, R288). -/
theorem execWrlane_leader (h : Issuing (.wrlane d a n) c s) (hl : c.g.sh = false) (hx : (c.s a).toNat = k) (hk : k < 32)
    (hg : c.team.groups[k]? = some tg) (hr : c.RoomB s) : execWrlane d a n s = .next (c.past (signData c (sign c
      (if c.em = 0 then s else c.held s fun op => .wrlane k n.toNat c.em (c.v d).l op) [c.s a]) c.em (c.v d))) := by
  refine issue_ok h ?_
  simp only [laneTarget_group hx hk hg, bind, Except.bind, classB, hl, Bool.false_eq_true, if_false, instantB_room hr, defer_room hr]
  by_cases he : c.em = 0
  · simp only [if_pos he]
  · simp only [if_neg he]

end Shuffles

/-- Settles O11: the shuffles through the one operation that they share (`shuffle_eq`), `rdlane` and `wrlane` of a leader through the
group that they name (`laneTarget`). -/
theorem shufflesAndLanes : Obligations.ShufflesAndLanes := by
  refine ⟨?_, fun s c d a n k tg hl => ⟨fun hx => ⟨fun h => execRdlane_rank h hx, fun h => execWrlane_rank h hx⟩,
    fun hx hk hg => ⟨fun h hr => execRdlane_leader h hl hx hk hg hr, fun h hr => execWrlane_leader h hl hx hk hg hr⟩⟩⟩
  rintro s c d a b n x rfl i src hi h
  exact ⟨c.takesDead src, Ctx.takesDead_iff, Shuffles.exec_eq hi h (shuffle_eq c s d a src)⟩

end Sys2Proof.Machine
end

section
/-! SUPPORT. Reductions, scans and `mcount` (R44, R112, R113). -/

namespace Sys2Proof.Machine

open Sys2Proof

/-! ### Counts of bits -/

/-- The set bits among the low `n` bits are counted. -/
theorem popc_eq_count (x n : Nat) : popc x n = Nat.count (fun k => x.testBit k = true) n := by
  induction n with
  | zero => rfl
  | succ n ih => rw [popc, ih, Nat.count_succ]

theorem length_filter_range_eq_count (p : Nat → Bool) (n : Nat) : ((List.range n).filter p).length = Nat.count (fun k => p k = true) n := by
  induction n with
  | zero => rfl
  | succ n ih =>
    rw [List.range_succ, List.filter_append, List.length_append, ih, Nat.count_succ]
    cases h : p n <;> simp [h]

/-- Bit `k` of a value is set and stands above place `i`. -/
def bitAbove (x i k : Nat) : Bool := x.testBit k && decide (i < k)

/-- Of a value of 32 bits, the bits below place `i`. -/
theorem popc_below {x : Nat} (i : Nat) :
    popc (x % 2 ^ i) 32 = ((List.range 32).filter fun k => x.testBit k && decide (k < i)).length := by
  rw [popc_eq_count, length_filter_range_eq_count]
  congr 1
  funext k
  simp [Nat.testBit_mod_two_pow, and_comm]

/-- Of a value of 32 bits, the bits above place `i`. -/
theorem popc_above {x : Nat} (hx : x < 2 ^ 32) (i : Nat) :
    popc (x / 2 ^ (i + 1)) 32 = ((List.range 32).filter fun k => x.testBit k && decide (i < k)).length := by
  have hhigh (k : Nat) (hk : 32 ≤ k) : x.testBit k = false :=
    Nat.testBit_lt_two_pow (hx.trans_le (Nat.pow_le_pow_right (by decide) hk))
  have hlow : Nat.count (fun k => bitAbove x i k = true) (i + 1) = 0 :=
    Nat.count_iff_forall_not.2 fun k hk => by simp [bitAbove]; omega
  have hout : Nat.count (fun k => bitAbove x i (32 + k) = true) (i + 1) = 0 :=
    Nat.count_iff_forall_not.2 fun k _ => by simp [bitAbove, hhigh (32 + k) (by omega)]
  have hshift (k : Nat) : bitAbove x i (i + 1 + k) = (x / 2 ^ (i + 1)).testBit k := by
    have hlt : i < i + 1 + k := by omega
    simp [bitAbove, Nat.testBit_div_two_pow, hlt, Nat.add_comm k]
  calc popc (x / 2 ^ (i + 1)) 32
      = Nat.count (fun k => bitAbove x i (i + 1 + k) = true) 32 := by simp only [popc_eq_count, hshift]
    _ = Nat.count (fun k => bitAbove x i k = true) (i + 1 + 32) := by rw [Nat.count_add, hlow, Nat.zero_add]
    _ = Nat.count (fun k => bitAbove x i k = true) (32 + (i + 1)) := by rw [Nat.add_comm]
    _ = Nat.count (fun k => bitAbove x i k = true) 32 := by rw [Nat.count_add, hout, Nat.add_zero]
    _ = ((List.range 32).filter fun k => x.testBit k && decide (i < k)).length := (length_filter_range_eq_count _ 32).symm

/-! ### Running values (R44, R113) -/

section Running

variable (k : Nat) (m : BitVec 16) (f : Nat → W32)

/-- There is one running value for each lane. -/
theorem running_map_fst (is : List Nat) (acc : Option W32) : (running k m f is acc).map (·.1) = is := by
  induction is generalizing acc with
  | nil => rfl
  | cons i is ih => simp [running, ih]

theorem running_ne_nil {is : List Nat} (h : is ≠ []) (acc : Option W32) : running k m f is acc ≠ [] := by
  intro h0
  have := running_map_fst k m f is acc
  rw [h0] at this
  exact h this.symm

/-- After the first lane, each lane is combined with the value so far. -/
theorem running_getLast?_snoc (i j : Nat) (is : List Nat) (acc : Option W32) :
    (running k m f (is ++ [i, j]) acc).getLast?.map (·.2) =
      ((running k m f (is ++ [i]) acc).getLast?.map (·.2)).map fun v => combine k m v (f j) := by
  induction is generalizing acc with
  | nil => simp [running]
  | cons x is ih =>
    have h1 : ∀ acc, running k m f (is ++ [i, j]) acc ≠ [] := running_ne_nil k m f (by simp)
    have h2 : ∀ acc, running k m f (is ++ [i]) acc ≠ [] := running_ne_nil k m f (by simp)
    simp only [List.cons_append, running]
    rw [List.getLast?_cons_of_ne_nil (h1 _), List.getLast?_cons_of_ne_nil (h2 _), ih]

end Running

/-! ### The instructions (R112, R113) -/

section Reductions

variable {s : State} {c : Ctx} {d a f : BitVec 8} {k : Nat} {i : Instr}

/-- The value of a reduction of the lanes of EM (R112). -/
def Ctx.reduced (c : Ctx) (k : Nat) (a : BitVec 8) : W32 :=
  ((running k c.grp.gmode (c.v a).l.lane (lanesOf c.em) none).getLast?.map (·.2)).getD (emptyRed k c.grp.gmode)

/-- A reduction goes to a scalar, or to every lane of EM of a vector. -/
theorem reduce_ok (h : Issuing i c s) : reduce k i d a s = .next (if 0xD0 ≤ d.toNat ∧ d.toNat < 0xF0
    then c.scal s d ((c.reduced k a).setWidth 64)
    else c.vect s d (if c.em = ~~~ c.grp.dead then .u else .g) fun _ => c.reduced k a) := by
  split
  · next hd => exact issue_ok h (if_pos (by simpa using hd))
  · next hd =>
    refine issue_ok h ((if_neg (by simpa using hd)).trans ?_)
    simp only [beq_iff_eq]
    rfl

/-- The reductions by their numbers. -/
theorem exec_reduction (hi : (k = 0 ∧ i = .lsum d a) ∨ (k = 1 ∧ i = .lmax d a) ∨ (k = 2 ∧ i = .lmin d a)) :
    exec i s = reduce k i d a s := by
  obtain ⟨rfl, rfl⟩ | ⟨rfl, rfl⟩ | ⟨rfl, rfl⟩ := hi <;> rfl

/-- `mcount` counts the bits of S[a] below or above each lane. -/
theorem execMcount_counts (h : Issuing (.mcount d a f) c s) : execMcount d a f s = .next (c.vect s d .g fun i => BitVec.ofNat 32
    (((List.range 32).filter fun k => (c.s a).getLsbD k && (if f = 0 then decide (k < i) else decide (i < k))).length)) := by
  have hx : (c.s a).toNat % 2 ^ 32 < 2 ^ 32 := Nat.mod_lt _ (by decide)
  have hbit (p : Nat → Bool) : ((List.range 32).filter fun k => ((c.s a).toNat % 2 ^ 32).testBit k && p k) =
      (List.range 32).filter fun k => (c.s a).getLsbD k && p k := by
    refine List.filter_congr fun k hk => ?_
    rw [Nat.testBit_mod_two_pow, BitVec.testBit_toNat]
    simp [List.mem_range.1 hk]
  refine (issue_ok h rfl).trans ?_
  by_cases hf : f = 0
  · simp only [if_pos hf, popc_below, hbit]
    rfl
  · simp only [if_neg hf, popc_above hx, hbit]
    rfl

end Reductions

/-- Settles O12: the three reductions through `reduce`, `mcount` through counts of bits, and the running values by induction on the
lanes. -/
theorem reductionsAndScans : Obligations.ReductionsAndScans := by
  refine ⟨?_, fun k m f i j is => ⟨rfl, running_getLast?_snoc k m f i j is none, rfl⟩⟩
  rintro s c d a f m x rfl rfl
  exact ⟨fun k i hi h => ⟨c.reduced k a, rfl, (exec_reduction hi).trans (reduce_ok h)⟩, fun h => issue_ok h rfl, execMcount_counts⟩

end Sys2Proof.Machine
end

section
/-! SUPPORT. Swaps of groups, the exit of a group, and the return of an operation (R51 to R53, R82, R88, R99, R228). -/

namespace Sys2Proof.Machine

open Sys2Proof

/-! ### The candidate that has been ready longest (R99) -/

section Longest

variable {s : State} {l : List (GRef × Group)} {p q : GRef × Group}

/-- One step of the choice: a candidate that has been ready longer takes the place of the best so far. -/
def State.pickOlder (s : State) (best : Option (GRef × Group)) (p : GRef × Group) : Option (GRef × Group) :=
  if s.swapCandidate p.1 p.2 then
    match best with
    | none => some p
    | some q => if p.2.readySince < q.2.readySince then some p else best
  else best

theorem State.longest_eq (s : State) (core sub : Nat) :
    s.longest core sub = ((s.onSub core sub).foldl s.pickOlder none).map (·.1) := rfl

/-- `q` is a candidate among `l`, and none of `l` has been ready longer. -/
structure State.Oldest (s : State) (l : List (GRef × Group)) (q : GRef × Group) : Prop where
  mem : q ∈ l
  candidate : s.swapCandidate q.1 q.2 = true
  oldest : ∀ p ∈ l, s.swapCandidate p.1 p.2 = true → q.2.readySince ≤ p.2.readySince

/-- What the best so far says of the list that has been looked through. -/
def State.BestOf (s : State) (l : List (GRef × Group)) : Option (GRef × Group) → Prop
  | none => ∀ p ∈ l, s.swapCandidate p.1 p.2 = false
  | some q => s.Oldest l q

/-- A group that is no candidate does not change the choice. -/
theorem State.BestOf.snoc_skip {best : Option (GRef × Group)} (h : s.BestOf l best) (hp : s.swapCandidate p.1 p.2 = false) :
    s.BestOf (l ++ [p]) best := by
  cases best with
  | none => simpa [State.BestOf, or_imp, forall_and, hp] using h
  | some q =>
    obtain ⟨hmem, hcand, hold⟩ := h
    refine ⟨List.mem_append_left _ hmem, hcand, fun r hr hc => ?_⟩
    obtain hr | hr := List.mem_append.1 hr
    · exact hold r hr hc
    · obtain rfl := List.mem_singleton.1 hr
      simp [hp] at hc

/-- A candidate is compared with the best so far. -/
theorem State.BestOf.snoc_candidate {best : Option (GRef × Group)} (h : s.BestOf l best) (hp : s.swapCandidate p.1 p.2 = true) :
    s.BestOf (l ++ [p]) (s.pickOlder best p) := by
  have hmem : p ∈ l ++ [p] := by simp
  cases best with
  | none =>
    have hpick : s.pickOlder none p = some p := by simp [State.pickOlder, hp]
    rw [hpick]
    refine ⟨hmem, hp, fun r hr hc => ?_⟩
    obtain hr | hr := List.mem_append.1 hr
    · simp [h r hr] at hc
    · obtain rfl := List.mem_singleton.1 hr
      exact Nat.le_refl _
  | some q =>
    obtain ⟨hq, hcand, hold⟩ := h
    by_cases hlt : p.2.readySince < q.2.readySince
    · have hpick : s.pickOlder (some q) p = some p := by simp [State.pickOlder, hp, hlt]
      rw [hpick]
      refine ⟨hmem, hp, fun r hr hc => ?_⟩
      obtain hr | hr := List.mem_append.1 hr
      · exact hlt.le.trans (hold r hr hc)
      · obtain rfl := List.mem_singleton.1 hr
        exact Nat.le_refl _
    · have hpick : s.pickOlder (some q) p = some q := by simp [State.pickOlder, hp, hlt]
      rw [hpick]
      refine ⟨List.mem_append_left _ hq, hcand, fun r hr hc => ?_⟩
      obtain hr | hr := List.mem_append.1 hr
      · exact hold r hr hc
      · obtain rfl := List.mem_singleton.1 hr
        exact Nat.not_lt.1 hlt

theorem State.bestOf_foldl (s : State) (l : List (GRef × Group)) : s.BestOf l (l.foldl s.pickOlder none) := by
  induction l using List.reverseRecOn with
  | nil => exact fun p hp => nomatch hp
  | append_singleton l p ih =>
    rw [List.foldl_append, List.foldl_cons, List.foldl_nil]
    cases hp : s.swapCandidate p.1 p.2 with
    | true => exact ih.snoc_candidate hp
    | false =>
      have hpick : s.pickOlder (l.foldl s.pickOlder none) p = l.foldl s.pickOlder none := by simp [State.pickOlder, hp]
      rw [hpick]
      exact ih.snoc_skip hp

/-- The group that GROUP_SWAP lets in is the candidate of its sub-core that has been ready longest. -/
theorem State.longest_oldest {core sub : Nat} {i : GRef} (h : s.longest core sub = some i) :
    ∃ g, s.Oldest (s.onSub core sub) (i, g) := by
  rw [State.longest_eq] at h
  obtain ⟨⟨j, g⟩, hq, rfl⟩ := Option.map_eq_some_iff.1 h
  have hbest := s.bestOf_foldl (s.onSub core sub)
  rw [hq] at hbest
  exact ⟨g, hbest⟩

end Longest

/-! ### GROUP_SWAP (R88, R99) -/

section Swap

variable {s : State} {core sub : Nat} {i r : GRef} {g : Group}

/-- There is room in the active set. -/
theorem execGroupSwap_room (hin : s.input = some (.groupSwap core sub none)) (hl : s.longest core sub = some i)
    (hroom : ((s.onSub core sub).filter fun p => p.2.inSet).length < 8) : execGroupSwap s = .next (s.modGroup i Group.swapIn) :=
  eventStep_ok hin (by simp [State.groupSwap, hl, hroom])

/-- A member of the active set gives way: it is not ready, or it yields between clauses. -/
theorem execGroupSwap_replaces (hin : s.input = some (.groupSwap core sub (some r))) (hl : s.longest core sub = some i)
    (hg : s.group? r = some g) (hon : (r, g) ∈ s.onSub core sub) (hset : g.inSet = true) (hact : g.life = .active)
    (hout : s.readyGroup r g = false ∨ g.yielded = true ∧ ∀ c, g.clause = some c → c.started = false) :
    execGroupSwap s = .next ((s.modGroup r fun h => h.swapOut (s.readyGroup r g) s.stepNo).modGroup i Group.swapIn) := by
  have hany : (s.onSub core sub).any (fun p => p.1 == r) = true := List.any_eq_true.2 ⟨(r, g), hon, beq_self_eq_true r⟩
  refine eventStep_ok hin ?_
  simp only [State.groupSwap, hl, hg, hany, hset, hact]
  refine if_pos ?_
  obtain hr | ⟨hy, hc⟩ := hout
  · simp [hr]
  · cases hcl : g.clause with
    | none => simp [hy]
    | some c => simp [hy, hc c hcl]

end Swap

/-! ### GROUP_EXIT_DRAIN (R82, R88, R228) -/

section Exit

variable {s u : State} {r : GRef} {g : Group} {t v : Team}

/-- A group that may exit: no live slot, its last task committed, nothing outstanding, and its team runs (R88). -/
structure MayExit (s : State) (r : GRef) (t : Team) (g : Group) : Prop where
  team : s.team? r.team = some t
  group : s.group? r = some g
  slotA : g.alive = false
  slotB : g.blive = false
  life : g.life ≠ .exited
  committed : g.bnd ≠ .waiting
  ops : g.ops = []
  queue : g.mq = []
  noTrap : g.deferredTrap = none
  notEnded : t.ended = false
  running : t.ctx = .running

/-- The group exits, the stores that it has observed at their homes; the last group of a team ends it. -/
theorem MayExit.exec_eq (h : MayExit s r t g) (hin : s.input = some (.groupExitDrain r))
    (hu : u = (s.publish r.leader t.core 3).modGroup r fun g => { g with life := .exited, inSet := false, clause := none, wait := .none })
    (hv : u.team? r.team = some v) : execGroupExitDrain s =
      .next (if (v.groups ++ v.shadows).all fun g => g.life == .exited then u.endTeam r.team else u) := by
  obtain ⟨hteam, hgroup, hA, hB, hlife, hbnd, hops, hmq, htrap, hend, hctx⟩ := h
  have hon : t.onCore = true := by simp [Team.onCore, hend, hctx]
  subst hu
  refine eventStep_ok hin ?_
  simp only [State.groupExit, hteam, hgroup]
  rw [if_pos (by simp [hA, hB, hlife, hbnd, hops, hmq, htrap, hon]), hv]
  simp only
  split <;> rfl

end Exit

/-! ### OPERATION_COMPLETION (R51 to R53) -/

section Return

variable {s : State} {r : GRef} {g : Group} {o : Op} {lanes : W32}

theorem execOperationCompletion_ready (hin : s.input = some (.operationCompletion r o.id lanes)) (hg : s.group? r = some g)
    (ho : g.op? o.id = some o) (hw : o.what = .ready) : execOperationCompletion s = .next (s.opReturn r o lanes) :=
  eventStep_ok hin (by simp [State.opComplete, hg, ho, hw])

/-- An operation that returns some lanes of its one vector destination writes those, and stays outstanding (R53). -/
theorem State.opReturn_some {code : BitVec 8} {m : W32} {l : Lanes} {tag : Tag} (hd : o.dest = [.vec code m l tag])
    (hc : o.coveredBy lanes = false) : s.opReturn r o lanes =
      s.modGroup r fun g => (g.settleLanes o.id lanes).receive lanes (.vec code m l .g) := by
  simp [State.opReturn, hc, Group.modDest, hd]

/-- The data of an operation written to its destinations, and into the checkpoint where they belong to it (R53, R284). -/
def Group.delivered (g : Group) (o : Op) : Group :=
  o.dest.foldl (fun g d => let g := g.receive (-1) d; if o.ck then g.putCkpt d else g) g

/-- An operation gives up to a later one, `o`, the destinations that both write (R53). -/
def Op.giveWay (o x : Op) : Op :=
  if x.id < o.id then { x with dest := o.dest.foldl (fun ds d => ds.filterMap (Deliver.without d)) x.dest } else x

@[simp] theorem Op.giveWay_id (o x : Op) : (o.giveWay x).id = x.id := by unfold Op.giveWay; split <;> rfl
@[simp] theorem Op.giveWay_flag (o x : Op) : (o.giveWay x).flag = x.flag := by unfold Op.giveWay; split <;> rfl

theorem Group.receive_scal (g : Group) (lanes : W32) (n : Nat) (v : W64) : g.receive lanes (.scal n v) = g.setS n v := rfl

theorem Group.setVreg_ops (g : Group) (code : BitVec 8) (x : VReg) : (g.setVreg code x).ops = g.ops := by
  unfold Group.setVreg
  repeat' split
  all_goals rfl

theorem Group.receive_ops (g : Group) (lanes : W32) (d : Deliver) : (g.receive lanes d).ops = g.ops := by
  cases d with
  | scal n v => rw [Group.receive_scal, Group.setS_ops]
  | vec code m l tag =>
    unfold Group.receive
    dsimp only
    split
    · rfl
    · exact g.setVreg_ops code _

theorem Group.putCkpt_frame (g : Group) (d : Deliver) : ∃ k0 k1, g.putCkpt d = g.withCkpts k0 k1 := by
  unfold Group.putCkpt
  split <;> exact ⟨_, _, rfl⟩

theorem Group.delivered_ops (g : Group) (o : Op) : (g.delivered o).ops = g.ops := by
  unfold Group.delivered
  induction o.dest generalizing g with
  | nil => rfl
  | cons d l ih =>
    rw [List.foldl_cons, ih]
    dsimp only
    split
    · obtain ⟨k0, k1, h⟩ := (g.receive (-1) d).putCkpt_frame d
      rw [h]
      exact g.receive_ops _ d
    · exact g.receive_ops _ d

/-- An operation with one destination writes that one. -/
theorem Group.delivered_one {d : Deliver} (hd : o.dest = [d]) :
    ∃ k0 k1, g.delivered o = (g.receive (-1) d).withCkpts k0 k1 := by
  simp only [Group.delivered, hd, List.foldl_cons, List.foldl_nil]
  split
  · exact (g.receive (-1) d).putCkpt_frame d
  · exact ⟨_, _, rfl⟩

/-- The other operations stay outstanding. -/
theorem Group.finish_ops (g : Group) (o : Op) : (g.finish o).ops = (g.ops.map o.giveWay).filter fun x => x.id != o.id := by
  rw [← g.delivered_ops o]
  rfl

theorem Group.finish_sreg (g : Group) (o : Op) (n : Nat) : (g.finish o).sreg n = (g.delivered o).sreg n := rfl
theorem Group.finish_vreg (g : Group) (o : Op) (code : BitVec 8) : (g.finish o).vreg code = (g.delivered o).vreg code := rfl

/-- The operation has left the group. -/
theorem Group.finish_removes (g : Group) (o : Op) : ∀ x ∈ (g.finish o).ops, x.id ≠ o.id := by
  intro x hx
  rw [Group.finish_ops] at hx
  simpa using List.of_mem_filter hx

/-- An operation that has left lowers the count of its flag by 1, and no other (R51). -/
theorem Group.finish_count (f : Nat) (h : (g.ops.filter fun x => x.id == o.id) = [o]) :
    (g.finish o).flagCount f + (if o.flag = some f then 1 else 0) = g.flagCount f := by
  have hrest : (g.finish o).flagCount f = (g.ops.filter fun x => !(x.id == o.id)).countP fun x => x.flag == some f := by
    simp only [Group.flagCount, Group.finish_ops, List.filter_map, List.length_map, List.countP_eq_length_filter, Function.comp_def,
      Op.giveWay_id, Op.giveWay_flag]
    rfl
  have hone : (g.ops.filter fun x => x.id == o.id).countP (fun x => x.flag == some f) = if o.flag = some f then 1 else 0 := by
    rw [h]
    by_cases hf : o.flag = some f <;> simp [hf]
  rw [hrest, Group.flagCount, ← List.countP_eq_length_filter,
    List.countP_eq_countP_filter_add g.ops (fun x => x.flag == some f) fun x => x.id == o.id, hone, Nat.add_comm]

/-- A scalar result is in its register (R53). -/
theorem Group.finish_scal {n : Nat} {v : W64} (hd : o.dest = [.scal n v]) {k : Nat} (hk : k < 32) :
    (g.finish o).sreg k = if k = n then v else g.sreg k := by
  obtain ⟨k0, k1, h⟩ := Group.delivered_one (g := g) hd
  rw [Group.finish_sreg, h, Group.withCkpts_sreg, Group.receive_scal, Group.setS_sreg]
  simp only [hk, and_true]

/-- A lane of a register built of lanes. -/
theorem Lanes.lane_of (f : Nat → W32) {k : Nat} (hk : k < 32) : (Lanes.of f).lane k = f k := by
  simp [Lanes.lane, Lanes.of, hk]

/-- A register within the allocation reads what was written to it. -/
theorem Group.vreg_setVreg {code : BitVec 8} (hlen : code.toNat < g.v.length) (hv : code.toNat < 0xC0) (x : VReg) :
    (g.setVreg code x).vreg code = x := by
  simp [Group.setVreg, Group.vreg, hv, modAt, hlen]

/-- Data of tag G fills the lanes that the operation writes and that are not dead (R53, R117). -/
theorem Group.receive_lane {code : BitVec 8} {m : W32} {l : Lanes} (hlen : code.toNat < g.v.length) (hv : code.toNat < 0xC0) {k : Nat}
    (hk : k < 32) : ((g.receive (-1) (.vec code m l .g)).vreg code).l.lane k =
      if m.getLsbD k = true ∧ g.dead.getLsbD k = false then l.lane k else (g.vreg code).l.lane k := by
  have hbit : (m &&& -1 &&& ~~~ g.dead).getLsbD k = (m.getLsbD k && !g.dead.getLsbD k) := by
    have hall : (-1 : W32) = BitVec.allOnes 32 := by decide
    rw [hall, BitVec.and_allOnes]
    simp [hk]
  unfold Group.receive
  dsimp only
  split
  · next h0 =>
    rw [h0] at hbit
    rw [if_neg]
    simpa using hbit.symm
  · rw [Group.vreg_setVreg hlen hv]
    simp only [VReg.write, bne_self_eq_false, Bool.and_false, Bool.false_eq_true, if_false, Lanes.merge, Lanes.lane_of _ hk, hbit]
    simp

theorem Group.finish_vec {code : BitVec 8} {m : W32} {l : Lanes} (hd : o.dest = [.vec code m l .g]) (hlen : code.toNat < g.v.length)
    (hv : code.toNat < 0xC0) {k : Nat} (hk : k < 32) : ((g.finish o).vreg code).l.lane k =
      if m.getLsbD k = true ∧ g.dead.getLsbD k = false then l.lane k else (g.vreg code).l.lane k := by
  obtain ⟨k0, k1, h⟩ := Group.delivered_one (g := g) hd
  rw [Group.finish_vreg, h, Group.withCkpts_vreg]
  exact Group.receive_lane hlen hv hk

end Return

/-- Settles O17: a swap through the oldest candidate (`State.Oldest`) and `Group.swapOut`, an exit through what lets a group exit
(`MayExit`), and a return through what `Group.finish` leaves of operations, flags and registers. -/
theorem swapsAndReturns : Obligations.SwapsAndReturns := by
  refine ⟨fun s core sub i r g t => ⟨fun hl => ?_, execGroupSwap_room, fun hin hl hg hon hset hact => ⟨fun hr => ?_, fun hr hy hc => ?_⟩,
    fun hin hteam hgroup hA hB hlife hbnd hops hmq htrap hend hctx u v hu hv =>
      MayExit.exec_eq ⟨hteam, hgroup, hA, hB, hlife, hbnd, hops, hmq, htrap, hend, hctx⟩ hin hu hv⟩, fun s r g o lanes hin hg ho hw => ?_⟩
  · obtain ⟨h, hmem, hcand, hold⟩ := State.longest_oldest hl
    exact ⟨h, hmem, hcand, hold⟩
  · refine (execGroupSwap_replaces hin hl hg hon hset hact (.inl hr)).trans ?_
    simp [Group.swapOut, hr]
  · refine (execGroupSwap_replaces hin hl hg hon hset hact (.inr ⟨hy, hc⟩)).trans ?_
    simp [Group.swapOut, hr]
  · have hret := execOperationCompletion_ready hin hg ho hw
    refine ⟨fun hc => hret.trans ?_, fun code m l tag hd hc => hret.trans ?_, g.finish_removes o, fun f hone => Group.finish_count f hone,
      fun n v hd k hk => Group.finish_scal hd hk, fun code m l hd hlen hv k hk => Group.finish_vec hd hlen hv hk⟩
    · rw [State.opReturn, if_pos hc]
    · rw [State.opReturn_some hd hc]

end Sys2Proof.Machine
end

section
/-! SUPPORT. What an instruction that writes one vector register leaves alone (R117, R119, R130). -/

namespace Sys2Proof.Machine

open Sys2Proof

/-! ### Registers after a vector result -/

section Registers

variable {g : Group} {code d : BitVec 8} {em : W32} {tag : Tag} {l : Lanes} {k : Nat}

@[simp] theorem Group.advance_vreg (g : Group) (code : BitVec 8) : g.advance.vreg code = g.vreg code := by simp [Group.vreg]

@[simp] theorem Group.setLatch_vreg (g : Group) (d : BitVec 8) (em : W32) : (g.setLatch d em).vreg code = g.vreg code := by
  unfold Group.setLatch
  split <;> rfl

/-- A register that the code does not name is as it was. -/
theorem Group.vreg_setVreg_other (h : code ≠ d) (x : VReg) : (g.setVreg d x).vreg code = g.vreg code := by
  have hne : d.toNat ≠ code.toNat := fun e => h (BitVec.eq_of_toNat_eq e.symm)
  unfold Group.setVreg
  split
  · simp [Group.vreg, modAt, List.getElem?_modify_ne _ _ hne]
  · split
    · have hidx (hc : ¬ code.toNat < 0xC0) : code.toNat - 0xC0 ≠ d.toNat - 0xC0 := by omega
      unfold Group.vreg
      split
      · rfl
      · next hc => simp [hidx hc]
    · rfl

/-- The register that the code names holds what was written, or is no register that a group has. -/
theorem Group.vreg_setVreg_same (g : Group) (d : BitVec 8) (x : VReg) :
    (g.setVreg d x).vreg d = x ∨ (g.setVreg d x).vreg d = g.vreg d := by
  by_cases hv : d.toNat < 0xC0
  · by_cases hlen : d.toNat < g.v.length
    · exact .inl (Group.vreg_setVreg hlen hv x)
    · right
      simp [Group.setVreg, Group.vreg, hv, modAt, Nat.le_of_not_lt hlen]
  · by_cases ho : d.toNat < 0xC8
    · left
      have hidx : d.toNat - 0xC0 < 8 := by omega
      simp [Group.setVreg, Group.vreg, hv, ho, hidx]
    · right
      simp [Group.setVreg, hv, ho]

/-- A write that is not full keeps the lanes outside its mask (R117). -/
theorem VReg.write_partial_lane (old : VReg) (hk : k < 32) (hm : em.getLsbD k = false) :
    (old.write false em tag l).l.lane k = old.l.lane k := by
  simp [VReg.write, Lanes.merge, Lanes.lane_of _ hk, hm]

theorem Group.resultV_vreg_other (h : code ≠ d) : (g.resultV d em tag l).vreg code = g.vreg code := by
  rw [Group.resultV, Group.setLatch_vreg, Group.writeV]
  split
  · rfl
  · exact Group.vreg_setVreg_other h _

theorem Group.resultV_partial_lane (he : em ≠ g.aliveLanes) (hk : k < 32) (hm : em.getLsbD k = false) :
    ((g.resultV d em tag l).vreg d).l.lane k = (g.vreg d).l.lane k := by
  rw [Group.resultV, Group.setLatch_vreg, Group.writeV]
  split
  · rfl
  · rw [beq_eq_false_iff_ne.2 he]
    obtain h | h := Group.vreg_setVreg_same g d ((g.vreg d).write false em tag l)
    · rw [h, VReg.write_partial_lane _ hk hm]
    · rw [h]

end Registers

/-! ### The frame -/

/-- What an instruction with vector destination `d` under effective mask `em` leaves of a group `g` in `g'`: every other register, the
lanes that a write that is not full does not name, and all but the latch and DEADSRC of the rest. -/
structure VectorWriteFrame (d : BitVec 8) (em : W32) (g g' : Group) : Prop where
  others : ∀ code, code ≠ d → g'.vreg code = g.vreg code
  length : g'.v.length = g.v.length
  lanes : em ≠ g.aliveLanes → ∀ k < 32, em.getLsbD k = false → (g'.vreg d).l.lane k = (g.vreg d).l.lane k
  body : { g'.body with v := g.v, o := g.o, latch := g.latch, deadSrc := g.deadSrc } = g.body

section Frame

variable {i : Instr} {s t : State} {c : Ctx} {d : BitVec 8} {em : W32} {g g' : Group}

theorem VectorWriteFrame.resultV (g : Group) (tag : Tag) (l : Lanes) : VectorWriteFrame d em g (g.resultV d em tag l) where
  others _ h := Group.resultV_vreg_other h
  length := g.resultV_length d em tag l
  lanes he _ hk hm := Group.resultV_partial_lane he hk hm
  body := by
    show { { g.resultV d em tag l with v := g.v, o := g.o, latch := g.latch } with deadSrc := g.deadSrc }.body = g.body
    rw [Group.resultV_frame]

theorem VectorWriteFrame.setDeadSrc (h : VectorWriteFrame d em g g') (b : Bool) :
    VectorWriteFrame d em g { g' with deadSrc := b } where
  others := h.others
  length := h.length
  lanes := h.lanes
  body := h.body

theorem VectorWriteFrame.advance (h : VectorWriteFrame d em g g') : VectorWriteFrame d em g g'.advance where
  others code hc := (g'.advance_vreg code).trans (h.others code hc)
  length := (congrArg List.length g'.advance_v).trans h.length
  lanes he k hk hm := by rw [Group.advance_vreg, h.lanes he k hk hm]
  body := by rw [Group.advance_body, h.body]

/-- The effect of such an instruction: a trap with no address, or a change of its own group within that frame. -/
def WritesVector (c : Ctx) (s : State) (d : BitVec 8) (x : Res) : Prop :=
  (∃ code, x = .error (.trap code)) ∨ ∃ f : Group → Group, x = .ok (c.mod s f) ∧ ∀ g, VectorWriteFrame d c.em g (f g)

/-- The issue of such an instruction: it traps, or changes its own group alone, within that frame. -/
theorem issue_writesVector {F : Ctx → State → Res} (h : Issuing i c s) (hF : WritesVector c s d (F c s)) :
    (∃ code, issue i s F = .next (c.traps s code 0)) ∨
      ∃ f : Group → Group, issue i s F = .next (s.modGroup c.g f) ∧ ∀ g, VectorWriteFrame d c.em g (f g) := by
  obtain ⟨code, hcode⟩ | ⟨f, hf, hframe⟩ := hF
  · exact .inl ⟨code, issue_trap h hcode⟩
  · exact .inr ⟨fun g => (f g).advance, by rw [issue_ok h hf, c.past_mod], fun g => (hframe g).advance⟩

theorem vecRes_writesVector (tag : Tag) (f : Nat → W32) : WritesVector c s d (vecRes c s d tag f) :=
  .inr ⟨_, rfl, fun g => .resultV g tag _⟩

theorem shuffle_writesVector (a : BitVec 8) (src : Nat → Nat) : WritesVector c s d (shuffle c s d a src) :=
  .inr ⟨_, rfl, fun g => (VectorWriteFrame.resultV g _ _).setDeadSrc _⟩

/-- An entry's own check traps, or the instruction goes on. -/
theorem WritesVector.ite {p : Prop} [Decidable p] {code : Nat} {x : Res} (h : WritesVector c s d x) :
    WritesVector c s d (if p then .error (.trap code) else x) := by
  split
  · exact .inl ⟨code, rfl⟩
  · exact h

/-- An element type outside the set of the instruction traps, or it goes on (R135). -/
theorem WritesVector.typed {ok : Nat → Bool} {x : Res} (h : WritesVector c s d x) : WritesVector c s d (typed c ok x) := by
  unfold Machine.typed
  split
  · exact h
  · exact .inl ⟨ILLOP, rfl⟩

/-- Each instruction that writes one vector register is an issue with such an effect. -/
theorem exec_of_vectorDst (hd : vectorDst i = some d) (s : State) :
    ∃ F : Ctx → State → Res, exec i s = issue i s F ∧ ∀ c, WritesVector c s d (F c s) := by
  cases i
  all_goals cases hd
  case shfl | shflx | shflu | shfld => exact ⟨_, rfl, fun c => shuffle_writesVector _ _⟩
  case mov | not | sel | swaph | perm | cvt | scan | mcount => exact ⟨_, rfl, fun c => vecRes_writesVector _ _⟩
  case cvtf => exact ⟨_, rfl, fun c => (vecRes_writesVector _ _).ite⟩
  case rcp | rsq | sqrt | div => exact ⟨_, rfl, fun c => (vecRes_writesVector _ _).ite.typed⟩
  all_goals exact ⟨_, rfl, fun c => (vecRes_writesVector _ _).typed⟩

end Frame

/-- Settles O14: each instruction is an issue whose effect traps or keeps the frame (`WritesVector`), through the operations that they
share: `vecRes`, `shuffle`, and the checks of an entry. -/
theorem vectorFrame : Obligations.VectorFrame := by
  intro s t c i d hd h ht
  obtain ⟨F, hF, heffect⟩ := exec_of_vectorDst hd s
  obtain ⟨code, hcode⟩ | ⟨f, hf, hframe⟩ := issue_writesVector h (heffect c)
  · exact .inl ⟨code, Host.Outcome.next.inj (ht.symm.trans (hF.trans hcode))⟩
  · obtain rfl := Host.Outcome.next.inj ((hF.trans hf).symm.trans ht)
    refine .inr ⟨f, rfl, s.sameBytes_modGroup _ _, fun g => ?_⟩
    obtain ⟨hothers, hlength, hlanes, hbody⟩ := hframe g
    exact ⟨hothers, hlength, hlanes, hbody⟩

end Sys2Proof.Machine
end

section
/-! SUPPORT. `vshape`, the system registers and literal pairs (R94, R121, R122, R128, R129; log entry 50). -/

namespace Sys2Proof.Machine

open Sys2Proof

/-! ### What is read -/

/-- What `vshape` answers, by the number of its function: the tag, lane 0, or the stride (R128). -/
theorem shapeOf_toNat (x : VReg) (f : BitVec 8) : shapeOf x f.toNat =
    if f = 0 then shapeOf x 0 else if f = 1 then (x.l.lane 0).setWidth 64
    else if x.tag = .a then (x.l.lane 1 - x.l.lane 0).setWidth 64 else 0 := by
  by_cases h0 : f = 0
  · rw [if_pos h0, h0]
    rfl
  · by_cases h1 : f = 1
    · rw [if_neg h0, if_pos h1, h1]
      rfl
    · obtain ⟨k, hk⟩ : ∃ k, f.toNat = k + 2 := ⟨f.toNat - 2, by bv_omega⟩
      rw [if_neg h0, if_neg h1, hk]
      simp only [shapeOf, beq_iff_eq]

/-- GSTAT of a leader, as the sum of its bits (R94). -/
theorem Group.gstat_leader (g : Group) : g.gstat false =
    BitVec.ofNat 64 (g.deadSrc.toNat + 2 * g.blive.toNat + 4 * g.bjoin.toNat + 8 * g.masked.toNat) := by
  unfold Group.gstat
  cases g.deadSrc <;> cases g.blive <;> cases g.bjoin <;> cases g.masked <;> rfl

/-- A leader reads its own trap report (R293). -/
theorem sysReg_report {c : Ctx} {n : BitVec 8} (hl : c.g.sh = false) :
    (n = 16 → sysReg c n.toNat = c.grp.report.tcode) ∧ (n = 17 → sysReg c n.toNat = c.grp.report.tpc) ∧
    (n = 18 → sysReg c n.toNat = c.grp.report.tkernel) ∧ (n = 19 → sysReg c n.toNat = c.grp.report.tteam) ∧
    (n = 20 → sysReg c n.toNat = c.grp.report.ttask) ∧ (n = 21 → sysReg c n.toNat = c.grp.report.taddr) ∧
    (n = 22 → sysReg c n.toNat = c.grp.report.tem) ∧ (n = 23 → sysReg c n.toNat = c.grp.report.tgmode) ∧
    (n = 24 → sysReg c n.toNat = c.grp.report.tresume) := by
  refine ⟨?_, ?_, ?_, ?_, ?_, ?_, ?_, ?_, ?_⟩
  all_goals
    rintro rfl
    simp [sysReg, hl]

/-! ### The instructions -/

section Instructions

variable {s : State} {c : Ctx} {d n : BitVec 8}

/-- The registers whose values a leader passes to its shadow: GSTAT, DEADLANES and RP. -/
theorem passedReg_toNat : passedReg n.toNat = true ↔ n = 0 ∨ n = 1 ∨ n = 3 := by
  simp only [passedReg, Bool.or_eq_true, decide_eq_true_eq]
  bv_omega

/-- `sread` of a register that leader and shadow read alike. -/
theorem execSread_alike (h : Issuing (.sread d n) c s) (hn : ¬ passedReg n.toNat = true) :
    execSread d n s = .next (c.scal s d (sysReg c n.toNat)) :=
  issue_ok h (if_neg hn)

/-- `sread` of a passed register by a leader, which passes on the value read. -/
theorem execSread_leader (h : Issuing (.sread d n) c s) (hn : passedReg n.toNat = true) (hl : c.g.sh = false) :
    execSread d n s = .next (c.scal (passSide c s [sysReg c n.toNat]) d (sysReg c n.toNat)) :=
  issue_ok h (by simp [hn, readPassed, hl, bind, Except.bind])

/-- `sread` of a passed register by a shadow, which takes its leader's value and has its own ISSHADOW. -/
theorem execSread_shadow {ld : Group} {v : W64} {rest : List W64} (h : Issuing (.sread d n) c s) (hn : passedReg n.toNat = true)
    (hs : c.g.sh = true) (hg : s.group? c.g.leader = some ld) (hside : ld.side = v :: rest) :
    execSread d n s = .next (c.scal (s.modGroup c.g.leader fun g => { g with side := g.side.drop 1 }) d
      (if n = 0 then v ||| 16 else v)) :=
  issue_ok h (by simp [hn, readPassed, takeSide, hs, hg, hside, bind, Except.bind])

/-- `slit` joins two literals of the clause, or traps where the second is not there (R129). -/
theorem execSlit_eq (h : Issuing (.slit d n) c s) : execSlit d n s = .next
    (if n.toNat + 1 < c.cl.lits.length then c.scal s d (c.cl.lit (n.toNat + 1) ++ c.cl.lit n.toNat) else c.traps s ILLOPERAND 0) := by
  split
  · next hlit => exact issue_ok h (if_neg (Nat.not_le.2 hlit))
  · next hlit => exact issue_trap h (if_pos (Nat.not_lt.1 hlit))

end Instructions

/-- Settles O19: `vshape` through `shapeOf`, `sread` through what `sysReg` answers and, for a passed register, what a leader or a shadow
does with it. -/
theorem systemRegisters : Obligations.SystemRegisters := by
  rintro s c d a f n x rfl
  refine ⟨fun h => ?_, fun h h0 h1 h3 => ?_, fun hn h => ?_, fun h => issue_ok h rfl, execSlit_eq⟩
  · refine (scalarOp_ok h _).trans ?_
    rw [shapeOf_toNat]
    rfl
  · have hn : ¬ passedReg n.toNat = true := fun hp => (passedReg_toNat.1 hp).elim h0 (·.elim h1 h3)
    refine ⟨sysReg c n.toNat, execSread_alike h hn, ?_, ?_, ?_, ?_, ?_, ?_, ?_, ?_, sysReg_report⟩
    all_goals
      rintro rfl
      rfl
  · have hp := passedReg_toNat.2 hn
    refine ⟨fun hl => ⟨sysReg c n.toNat, execSread_leader h hp hl, ?_, ?_, ?_⟩,
      fun ld v rest hs hg hside => execSread_shadow h hp hs hg hside⟩
    · rintro rfl
      rw [← c.grp.gstat_leader, ← hl]
      rfl
    · rintro rfl
      rfl
    · rintro rfl
      rfl

end Sys2Proof.Machine
end

section
/-! SUPPORT. Register and tile lending: the statement is refuted by a team that has ended with a request left (R124). -/

namespace Sys2Proof.Machine

open Sys2Proof

/-- A team that has ended while its group waits for 8 registers, of which its share has 8 free. -/
def endedRequest : Team :=
  { sid := 1, bezel := 0, kslot := 0, kseq := 1, tid := 0, core := 0, ended := true,
    groups := [{ vmax := 16, v := List.replicate 8 {}, wait := .regs 8 }], requests := [{ grp := 0, tiles := false, n := 8, dst := 0xD1 }] }

/-- The module with that team, at SHARE_GRANT of its share. -/
def endedRequestState : State := { input := some (.shareGrant 1 0 false), bezels := [recomputing.bez], teams := [endedRequest] }

/-- The share holds enough registers for the request. -/
theorem endedRequest_fits : 8 ≤ endedRequest.freeUnits 0 false := by decide

/-- A group of an ended team does not go on, and nothing is granted to it. -/
theorem exec_shareGrant_endedRequest : exec .shareGrant endedRequestState = .refused (.notEnabled "SHARE_GRANT") := rfl

/-- Refutes O18: its clause of SHARE_GRANT has no premise that the group of the oldest request is there and goes on
(`State.goesOn`, R300), and `State.shareGrant` grants to no other group. In `endedRequestState` the team has ended, though its context
is RUNNING; the other premises hold, and `exec` refuses the step. -/
theorem not_registerLending : ¬ Obligations.RegisterLending := by
  intro h
  obtain ⟨-, -, hgrant, -⟩ := h endedRequestState recomputing 0 0 0 rfl
  have hnext := hgrant 0 false endedRequest recomputing.kern _ 1 rfl rfl rfl rfl rfl endedRequest_fits
  rw [exec_shareGrant_endedRequest] at hnext
  cases hnext

end Sys2Proof.Machine
end

section
/-! SUPPORT. The scalar instructions (R132 to R134): the values that they write to S[d], and the words of those with an unused field. -/

namespace Sys2Proof.Machine

open Sys2Proof

/-! ### Products, quotients and the order of values (R132) -/

section Values

variable (x y : W64)

/-- The high half of an integer in 128 bits. -/
theorem highHalf_ofInt (p : Int) : ((BitVec.ofInt 128 p) >>> 64).setWidth 64 = BitVec.ofInt 64 (p / 2 ^ 64) := by
  apply BitVec.eq_of_toNat_eq
  simp only [BitVec.toNat_setWidth, BitVec.toNat_ushiftRight, BitVec.toNat_ofInt, Nat.shiftRight_eq_div_pow]
  omega

theorem mulHigh_signed : BitVec.ofInt 64 (x.toInt * y.toInt / 2 ^ 64) =
    ((x.signExtend 128 * y.signExtend 128) >>> 64).setWidth 64 := by
  rw [BitVec.signExtend, BitVec.signExtend, ← BitVec.ofInt_mul, highHalf_ofInt]

theorem mulHigh_unsigned : BitVec.ofNat 64 (x.toNat * y.toNat / 2 ^ 64) =
    ((x.setWidth 128 * y.setWidth 128) >>> 64).setWidth 64 := by
  rw [← BitVec.ofNat_toNat 128 x, ← BitVec.ofNat_toNat 128 y, ← BitVec.ofNat_mul, ← BitVec.ofInt_natCast 128, highHalf_ofInt,
    ← BitVec.ofInt_natCast 64]
  rfl

/-- The remainder is what the product of divisor and quotient leaves. -/
theorem umod_eq_sub : x % y = x - y * BitVec.ofNat 64 (x.toNat / y.toNat) := by
  rw [eq_sub_iff_add_eq, add_comm, BitVec.umod_def]
  calc y * BitVec.ofNat 64 (x.toNat / y.toNat) + BitVec.ofNat 64 (x.toNat % y.toNat)
      = BitVec.ofNat 64 (y.toNat * (x.toNat / y.toNat) + x.toNat % y.toNat) := by
        rw [BitVec.ofNat_add, BitVec.ofNat_mul, BitVec.ofNat_toNat, BitVec.setWidth_eq]
    _ = x := by rw [Nat.div_add_mod, BitVec.ofNat_toNat, BitVec.setWidth_eq]

theorem toNat_lowBits : (x.extractLsb' 0 6).toNat = x.toNat % 64 := BitVec.extractLsb'_toNat ..

end Values

/-- Where equal keys make the choice indifferent, the strict order chooses as the other does. -/
theorem ite_lt_eq_ite_le {β : Type} [LinearOrder β] {m n : β} {u v : W64} (h : m = n → u = v) :
    (if m < n then u else v) = if m ≤ n then u else v := by
  rcases lt_trichotomy m n with hlt | heq | hgt
  · rw [if_pos hlt, if_pos hlt.le]
  · rw [h heq, ite_self, ite_self]
  · rw [if_neg hgt.not_gt, if_neg hgt.not_ge]

/-- A choice between two values by their signed order. -/
theorem ite_slt {x y u v : W64} (h : x = y → u = v) : (if x.slt y then u else v) = if x.toInt ≤ y.toInt then u else v := by
  rw [← ite_lt_eq_ite_le fun he => h (BitVec.toInt_inj.1 he)]
  exact if_congr BitVec.slt_iff_toInt_lt rfl rfl

/-- A choice between two values by their unsigned order. -/
theorem ite_ult {x y u v : W64} (h : x = y → u = v) : (if x.ult y then u else v) = if x.toNat ≤ y.toNat then u else v := by
  rw [← ite_lt_eq_ite_le fun he => h (BitVec.toNat_inj.1 he)]
  exact if_congr BitVec.ult_iff_toNat_lt rfl rfl

/-! ### Fields (R133) -/

section Fields

variable (x y z : W64) {k : Nat}

theorem fieldOf_eq : fieldOf y =
    (y.toNat % 64, min (y.toNat % 64 + min (y.toNat / 2 ^ 8 % 2 ^ 7) 64) 64 - y.toNat % 64) := by
  simp [fieldOf, bits, Nat.shiftRight_eq_div_pow]

theorem getLsbD_lowMask (n k : Nat) : (lowMask n).getLsbD k = (decide (k < 64) && decide (k < n)) := by
  simp [lowMask, BitVec.getLsbD_ofNat, Nat.testBit_two_pow_sub_one]

theorem getLsbD_bitField (hk : k < 64) : (bitField x y).getLsbD k =
    (decide (k + y.toNat % 64 < 64) && decide (k < y.toNat / 2 ^ 8 % 2 ^ 7) && x.getLsbD (k + y.toNat % 64)) := by
  have hlo : (fieldOf y).1 + k = k + y.toNat % 64 := by rw [fieldOf_eq]; exact Nat.add_comm _ _
  have hfield : (k < 64 ∧ k < (fieldOf y).2) ↔ k + y.toNat % 64 < 64 ∧ k < y.toNat / 2 ^ 8 % 2 ^ 7 := by rw [fieldOf_eq]; omega
  rw [bitField, BitVec.getLsbD_and, BitVec.getLsbD_ushiftRight, getLsbD_lowMask, ← Bool.decide_and, ← Bool.decide_and,
    decide_eq_decide.2 hfield, Bool.and_comm, hlo]

theorem getLsbD_bitInsert (hk : k < 64) : (bitInsert z x y).getLsbD k =
    if y.toNat % 64 ≤ k ∧ k < y.toNat % 64 + y.toNat / 2 ^ 8 % 2 ^ 7 then x.getLsbD (k - y.toNat % 64) else z.getLsbD k := by
  have hlo : (fieldOf y).1 = y.toNat % 64 := by rw [fieldOf_eq]
  have hmask : (lowMask (fieldOf y).2 <<< (fieldOf y).1).getLsbD k =
      decide (y.toNat % 64 ≤ k ∧ k < y.toNat % 64 + y.toNat / 2 ^ 8 % 2 ^ 7) := by
    rw [BitVec.getLsbD_shiftLeft, getLsbD_lowMask, fieldOf_eq, Bool.eq_iff_iff]
    simp only [Bool.and_eq_true, Bool.not_eq_true', decide_eq_true_eq, decide_eq_false_iff_not]
    omega
  rw [bitInsert, BitVec.getLsbD_or, BitVec.getLsbD_and, BitVec.getLsbD_and, BitVec.getLsbD_not, hmask, BitVec.getLsbD_shiftLeft, hlo]
  by_cases h : y.toNat % 64 ≤ k ∧ k < y.toNat % 64 + y.toNat / 2 ^ 8 % 2 ^ 7
  · rw [if_pos h, decide_eq_true h]
    simp [hk, h.1]
  · rw [if_neg h, decide_eq_false h]
    simp [hk]

end Fields

/-! ### Counts (R134) -/

theorem leadingZeros_toNat (x : W64) : leadingZeros 64 x.toNat = if x = 0 then 64 else 63 - x.toNat.log2 :=
  if_congr (BitVec.toNat_inj (y := 0)) rfl rfl

theorem trailingZeros_le (x n : Nat) : trailingZeros x n ≤ n := by
  induction n generalizing x with
  | zero => rfl
  | succ n ih =>
    rw [trailingZeros]
    have := ih (x / 2)
    split <;> omega

/-- The bit above the trailing zeros is set, unless there is none. -/
theorem testBit_trailingZeros {x n : Nat} (h : trailingZeros x n < n) : x.testBit (trailingZeros x n) = true := by
  induction n generalizing x with
  | zero => exact absurd h (Nat.not_lt_zero _)
  | succ n ih =>
    rw [trailingZeros] at h ⊢
    split at h
    case isTrue hodd => simp [hodd]
    case isFalse hodd =>
      rw [if_neg hodd, Nat.add_comm, Nat.testBit_succ]
      exact ih (by omega)

/-- No bit among the trailing zeros is set. -/
theorem testBit_of_lt_trailingZeros {x n k : Nat} (h : k < trailingZeros x n) : x.testBit k = false := by
  induction n generalizing x k with
  | zero => exact absurd h (Nat.not_lt_zero _)
  | succ n ih =>
    rw [trailingZeros] at h
    split at h
    case isTrue => exact absurd h (Nat.not_lt_zero _)
    case isFalse hodd =>
      cases k with
      | zero => simpa using hodd
      | succ k =>
        rw [Nat.testBit_succ]
        exact ih (by omega)

/-! ### The words of the counts and of `smov` (R55, R134) -/

section Words

variable {o d a b : BitVec 8} {w : W32}

/-- A nonzero B is not the filler of the field that these words leave unused. -/
theorem decode_of_nonzeroB (ho : o ∈ ([0x38, 0x39, 0x3A, 0x3B] : List (BitVec 8))) (hw : o ++ d ++ a ++ b = w) (hb : b ≠ 0) :
    decode w = .error .filler := by
  obtain ⟨⟨⟨hop, -⟩, -⟩, hB⟩ := (Encoding.word_8_8_8_8 o d a b).1 hw
  simp only [List.mem_cons, List.not_mem_nil, or_false] at ho
  rcases ho with rfl | rfl | rfl | rfl
  all_goals simpa [decode, decode3, fixed, hop, hB] using hb

/-- Their opcodes are not privileged, so that an unused field with another value than its filler traps ILLOP. -/
theorem undecodedTrap_of_nonzeroB (c : Ctx) (ho : o ∈ ([0x38, 0x39, 0x3A, 0x3B] : List (BitVec 8))) (hw : o ++ d ++ a ++ b = w) :
    undecodedTrap c w .filler = ILLOP := by
  have hop : w.extractLsb' 24 8 = o :=
    ((Encoding.opcode_eq_fld_iff w o).2 ((Encoding.word_8_8_8_8 o d a b).1 hw).1.1.1).symm
  have hpriv : ∀ p ∈ ([0x38, 0x39, 0x3A, 0x3B] : List (BitVec 8)), isPrivileged p = false := by decide
  rw [undecodedTrap, hop, hpriv o ho]
  rfl

end Words

/-! ### The instructions -/

section Scalars

variable {i : Instr} {s : State} {c : Ctx} {d : BitVec 8}

/-- A scalar form writes whatever its value is equal to. -/
theorem scalarOp_eq (h : Issuing i c s) {f : Ctx → W64} {v : W64} (hv : f c = v) : scalarOp i d f s = .next (c.scal s d v) := by
  rw [scalarOp_ok h, hv]

end Scalars

/-- Settles O1: each instruction is the scalar form of its value; the fields are read bit by bit (`getLsbD_bitField`,
`getLsbD_bitInsert`). -/
theorem scalarResults : Obligations.ScalarResults := by
  intro s c d a b
  simp only [exec_sadd, exec_ssub, exec_smul, exec_smulh, exec_smulhu, exec_sdivu, exec_sremu, exec_sand, exec_sor, exec_sxor,
    exec_sandn, exec_sshl, exec_sshr, exec_ssar, exec_smin, exec_smax, exec_sminu, exec_smaxu, exec_seq, exec_slt, exec_sltu,
    exec_ssel, exec_sbfe, exec_sbfi, toNat_lowBits]
  refine ⟨fun h => scalarOp_ok h _, fun h => scalarOp_ok h _, fun h => scalarOp_ok h _, fun h => scalarOp_eq h (mulHigh_signed _ _),
    fun h => scalarOp_eq h (mulHigh_unsigned _ _), fun h => scalarOp_eq h (if_congr Iff.rfl rfl BitVec.udiv_def),
    fun h => scalarOp_eq h (if_congr Iff.rfl rfl (umod_eq_sub _ _)), fun h => scalarOp_ok h _, fun h => scalarOp_ok h _,
    fun h => scalarOp_ok h _, fun h => scalarOp_ok h _, fun h => scalarOp_ok h _, fun h => scalarOp_ok h _, fun h => scalarOp_ok h _,
    fun h => scalarOp_eq h (ite_slt id), fun h => scalarOp_eq h (ite_slt Eq.symm), fun h => scalarOp_eq h (ite_ult id),
    fun h => scalarOp_eq h (ite_ult Eq.symm), fun h => scalarOp_ok h _, fun h => scalarOp_eq h (if_congr BitVec.slt_iff_toInt_lt rfl rfl),
    fun h => scalarOp_eq h (if_congr BitVec.ult_iff_toNat_lt rfl rfl), fun h => scalarOp_ok h _,
    fun h => ⟨_, scalarOp_ok h _, fun k hk => getLsbD_bitField _ _ hk⟩,
    fun h => ⟨_, scalarOp_ok h _, fun k hk => getLsbD_bitInsert _ _ _ hk⟩, fun p hp => ?word⟩
  case word => fin_cases hp <;> rfl

/-- Settles O2: each instruction is the scalar form of its value; a nonzero B is not the filler of its field, and the opcodes are not
privileged. -/
theorem scalarCountsAndMoves : Obligations.ScalarCountsAndMoves := by
  intro s c d a b i
  simp only [exec_spopc, exec_sclz, exec_sctz, exec_smov, exec_smovi, exec_smovh]
  refine ⟨fun h => scalarOp_eq h (congrArg _ ?popc), fun h => scalarOp_eq h (congrArg _ (leadingZeros_toNat _)),
    fun h => ⟨trailingZeros (c.s a).toNat 64, scalarOp_ok h _, trailingZeros_le _ _, testBit_trailingZeros,
      fun k => testBit_of_lt_trailingZeros⟩,
    fun h => scalarOp_ok h _, fun h => scalarOp_ok h _, fun h => scalarOp_ok h _, fun p hp => ⟨?word, fun hb => ?trap⟩, rfl, rfl⟩
  case popc =>
    rw [popc_eq_count, length_filter_range_eq_count]
    rfl
  case word => fin_cases hp <;> rfl
  case trap =>
    have ho : p.1 ∈ ([0x38, 0x39, 0x3A, 0x3B] : List (BitVec 8)) := List.mem_map_of_mem (f := Prod.fst) hp
    exact ⟨.filler, decode_of_nonzeroB ho rfl hb, undecodedTrap_of_nonzeroB c ho rfl⟩

end Sys2Proof.Machine
end

section
/-! SUPPORT. The vector, float and conversion instructions (R135 to R154): each is one of the shared forms of Laws/Results.lean, one of
the two forms of a single vector result below, or stands below by itself. -/

namespace Sys2Proof.Machine

open Sys2Proof

section Forms

variable {i : Instr} {s : State} {c : Ctx} {d a b : BitVec 8}

/-- An instruction whose effect is one vector result, without a check of its own (R130). -/
theorem issue_vecRes (h : Issuing i c s) (tag : Ctx → Tag) (l : Ctx → Nat → W32) :
    issue i s (fun c s => vecRes c s d (tag c) (l c)) = .next (c.vect s d (tag c) (l c)) := issue_ok h rfl

/-- An instruction whose effect is one vector result under a set of element types (R135). -/
theorem issue_typed_vecRes (h : Issuing i c s) {ok : Nat → Bool} (ho : ok (etype c.grp.gmode) = true) (tag : Ctx → Tag)
    (l : Ctx → Nat → W32) :
    issue i s (fun c s => typed c ok (vecRes c s d (tag c) (l c))) = .next (c.vect s d (tag c) (l c)) :=
  issue_ok h (typed_ok ho)

/-- `sel`: where the bits of s29 select one operand in every lane of EM, they count as a source of tag U, else of tag G (R139). -/
theorem execSel_eq (h : Issuing (.sel d a b) c s) : execSel d a b s = .next (c.vect s d
    (if (c.grp.sreg 29).setWidth 32 &&& c.em = 0 ∨ (c.grp.sreg 29).setWidth 32 &&& c.em = c.em then uniTag [c.v a, c.v b] else .g)
    fun i => if ((c.grp.sreg 29).setWidth 32).getLsbD i then (c.v a).l.lane i else (c.v b).l.lane i) := by
  refine (issue_vecRes h _ _).trans ?_
  simp only [Bool.or_eq_true, beq_iff_eq]

/-- `div` under RNE, the one mode that it accepts (R150, R151). -/
theorem execDiv_nearest (h : Issuing (.div d a b) c s) (ho : isFlt (etype c.grp.gmode) = true) (hr : rnd c.grp.gmode = 0) :
    execDiv d a b s = .next (c.vect s d (uniTag [c.v a, c.v b]) fun i => lane2 (etype c.grp.gmode) (fun v w =>
      (fmtOf (etype c.grp.gmode)).round 0 (satBit c.grp.gmode) (ftzBit c.grp.gmode)
        (((fmtOf (etype c.grp.gmode)).dec (ftzBit c.grp.gmode) v).div ((fmtOf (etype c.grp.gmode)).dec (ftzBit c.grp.gmode) w)))
      ((c.v a).l.lane i) ((c.v b).l.lane i)) :=
  issue_ok h ((typed_ok ho).trans (if_neg (not_not.2 hr)))

/-- `cvtf` traps ILLOP where the lane of its slot's format has no element of its number (R148). -/
theorem execCvtf_eq {e : BitVec 1} {g : BitVec 4} {k : BitVec 3} (h : Issuing (.cvtf d a e g k) c s) : execCvtf d a e g k s = .next
    (if fsElems (recFslot c.kern.record k.toNat) ≤ g.toNat then c.traps s ILLOP 0
     else c.vect s d (uniTag (if e = 1 then [c.v a, c.v d] else [c.v a])) fun i =>
       cvtfLane c.grp.gmode (recFslot c.kern.record k.toNat) (e == 1) g.toNat ((c.v a).l.lane i) ((c.v d).l.lane i)) := by
  split
  case isTrue hj => exact issue_trap h (if_pos hj)
  case isFalse hj => exact issue_ok h (if_neg hj)

end Forms

/-- Settles O3: each instruction is one of the forms on one, two or three sources, element by element; `mulhi` checks for an integer
type. -/
theorem vectorArithmetic : Obligations.VectorArithmetic := by
  rintro s c d a b m x y z rfl rfl rfl rfl
  simp only [exec_add, exec_sub, exec_mul, exec_fma, exec_fms, exec_fnma, exec_min, exec_max, exec_clamp, exec_abs, exec_neg, exec_mulhi]
  exact ⟨fun h => vec2_ok h rfl _ _, fun h => vec2_ok h rfl _ _, fun h => vec2_ok h rfl _ _, fun h => vec3_ok h rfl _,
    fun h => vec3_ok h rfl _, fun h => vec3_ok h rfl _, fun h => vec2_ok h rfl _ _, fun h => vec2_ok h rfl _ _,
    fun h => vec3_ok h rfl _, fun h => vec1_ok h rfl _, fun h => vec1_ok h rfl _, fun hi h => vec2_ok h hi _ _⟩

/-- Settles O4: `and`, `or`, `xor` and `bfe` are the form on whole lanes, the shifts and counts those on elements, a compare the form of
a mask; the others are a single vector result each, of `sel` one whose tag s29 decides (`execSel_eq`). -/
theorem vectorBits : Obligations.VectorBits := by
  constructor
  · rintro s c d a b f m n x y z rfl rfl rfl rfl rfl
    simp only [exec_mov, exec_and, exec_or, exec_xor, exec_not, exec_shl, exec_shr, exec_sar, exec_sel, exec_popc, exec_clz, exec_bfe,
      exec_bfi, exec_swaph, exec_perm, exec_lanes]
    have narrow : etype c.grp.gmode ≤ 1 → decide (etype c.grp.gmode ≤ 1) = true := decide_eq_true
    exact ⟨fun h => issue_vecRes h _ _, fun h => vecBits_ok h rfl _, fun h => vecBits_ok h rfl _, fun h => vecBits_ok h rfl _,
      fun h => issue_vecRes h _ _, fun hi h => vec2_ok h hi _ _, fun hi h => vec2_ok h hi _ _, fun hi h => vec2_ok h hi _ _,
      execSel_eq, fun h => vec1_ok h rfl _, fun h => vec1_ok h rfl _, fun hw h => vecBits_ok h (narrow hw) _,
      fun hw h => issue_typed_vecRes h (narrow hw) _ _, fun h => issue_vecRes h _ _, fun h => issue_vecRes h _ _,
      fun hw h => issue_typed_vecRes h (narrow hw) _ _⟩
  · rintro s c d a b m x y n rfl rfl rfl rfl
    simp only [exec_cmpeq, exec_cmpne, exec_cmplt, exec_cmple, exec_cmpun]
    exact ⟨fun h => vecCmp_ok h _, fun h => vecCmp_ok h _, fun h => vecCmp_ok h _, fun h => vecCmp_ok h _, fun h => vecCmp_ok h _⟩

/-- Settles O5: each instruction is a form on elements under the float types; those that are correctly rounded accept RNE only, and
`dot2` is a single vector result under two of the types. -/
theorem floatInstructions : Obligations.FloatInstructions := by
  rintro s c d a b m f x y z rfl rfl rfl rfl rfl
  simp only [exec_floor, exec_ceil, exec_rnde, exec_trunc, exec_fract, exec_copysign, exec_ldexp, exec_exp2, exec_log2, exec_sinpi,
    exec_cospi, exec_rred, exec_tanh, exec_rcp, exec_rsq, exec_sqrt, exec_div, exec_dot2]
  refine ⟨fun hf => ⟨fun h => vec1_ok h hf _, fun h => vec1_ok h hf _, fun h => vec1_ok h hf _, fun h => vec1_ok h hf _,
    fun h => vec1_ok h hf _, fun h => vec2_ok h hf _ _, fun h => vec2_ok h hf _ _, fun h => vec1_ok h hf _, fun h => vec1_ok h hf _,
    fun h => vec1_ok h hf _, fun h => vec1_ok h hf _, fun h => vec1_ok h hf _, fun h => vec1_ok h hf _, fun hr =>
      ⟨fun h => rounded1_ok h hf hr _, fun h => rounded1_ok h hf hr _, fun h => rounded1_ok h hf hr _,
        fun h => execDiv_nearest h hf hr⟩⟩, fun ht h => issue_typed_vecRes h ?_ _ _⟩
  simpa using ht

/-- Settles O6: `cvt` has no check of its own, `cvtf` that of its slot's format (`execCvtf_eq`), and the others that of a packed type. -/
theorem conversions : Obligations.Conversions := by
  rintro s c d a b f g e k m x y z rfl rfl rfl rfl
  simp only [exec_cvt, exec_cvtf, exec_pack, exec_unpkl, exec_unpkh]
  have packed : 3 ≤ etype c.grp.gmode → isPacked (etype c.grp.gmode) = true := decide_eq_true
  exact ⟨fun h => issue_vecRes h _ _, execCvtf_eq, fun hp => ⟨fun h => vecBits_ok h (packed hp) _,
    fun h => issue_typed_vecRes h (packed hp) _ _, fun h => issue_typed_vecRes h (packed hp) _ _⟩⟩

end Sys2Proof.Machine
end

section
/-! SUPPORT. Barriers: the home's test, `binit`, arrivals from `barr` and `barx`, `bwait`, and BWAIT_SATISFIED (R180 to R187, R228,
R229, R316). -/

namespace Sys2Proof.Machine

open Sys2Proof

section Object

variable {c : Ctx} {s s1 : State} {k : Acc} {ad : W64} {o : Obj}

/-- Finding an object changes no team. -/
theorem Ctx.Object.teams (h : c.Object s k ad o s1) : s1.teams = s.teams := by
  obtain ⟨-, pa, ow, -, -, -, rfl⟩ | ⟨-, rfl, -⟩ := h <;> simp

theorem Ctx.Object.roomB (h : c.Object s k ad o s1) (hr : c.RoomB s) : c.RoomB s1 := by
  simpa only [Ctx.RoomB, State.group?, State.team?, h.teams] using hr

end Object

/-- An issue leaves what its effect settles to. -/
theorem issue_settles {i : Instr} {c : Ctx} {s : State} {f : Ctx → State → Res} {x : Res} (h : Issuing i c s) (hf : f c s = x) :
    issue i s f = .next (settle s c x) := by
  rw [issue_sound h.ctx h.checks h.sound, hf]

section Barriers

variable {i : Instr} {c : Ctx} {s s1 s2 u v : State} {d a b f : BitVec 8} {o : Obj} {n x : W32} {ops : List W64} {ad : W64} {w : WaitOn}

/-! ### `binit` (R183) -/

theorem execBinit_badScope (h : Issuing (.binit d a b) c s) (hb : 8 ≤ (c.s b).toNat) :
    execBinit d a b s = .next (c.traps s ILLOPERAND 0) := issue_trap h (if_pos hb)

/-- `binit` is held with the version of its task. -/
theorem execBinit_held (h : Issuing (.binit d a b) c s) (hl : c.g.sh = false) (hr : c.RoomB s) (hb : (c.s b).toNat < 8)
    (ho : c.Object s .store (c.s d) o s1) : execBinit d a b s = .next (c.past (sign c
      (c.held s1 (.binit o ((c.s a).setWidth 32) ((c.s b).setWidth 3))) [c.s d, c.s a, c.s b])) := by
  refine issue_ok h ?_
  rw [if_neg (by omega)]
  simp [classB, hl, gateB_room (t := s) (State.ctx_group h.ctx) hr, objAt_object ho, defer_room (ho.roomB hr), bind, Except.bind]

/-! ### Arrivals (R184) -/

/-- A shadow arrives nowhere: it commits and signs (R97, R98). -/
theorem arriveOp_shadow (hs : c.g.sh = true) (hm : c.MayCommit s) :
    arriveOp c s ad n x ops = .ok (sign c (c.commit s false) ops) := by
  simp [arriveOp, classB, hs, boundary_commit false hm, bind, Except.bind]

/-- A leader that has room for its arrival, has found the object, and may commit: `s1` is the state before the commit, `s2` the one
after it. -/
structure Ctx.ReadyToArrive (c : Ctx) (s s1 s2 : State) (ad : W64) (o : Obj) : Prop where
  leader : c.g.sh = false
  room : c.RoomB s
  object : c.Object s .store ad o s1
  may : c.MayCommit s1
  committed : s2 = c.commit s1 false

/-- The state after the group's release at the scope of an object (R228). -/
def Ctx.releasedAtScope (c : Ctx) (s : State) (o : Obj) : State := s.publish c.g c.core (s.objScope c.kern.record o)

/-- An arrival at an object of this device is applied at its home. -/
theorem Ctx.ReadyToArrive.arriveOp_home (h : c.ReadyToArrive s s1 s2 ad o) (hg : s.group? c.g = some c.grp)
    (ha : o.away s2.devId = false) :
    arriveOp c s ad n x ops = .ok (sign c ((c.releasedAtScope s2 o).arrive o n x c.handle c.core) ops) := by
  obtain ⟨hl, hr, ho, hm, rfl⟩ := h
  simp [arriveOp, classB, hl, gateB_room (t := s) hg hr, objAt_object ho, boundary_commit false hm, ha, bind, Except.bind,
    Ctx.releasedAtScope]

/-- The entry of an arrival on its way to another device, which the operation `op` of the group waits for (R184). -/
def Ctx.arrivalEntry (c : Ctx) (o : Obj) (n x : W32) (op step : Nat) : Posted :=
  { src := c.g, kernel := (c.bez.num, c.kern.slot), core := c.core, instr := step, cells := [], arrive := some (o, n, x, op),
    owner := 0 }

/-- An arrival at an object of another device travels there. -/
theorem Ctx.ReadyToArrive.arriveOp_away (h : c.ReadyToArrive s s1 s2 ad o) (hg : s.group? c.g = some c.grp)
    (ha : o.away s2.devId = true) (hu : u = c.releasedAtScope s2 o) (hr : c.RoomB u) (hv : v = c.opB u .event) :
    arriveOp c s ad n x ops =
      .ok (sign c { v with posted := v.posted ++ [c.arrivalEntry o n x (c.nextOp u) v.stepNo] } ops) := by
  obtain ⟨hl, hr0, ho, hm, rfl⟩ := h
  subst hu hv
  rw [Ctx.releasedAtScope] at hr ⊢
  simp [arriveOp, classB, hl, gateB_room (t := s) hg hr0, objAt_object ho, boundary_commit false hm, ha, issueB_room hr, bind,
    Except.bind, Ctx.arrivalEntry]

/-- The arrivals, each with its counts of lanes and bytes and the operands that it signs (R184). -/
def Arrives (i : Instr) (c : Ctx) (a b f : BitVec 8) (n x : W32) (ops : List W64) : Prop :=
  i = .barr a f ∧ n = (if f = 0 then BitVec.ofNat 32 c.nominal else 1) ∧ x = 0 ∧ ops = [c.s a] ∨
    i = .barx a b ∧ n = BitVec.ofNat 32 c.nominal ∧ x = (c.s b).setWidth 32 ∧ (c.s b).getLsbD 31 = false ∧ ops = [c.s a, c.s b]

theorem Arrives.exec_eq (hi : Arrives i c a b f n x ops) (h : Issuing i c s) {t : State}
    (ht : arriveOp c s (c.s a) n x ops = .ok t) : exec i s = .next (c.past t) := by
  obtain ⟨rfl, rfl, rfl, rfl⟩ | ⟨rfl, rfl, rfl, hb, rfl⟩ := hi
  · exact issue_ok h ht
  · have hbytes : ¬ ((c.s b).setWidth 32).getLsbD 31 = true := by rw [BitVec.getLsbD_setWidth, hb]; decide
    exact issue_ok h ((if_neg hbytes).trans ht)

/-- A byte count of 2^31 or more is no operand (R184). -/
theorem execBarx_badCount (h : Issuing (.barx a b) c s) (hb : (c.s b).getLsbD 31 = true) :
    execBarx a b s = .next (c.traps s ILLOPERAND 0) := issue_trap h (if_pos (by rw [BitVec.getLsbD_setWidth, hb]; decide))

/-! ### `bwait` (R186, R187) -/

/-- The test of R186 in the order of the phases' distances. -/
theorem phaseReached_iff (ph target : W32) : phaseReached ph target = true ↔ ph - target < 0x80000000 := by
  have hmsb : (ph - target).getLsbD 31 = (ph - target).msb := (BitVec.msb_eq_getLsbD_last _).symm
  rw [phaseReached, hmsb, Bool.not_eq_true', BitVec.msb_eq_false_iff_two_mul_lt, BitVec.lt_def]
  have hhalf : (0x80000000 : W32).toNat = 2 ^ 31 := rfl
  omega

/-- What a leader's `bwait` names: one of its group's batches, or an object, whose finding leaves `s1`. -/
def Ctx.WaitsOn (c : Ctx) (s : State) (a : BitVec 8) (o : Obj) (w : WaitOn) (s1 : State) : Prop :=
  a = 0xF4 ∧ w = .mbat ∧ s1 = s ∨ a = 0xF5 ∧ w = .cbat ∧ s1 = s ∨
    a ≠ 0xF4 ∧ a ≠ 0xF5 ∧ c.Object s .syncRead (c.s a) o s1 ∧ w = .obj o

/-- Where the phase has reached the target the group acquires and goes on, and otherwise it waits (R186). -/
def Ctx.passOrWait (c : Ctx) (s : State) (w : WaitOn) (target : W32) : Res :=
  if phaseReached (s.phaseOf c.grp w) target then .ok (c.mod s fun g => g.acquireAt (s.waitFloor c.core target w))
  else .error (.wait (w.wait target) s)

/-- A leader's `bwait` commits, and passes or waits by the phase that it then finds. -/
theorem execBwait_leader (h : Issuing (.bwait a b) c s) (hl : c.g.sh = false) (hw : c.WaitsOn s a o w s1) (hm : c.MayCommit s1) :
    execBwait a b s = .next (settle s c (c.passOrWait ((c.commit s1 true).atWait w) w ((c.s b).setWidth 32))) := by
  refine issue_settles h ?_
  obtain ⟨rfl, rfl, rfl⟩ | ⟨rfl, rfl, rfl⟩ | ⟨h4, h5, ho, rfl⟩ := hw
  · simp [hl, boundary_commit true hm, bind, Except.bind, Ctx.passOrWait]
  · simp [hl, boundary_commit true hm, bind, Except.bind, Ctx.passOrWait]
  · have hm4 : ¬ a = 0xF4#8 := h4
    have hm5 : ¬ a = 0xF5#8 := h5
    simp [hm4, hm5, objAt_object ho, hl, boundary_commit true hm, bind, Except.bind, Ctx.passOrWait]

theorem settle_passOrWait_reached {target : W32} (hp : s2.phaseOf c.grp w - target < 0x80000000) :
    settle s c (c.passOrWait s2 w target) = c.past (c.mod s2 fun g => g.acquireAt (s2.waitFloor c.core target w)) := by
  rw [Ctx.passOrWait, if_pos ((phaseReached_iff _ _).2 hp)]
  rfl

theorem settle_passOrWait_early {target : W32} (hp : 0x80000000 ≤ s2.phaseOf c.grp w - target) :
    settle s c (c.passOrWait s2 w target) = c.waits s2 (w.wait target) := by
  rw [Ctx.passOrWait, if_neg fun h => BitVec.not_lt.2 hp ((phaseReached_iff _ _).1 h)]
  rfl

/-! ### BWAIT_SATISFIED (R186, R316) -/

/-- A group of a running team waits for a phase of an object in a SYNC page, which is now at `h` (R316; log entry 58). -/
structure WaitsForPhase (s : State) (r : GRef) (t : Team) (pa : Nat) (va : W64) (ow : Nat) (target : W32) (h : Obj) : Prop where
  team : s.team? r.team = some t
  live : t.ended = false
  running : t.ctx = .running
  group : ∃ g, s.group? r = some g ∧ g.wait = .phase (.glob pa va ow) target
  home : h = s.homeOf (.glob pa va ow)

variable {r : GRef} {t : Team} {pa ow : Nat} {va : W64} {target : W32} {h : Obj}

theorem WaitsForPhase.exec_goesOn (hw : WaitsForPhase s r t pa va ow target h) (hin : s.input = some (.bwaitSatisfied r))
    (hm : s.objMoving h = false) (hp : phaseReached (s.objPhase h) target = true) : execBwaitSatisfied s = .next
      (s.modGroup r fun g => ((g.wake s.stepNo).acquireAt (s.releasedAt h t.core (s.observes h target))).advance) := by
  obtain ⟨ht, he, hc, ⟨g, hg, hwait⟩, rfl⟩ := hw
  exact eventStep_ok hin (by simp [State.bwaitSatisfied, hg, hwait, ht, Team.onCore, he, hc, hm, hp, State.waitFloor])

theorem WaitsForPhase.exec_refused (hw : WaitsForPhase s r t pa va ow target h) (hin : s.input = some (.bwaitSatisfied r))
    (hn : s.objMoving h = true ∨ phaseReached (s.objPhase h) target = false) :
    execBwaitSatisfied s = .refused (.notEnabled "BWAIT_SATISFIED") := by
  obtain ⟨ht, he, hc, ⟨g, hg, hwait⟩, rfl⟩ := hw
  refine eventStep_refused ?_
  obtain hn | hn := hn <;> simp [hin, State.bwaitSatisfied, hg, hwait, ht, Team.onCore, he, hc, hn]

/-! ### An arrival at an object of a MIGRATING page (R316; log entry 58) -/

theorem State.arrive_moving {ag : Nat} {y : W64} (hm : (s.atHome (s.homeOf o)).objMoving (s.homeOf o) = true) : s.arrive o n x y ag =
    { s.atHome (s.homeOf o) with heldOps := (s.atHome (s.homeOf o)).heldOps ++ [.arrive (s.homeOf o) n x y ag] } := if_pos hm

end Barriers

/-- Settles O30: `binit` through what is held, an arrival through its commit and its release (`Ctx.ReadyToArrive`), `bwait` through what it
names (`Ctx.WaitsOn`) and the test that it makes (`Ctx.passOrWait`), and BWAIT_SATISFIED through the wait of its group. -/
theorem barriers : Obligations.Barriers := by
  intro s s1 s2 c d a b f o
  refine ⟨fun ph arr ex pend => ?test, execBinit_badScope, fun hl hr h hb ho => execBinit_held h hl hr hb ho,
    fun i n x ops hi h => ⟨fun hl hr ho hm h2 => ?arrives, fun hs hm => Arrives.exec_eq hi h (arriveOp_shadow hs hm)⟩,
    execBarx_badCount, fun w hl h hw hm h2 => ?waits, fun r g t n sy pa ow y hin hg ht he hc hwait hy => ?satisfied,
    fun n x y ag h1 hm => ?moving⟩
  case test => simp [barrierTest]
  case arrives =>
    have hready : c.ReadyToArrive s s1 s2 (c.s a) o := ⟨hl, hr, ho, hm, h2⟩
    have hg : s.group? c.g = some c.grp := State.ctx_group h.ctx
    refine ⟨fun ha => Arrives.exec_eq hi h (hready.arriveOp_home hg ha), fun u v p ha hu hr' hv hp => ?_⟩
    subst hp
    exact Arrives.exec_eq hi h (hready.arriveOp_away hg ha hu hr' hv)
  case waits =>
    rw [exec_bwait, execBwait_leader h hl hw hm, ← h2]
    exact ⟨fun hp => congrArg _ (settle_passOrWait_reached hp), fun hp => congrArg _ (settle_passOrWait_early hp)⟩
  case satisfied =>
    have hw : WaitsForPhase s r t pa sy ow n y := ⟨ht, he, hc, ⟨g, hg, hwait⟩, hy⟩
    exact ⟨hw.exec_goesOn hin, hw.exec_refused hin⟩
  case moving =>
    subst h1
    exact State.arrive_moving hm

end Sys2Proof.Machine
end

section
/-! SUPPORT. Timeline counters: draws and their order, `tlinc`, `tlrd`, and TICKET_DRAW_RESUME (R189 to R191, R236, R316). -/

namespace Sys2Proof.Machine

open Sys2Proof

/-! ### A draw at its home (R189) -/

section Draw

variable {s u : State} {o : Obj} {h : W64}

/-- No object of a mailbox has a KIND (R179). -/
theorem State.objKind_mailbox {pa ow : Nat} {va : W64} (hb : u.mailboxAt pa ≠ none) : u.objKind (.glob pa va ow) = 0 := by
  simp [State.objKind, Option.isSome_iff_ne_none.2 hb]

/-- An object of KIND 0 that is no mailbox becomes a counter whose first ticket is 1. -/
theorem State.draw_creates (hm : (s.atHome o).objMoving o = false) (hk : (s.atHome o).objKind o = 0)
    (hb : ∀ pa va ow, o = .glob pa va ow → (s.atHome o).mailboxAt pa = none) : ∃ v, s.draw o h = .ticket 1 v := by
  cases o with
  | stash => simp [State.objKind] at hk
  | glob pa va ow => simp [State.draw, hm, hk, hb pa va ow rfl]

/-- A mailbox gives ticket 0. -/
theorem State.draw_mailbox {pa ow : Nat} {va : W64} (hm : (s.atHome (.glob pa va ow)).objMoving (.glob pa va ow) = false)
    (hb : (s.atHome (.glob pa va ow)).mailboxAt pa ≠ none) : ∃ v, s.draw (.glob pa va ow) h = .ticket 0 v := by
  simp [State.draw, hm, State.objKind_mailbox hb, Option.isSome_iff_ne_none.2 hb]

/-- An object of another KIND gives ticket 0. -/
theorem State.draw_noCounter (hm : (s.atHome o).objMoving o = false) (h0 : (s.atHome o).objKind o ≠ 0)
    (h2 : (s.atHome o).objKind o ≠ 2) : ∃ v, s.draw o h = .ticket 0 v := by
  simp [State.draw, hm, h0, h2]

/-- A counter answers NEXT and raises it where it has room, and makes the draw wait where it is full. -/
theorem State.draw_counter (hm : (s.atHome o).objMoving o = false) (hk : (s.atHome o).objKind o = 2) :
    s.draw o h = if ((s.atHome o).objD o 8).toNat ≤ ((s.atHome o).objD o 0).toNat + 64 then
      .ticket ((s.atHome o).objD o 8) ((s.atHome o).objWrite o 8 (leBytes (((s.atHome o).objD o 8).toNat + 1) 8)) else .wait := by
  simp [State.draw, hm, hk]

end Draw

/-! ### Draws of one group (R236) -/

section Turn

variable {s : State} {r : GRef} {g : Group} {o : Obj} {h : W64}

/-- Behind no older draw of the group on the counter, a draw is made at once. -/
theorem State.drawInTurn_free (hg : s.group? r = some g) (hn : ∀ x ∈ g.ops, ∀ k w e, x.what = .draw k w e → k.place ≠ o.place) :
    s.drawInTurn r o h = s.draw o h := by
  refine if_neg ?_
  rw [hg, Option.any_some, Bool.not_eq_true, List.any_eq_false]
  intro x hx
  split
  case h_1 k w e hw => simpa using hn x hx k w e hw
  case h_2 => exact Bool.false_ne_true

/-- Behind one, it waits. -/
theorem State.drawInTurn_behind (hg : s.group? r = some g) {x : Op} (hx : x ∈ g.ops) {k : Obj} {w : DrawFor} {e : Nat}
    (hw : x.what = .draw k w e) (hk : k.place = o.place) : s.drawInTurn r o h = .wait := by
  refine if_pos ?_
  rw [hg, Option.any_some, List.any_eq_true]
  exact ⟨x, hx, by simp [hw, hk]⟩

end Turn

/-! ### `tlinc` and `tlrd` (R190, R191) -/

section Instructions

variable {c : Ctx} {s s1 s2 t : State} {d a f : BitVec 8} {o : Obj} {n : W64} {sig : Bool}

/-- A ticket that has been drawn is answered; a `tlinc` 0 completes it once its stores have arrived. -/
theorem drawOp_ticket (hd : s.drawInTurn c.g o c.handle = .ticket n t) (hr : c.RoomA t) : drawOp c s o d sig =
    .ok (if sig then (c.opA t [.scal (sdstNum d) n] .ready sig).signal c.g o n else c.opA t [.scal (sdstNum d) n] .ready sig) := by
  simp only [drawOp, hd, issueA_room hr, bind, Except.bind]

/-- Without a ticket, the operation draws later. -/
theorem drawOp_waits (hd : s.drawInTurn c.g o c.handle = .wait) (hr : c.RoomA s) :
    drawOp c s o d sig = .ok (c.opA s [.scal (sdstNum d) 0] (.draw o (.tlinc sig) (sdstNum d)) sig) := by
  simp only [drawOp, hd, issueA_room hr]

theorem execTlincReserve_eq (h : Issuing (.tlincReserve d a) c s) (hl : c.g.sh = false) (hr : c.RoomA s)
    (hc : c.Counter s .sync (c.s a) o s1) (hd : drawOp c s1 o d false = .ok t) : execTlincReserve d a s = .next (c.past t) := by
  refine issue_ok h ?_
  simp [classA, hl, gateA_room (t := s) (State.ctx_group h.ctx) hr, counterAt_counter hc, hd, bind, Except.bind]

theorem execTlincSignal_eq (h : Issuing (.tlincSignal d a) c s) (hl : c.g.sh = false) (hr : c.RoomA s)
    (hc : c.Counter s .sync (c.s a) o s1) (hm : c.MayCommit s1)
    (hd : drawOp c ((c.commit s1 false).publish c.g c.core 3) o d true = .ok t) : execTlincSignal d a s = .next (c.past t) := by
  refine issue_ok h ?_
  simp [hl, gateA_room (t := s) (State.ctx_group h.ctx) hr, counterAt_counter hc, boundary_commit false hm, hd, bind, Except.bind]

theorem execTlincComplete_eq (h : Issuing (.tlincComplete d a) c s) (hl : c.g.sh = false) (hr : c.RoomA s)
    (hc : c.Counter s .sync (c.s a) o s1) (hm : c.MayCommit s1) {ok held : Bool}
    (hd : ((c.commit s1 false).publish c.g c.core 3).complete o (c.s d).toNat c.core = (t, ok, held)) (ht : c.RoomA t) :
    execTlincComplete d a s = .next (c.past (c.opA t [.scal (sdstNum d) (if ok then 0 else 1)]
      (if held then .tlcomplete o (c.s d).toNat else .ready) true)) := by
  refine issue_ok h ?_
  simp [hl, gateA_room (t := s) (State.ctx_group h.ctx) hr, counterAt_counter hc, boundary_commit false hm, hd, issueA_room ht, bind,
    Except.bind]

theorem execTlrd_reads (h : Issuing (.tlrd d a f) c s) (hl : c.g.sh = false) (hr : c.RoomA s)
    (hc : c.Counter s .syncRead (c.s a) o s1) : execTlrd d a f s =
      .next (c.past (c.opA s1 [.scal (sdstNum d) (s1.objD o (8 * f.toNat))] .ready false)) := by
  refine issue_ok h ?_
  simp [classA, hl, gateA_room (t := s) (State.ctx_group h.ctx) hr, counterAt_counter hc, issueA_room (hc.roomA hr), bind, Except.bind]

end Instructions

/-! ### TICKET_DRAW_RESUME (R189, R236) -/

/-- The group's oldest operation, where it waits for a draw that finds room, takes its ticket. -/
theorem execTicketDrawResume_oldest {s t : State} {r : GRef} {g : Group} {tm : Team} {x : Op} {rest : List Op} {o : Obj} {n : W64}
    {why : DrawFor} {dst : Nat} (hin : s.input = some (.ticketDrawResume r)) (ht : s.team? r.team = some tm) (hg : s.group? r = some g)
    (ho : g.ops = x :: rest) (hd : s.draw (s.homeOf o) (handleOf tm.bezel tm.kslot tm.kseq) = .ticket n t)
    (hx : x.what = .draw o why dst) : execTicketDrawResume s = .next (t.drawn r x.id o why dst n) :=
  eventStep_ok hin (by simp [State.drawResume, ht, hg, ho, hx, hd])

/-- Settles O31: a draw by what its object is, a group's draws by the older ones on the counter, each instruction through the counter
that it names, and TICKET_DRAW_RESUME through the group's oldest operation. -/
theorem timelines : Obligations.Timelines := by
  intro s s1 s2 t c d a f o n
  refine ⟨fun g hg => ⟨State.drawInTurn_free hg, fun x hx k w e hw hk => State.drawInTurn_behind hg hx hw hk⟩,
    fun h u hu => ?draws, fun hl hr hc => ⟨fun h hd ht => ?_, fun h hd => ?_, fun hm h2 => ?committing⟩,
    fun hl hr hc h => execTlrd_reads h hl hr hc, fun r g tm x rest hin ht hg ho hd => ?resume⟩
  case draws =>
    subst hu
    refine ⟨fun hm => if_pos hm, fun hm => ⟨State.draw_creates hm, fun pa va ow ho hb => ?_,
      fun hk hn => (State.draw_counter hm hk).trans (if_pos hn),
      fun hk hn => (State.draw_counter hm hk).trans (if_neg (Nat.not_le.2 hn)), State.draw_noCounter hm⟩⟩
    subst ho
    exact State.draw_mailbox hm hb
  · exact execTlincReserve_eq h hl hr hc (drawOp_ticket hd ht)
  · exact execTlincReserve_eq h hl hr hc (drawOp_waits hd (hc.roomA hr))
  case committing =>
    subst h2
    exact ⟨fun h hd ht => execTlincSignal_eq h hl hr hc hm (drawOp_ticket hd ht),
      fun h hd ht => execTlincSignal_eq h hl hr hc hm (drawOp_waits hd ht),
      fun ok held h hd ht => execTlincComplete_eq h hl hr hc hm hd ht⟩
  case resume =>
    have drawn : ∀ {why dst}, x.what = .draw o why dst → execTicketDrawResume s = .next (t.drawn r x.id o why dst n) :=
      execTicketDrawResume_oldest hin ht hg ho hd
    exact ⟨fun why dst => drawn, drawn, drawn⟩

end Sys2Proof.Machine
end

section
/-! SUPPORT. Atomics: the new value of a location, and a leader's atomic (R192 to R195). -/

namespace Sys2Proof.Machine

open Sys2Proof

/-! ### New values (R192, R194) -/

section Values

variable {m : Nat} {old x : W32}

/-- A mode word that is an element type alone has RNE, SAT 0 and FTZ 0. -/
theorem mode_of_etype (hm : m < 5) : etype (BitVec.ofNat 16 m) = m ∧ rnd (BitVec.ofNat 16 m) = 0 ∧
    satBit (BitVec.ofNat 16 m) = false ∧ ftzBit (BitVec.ofNat 16 m) = false := by
  interval_cases m <;> decide

/-- A word's pattern as a signed integer. -/
theorem intVal_signed (x : W32) : intVal true 32 x.toNat = x.toInt := by
  have := x.isLt
  rw [intVal, BitVec.toInt_eq_toNat_cond]
  simp only [Bool.true_and, decide_eq_true_eq]
  split <;> split <;> omega

/-- An operation on elements of 32 bits is one on words (R26). -/
theorem lane2_word (hm : m ≤ 2) (f : Nat → Nat → Nat) : lane2 m f old x = BitVec.ofNat 32 (f old.toNat x.toNat) := by
  have hbits : elemBits m = 32 := if_pos hm
  have hold : elem m old 0 = old.toNat := by simp [elem, hbits, Nat.mod_eq_of_lt old.isLt]
  have hx : elem m x 0 = x.toNat := by simp [elem, hbits, Nat.mod_eq_of_lt x.isLt]
  apply BitVec.eq_of_toNat_eq
  simp [lane2, ofElems, elemCount, hbits, hold, hx]

theorem ofNat_wrapInt (v : Int) : BitVec.ofNat 32 (wrapInt 32 v) = BitVec.ofInt 32 v := by
  apply BitVec.eq_of_toNat_eq
  rw [BitVec.toNat_ofNat, BitVec.toNat_ofInt, wrapInt]
  omega

/-- The addition of 32-bit integers wraps. -/
theorem lane2_add_word : lane2 0 (fun p q => arith .add 0 p q 0) old x = old + x := by
  rw [lane2_word (by decide)]
  calc BitVec.ofNat 32 (arith .add 0 old.toNat x.toNat 0)
      = BitVec.ofNat 32 (wrapInt 32 (intVal true 32 old.toNat + intVal true 32 x.toNat)) := rfl
    _ = old + x := by rw [ofNat_wrapInt, intVal_signed, intVal_signed, BitVec.ofInt_add, BitVec.ofInt_toInt, BitVec.ofInt_toInt]

/-- Words of one value are one word. -/
theorem intVal_word_injective (sg : Bool) : Function.Injective fun w : W32 => intVal sg 32 w.toNat := by
  intro v w h
  cases sg with
  | true => exact BitVec.eq_of_toInt_eq (by simpa only [intVal_signed] using h)
  | false => exact BitVec.eq_of_toNat_eq (Int.ofNat_inj.1 h)

/-- A choice between two words by the order of their keys does not ask which of two equal ones it takes. -/
theorem choose_word {β : Type} [LinearOrder β] {key : W32 → β} (hk : Function.Injective key) (mx : Bool) :
    (if decide (key old < key x) != mx then old else x) = if key old ≤ key x then (if mx then x else old) else if mx then old else x := by
  rcases lt_trichotomy (key old) (key x) with h | h | h
  · cases mx <;> simp [h, h.le]
  · cases hk h
    cases mx <;> simp
  · cases mx <;> simp [h.not_gt, h.not_ge]

/-- The smaller or the larger of two 32-bit integers of a type (R137). -/
theorem lane2_minMax_word (hm : m ≤ 1) (mx : Bool) : lane2 m (minMax mx (BitVec.ofNat 16 m)) old x =
    if intVal (isSigned m) 32 old.toNat ≤ intVal (isSigned m) 32 x.toNat then (if mx then x else old) else if mx then old else x := by
  have h : minMax mx (BitVec.ofNat 16 m) old.toNat x.toNat =
      if decide (intVal (isSigned m) 32 old.toNat < intVal (isSigned m) 32 x.toNat) != mx then old.toNat else x.toNat := by
    interval_cases m <;> rfl
  rw [lane2_word (by omega), h, apply_ite (BitVec.ofNat 32), BitVec.ofNat_toNat, BitVec.ofNat_toNat, BitVec.setWidth_eq,
    BitVec.setWidth_eq]
  exact choose_word (intVal_word_injective (isSigned m)) mx

end Values

/-! ### A leader's atomic (R192 to R195, R222; log entry 16) -/

section Atomic

variable {i : Instr} {c : Ctx} {s s2 s3 : State} {op d a b : BitVec 8} {pl : Nat → Place} {olds : List (Nat × W32)}
  {kills : List Nat}

/-- The atomics, each with its opcode. -/
def IsAtomic (i : Instr) (op d a b : BitVec 8) : Prop :=
  i = .atadd d a b ∧ op = 0xA4 ∨ i = .atmin d a b ∧ op = 0xA5 ∨ i = .atmax d a b ∧ op = 0xA6 ∨ i = .atand d a b ∧ op = 0xA7 ∨
    i = .ator d a b ∧ op = 0xA8 ∨ i = .atxor d a b ∧ op = 0xA9 ∨ i = .atxch d a b ∧ op = 0xAA ∨ i = .atcas d a b ∧ op = 0xAB

theorem IsAtomic.exec_eq (hi : IsAtomic i op d a b) (s : State) : exec i s = atomOp i op d a b s := by
  obtain ⟨rfl, rfl⟩ | ⟨rfl, rfl⟩ | ⟨rfl, rfl⟩ | ⟨rfl, rfl⟩ | ⟨rfl, rfl⟩ | ⟨rfl, rfl⟩ | ⟨rfl, rfl⟩ | ⟨rfl, rfl⟩ := hi
  all_goals rfl

theorem atomOp_badType (h : Issuing i c s) (hop : op.toNat ≤ 0xA6) (ht : 5 ≤ etype c.grp.gmode) :
    atomOp i op d a b s = .next (c.traps s ILLOP 0) :=
  issue_trap h (if_pos (by simp [hop, ht]))

/-- The type check passes, as the model tests it. -/
theorem typeCheck_passes (ht : op.toNat ≤ 0xA6 → etype c.grp.gmode < 5) :
    ¬ (op.toNat ≤ 0xA6 && 5 ≤ etype c.grp.gmode) = true := by
  simpa using ht

theorem lanesOf_isEmpty {m : W32} : (lanesOf m).isEmpty = true ↔ m = 0 := by
  rw [List.isEmpty_iff, List.eq_nil_iff_forall_not_mem, mask_eq_iff]
  simp

/-- A form without a result that finds EM zero commits and signs. -/
theorem atomOp_empty_plain (h : Issuing i c s) (ht : op.toNat ≤ 0xA6 → etype c.grp.gmode < 5) (he : c.em = 0) (hl : c.g.sh = false)
    (hm : c.MayCommit s) (hd : (d != 0xF0) = false) (hr : c.RoomB s) (hr2 : c.RoomB (c.commit s false)) :
    atomOp i op d a b s = .next (c.past
      (c.signedLanes (atomAd c a) (fun k => leBytes ((c.v b).l.lane k).toNat 4) (c.commit s false))) := by
  have hg : s.group? c.g = some c.grp := State.ctx_group h.ctx
  refine issue_ok h ((if_neg (typeCheck_passes ht)).trans ?_)
  simp only [hl, hd, lanesOf_isEmpty.2 he, gateB_room (t := s) hg hr, boundary_commit false hm, instantB_room hr2, bind, Except.bind,
    Except.map, Bool.false_eq_true, if_true, if_false, Bool.not_false, Bool.and_true, Ctx.signedLanes]

/-- A form with a result that finds EM zero commits and completes at once. -/
theorem atomOp_empty_returns (h : Issuing i c s) (ht : op.toNat ≤ 0xA6 → etype c.grp.gmode < 5) (he : c.em = 0) (hl : c.g.sh = false)
    (hm : c.MayCommit s) (hd : (d != 0xF0) = true) (hr : c.RoomA s) (hr2 : c.RoomA (c.commit s false)) :
    atomOp i op d a b s = .next (c.past (c.noneA (c.commit s false))) := by
  have hg : s.group? c.g = some c.grp := State.ctx_group h.ctx
  refine issue_ok h ((if_neg (typeCheck_passes ht)).trans ?_)
  simp only [hl, hd, lanesOf_isEmpty.2 he, gateA_room (t := s) hg hr, boundary_commit false hm, instantA_room hr2, bind, Except.bind,
    Except.map, Bool.false_eq_true, if_true, if_false, Bool.not_true, Bool.and_false]

/-- A leader's atomic with lanes, each of which reaches its location `pl k`, and whose task may be committed: `s2` is the state after
the commit. -/
structure AtomicReaches (i : Instr) (c : Ctx) (s s2 : State) (op a : BitVec 8) (pl : Nat → Place) : Prop where
  issuing : Issuing i c s
  typed : op.toNat ≤ 0xA6 → etype c.grp.gmode < 5
  lanes : c.em ≠ 0
  leader : c.g.sh = false
  reaches : ∀ k ∈ lanesOf c.em, c.Reaches s .store 4 (atomAd c a k) (pl k)
  may : c.MayCommit (s.touch c.bez c.core ((lanesOf c.em).map (atomAd c a)))
  committed : s2 = c.commit (s.touch c.bez c.core ((lanesOf c.em).map (atomAd c a))) false

/-- What the lanes of such an atomic do in ascending order at their locations `ps`: the state, the old values and the killed lanes. -/
def Ctx.actInLanes (c : Ctx) (s : State) (op : BitVec 8) (ret : Bool) (b : BitVec 8) (e : Nat → W32) (ps : List (Nat × Place)) :
    State × List (Nat × W32) × List Nat :=
  atomLanes c op (etype c.grp.gmode) ret (c.v b).l.lane e ps (c.mod s fun g => g.fixLoads (ps.map (·.2)))

/-- The state in which the lanes of an atomic whose locations are poisoned have been killed (R194). -/
def Ctx.killPoisoned (c : Ctx) (s : State) (a : BitVec 8) (kills : List Nat) : State :=
  s.killEach c.g (kills.map fun k => (k, atomAd c a k))

/-- The lanes of a mask that have not been killed. -/
def survivors (m : W32) (kills : List Nat) : W32 := maskOf fun k => m.getLsbD k && !kills.contains k

/-- The register that holds the old values of the lanes (R193). -/
def oldValues (olds : List (Nat × W32)) : Lanes :=
  Lanes.of fun k => match olds.find? fun p => p.1 == k with | some p => p.2 | none => 0

theorem survivors_getLsbD {m : W32} {k : Nat} (hk : k < 32) :
    (survivors m kills).getLsbD k = true ↔ m.getLsbD k = true ∧ k ∉ kills := by
  rw [survivors, getLsbD_maskOf]
  simp [hk]

theorem oldValues_lane {k : Nat} {old : W32} (hk : k < 32) (h : olds.find? (fun p => p.1 == k) = some (k, old)) :
    (oldValues olds).lane k = old := by
  rw [oldValues, Lanes.lane_of _ hk, h]

/-- A form without a result signs the lanes' addresses and data. -/
theorem AtomicReaches.atomOp_plain (h : AtomicReaches i c s s2 op a pl) (hd : (d != 0xF0) = false) (hr : c.RoomB s)
    (ha : c.actInLanes s2 op false b (fun _ => 0) ((lanesOf c.em).map fun k => (k, pl k)) = (s3, olds, kills)) :
    atomOp i op d a b s = .next (c.past
      (c.signedLanes (atomAd c a) (fun k => leBytes ((c.v b).l.lane k).toNat 4) (c.killPoisoned s3 a kills))) := by
  obtain ⟨h, ht, he, hl, hp, hm, rfl⟩ := h
  have hg : s.group? c.g = some c.grp := State.ctx_group h.ctx
  have hne : ¬ (lanesOf c.em).isEmpty = true := mt lanesOf_isEmpty.1 he
  refine issue_ok h ((if_neg (typeCheck_passes ht)).trans ?_)
  rw [Ctx.actInLanes] at ha
  simp only [hl, hd, hne, gateB_room (t := s) hg hr, checkLanes_reach hp, boundary_commit false hm, ha, bind, Except.bind,
    Bool.false_eq_true, Bool.and_false, if_false, Bool.not_false, Bool.and_true, Ctx.signedLanes, Ctx.killPoisoned]

/-- A form with a result is an operation of class a that delivers the old values to the lanes that live. -/
theorem AtomicReaches.atomOp_returns {e : Nat → W32} (h : AtomicReaches i c s s2 op a pl) (hd : (d != 0xF0) = true) (hr : c.RoomA s)
    (he : e = if op = 0xAB then (c.v d).l.lane else fun _ => 0)
    (ha : c.actInLanes s2 op true b e ((lanesOf c.em).map fun k => (k, pl k)) = (s3, olds, kills))
    (hr4 : c.RoomA (c.killPoisoned s3 a kills)) : atomOp i op d a b s = .next (c.past
      (c.opA (c.killPoisoned s3 a kills) [.vec d (survivors c.em kills) (oldValues olds) .g] .ready true)) := by
  obtain ⟨h, ht, hlanes, hl, hp, hm, rfl⟩ := h
  have hg : s.group? c.g = some c.grp := State.ctx_group h.ctx
  have hne : ¬ (lanesOf c.em).isEmpty = true := mt lanesOf_isEmpty.1 hlanes
  refine issue_ok h ((if_neg (typeCheck_passes ht)).trans ?_)
  rw [Ctx.actInLanes, he] at ha
  rw [Ctx.killPoisoned] at hr4
  simp only [hl, hd, hne, gateA_room (t := s) hg hr, checkLanes_reach hp, boundary_commit false hm, ha, issueA_room hr4, bind,
    Except.bind, Bool.false_eq_true, if_false, if_true, Bool.not_true, Bool.and_true, Bool.and_false, decide_eq_true_eq]
  rfl

end Atomic

/-- Settles O32: the new values through the words of one element (`lane2_word`), and a leader's atomic by whether it has lanes
(`AtomicReaches`) and whether it delivers what it has found. -/
theorem atomics : Obligations.Atomics := by
  intro s s1 s2 s3 s4 c d a b pl ps kills olds i op ret e
  refine ⟨fun m old x y => ?values, fun hi h => ⟨fun hop ht => ?_, fun ht he hl hm h2 => ⟨fun hd hr hr2 => ?_, fun hd hr hr2 => ?_⟩,
    fun ht he hl hret hexp hrA hrB hp hps h1 hm h2 ha h4 => ?acts⟩⟩
  case values =>
    refine ⟨lane2_add_word, fun hm => ?_, ?_, ?_, ?_, ?_, rfl, rfl, rfl, rfl, rfl⟩
    · obtain ⟨hty, hrnd, hsat, hftz⟩ := mode_of_etype hm
      exact ⟨hty, hrnd, hsat, hftz, rfl, rfl, rfl⟩
    · exact (lane2_minMax_word (by decide) false).trans (by simp [isSigned, intVal_signed])
    · exact (lane2_minMax_word (by decide) true).trans (by simp [isSigned, intVal_signed])
    · exact (lane2_minMax_word (by decide) false).trans (by simp [isSigned, intVal])
    · exact (lane2_minMax_word (by decide) true).trans (by simp [isSigned, intVal])
  all_goals rw [IsAtomic.exec_eq hi]
  · exact atomOp_badType h hop ht
  · subst h2
    exact atomOp_empty_plain h ht he hl hm (by simp [hd]) hr hr2
  · subst h2
    exact atomOp_empty_returns h ht he hl hm (by simpa using hd) hr hr2
  case acts =>
    subst hps h1 h4
    have hreach : AtomicReaches i c s s2 op a pl := ⟨h, ht, he, hl, hp, hm, h2⟩
    refine ⟨fun hr => ?_, fun hr hr4 => ?_⟩
    · subst hr
      obtain rfl : e = fun _ => 0 := by simpa using hexp
      exact hreach.atomOp_plain hret.symm (hrB rfl) ha
    · subst hr
      exact ⟨_, _, hreach.atomOp_returns hret.symm (hrA rfl) (by simpa using hexp) ha hr4,
        fun k hk => ⟨survivors_getLsbD hk, fun old => oldValues_lane hk⟩⟩

end Sys2Proof.Machine
end

section
/-! SUPPORT. The tile instructions at their issue, and the operation at the head of a matrix queue when it is carried out (R196 to R212,
R361). -/

namespace Sys2Proof.Machine

open Sys2Proof

/-! ### Entering the matrix queue (R197, R198) -/

section Queue

variable {i : Instr} {s : State} {c : Ctx} {w : MWhat} {rows : W32} {always : Bool} {f : Ctx → State → Res}

theorem matrixOp_idle (h : c.g.sh = true ∨ c.em = 0 ∧ always = false) : matrixOp c s w rows always = .ok s :=
  if_pos (by simpa using h)

theorem matrixOp_notIdle (hl : c.g.sh = false) (ha : c.em ≠ 0 ∨ always = true) : ¬ (c.g.sh || (c.em = 0 && !always)) = true := by
  simpa [hl, imp_iff_not_or] using ha

theorem matrixOp_full (hl : c.g.sh = false) (ha : c.em ≠ 0 ∨ always = true) (hq : 8 ≤ c.grp.mq.length) :
    matrixOp c s w rows always = .error (.wait .queue s) :=
  (if_neg (matrixOp_notIdle hl ha)).trans (if_pos hq)

theorem matrixOp_room (hl : c.g.sh = false) (ha : c.em ≠ 0 ∨ always = true) (hq : c.grp.mq.length < 8) :
    matrixOp c s w rows always = .ok (c.mod (enqueue c s c.grp.nextOp w rows none (c.em != 0)) fun g =>
      { g with nextOp := g.nextOp + 1 }) :=
  (if_neg (matrixOp_notIdle hl ha)).trans (if_neg (Nat.not_le.2 hq))

/-- An operation of lanes that are live joins a matrix batch (R199). -/
theorem matrixOp_queued (hl : c.g.sh = false) (he : c.em ≠ 0) (hq : c.grp.mq.length < 8) :
    matrixOp c s w rows always = .ok (c.queued s w rows) := by
  rw [matrixOp_room hl (.inl he) hq, bne_iff_ne.2 he]
  rfl

/-- The outcome `o` is that of a tile instruction whose operation is `w` and whose own checks pass. -/
structure Ctx.EntersQueue (c : Ctx) (s : State) (w : MWhat) (o : Host.Outcome State Fault Refusal) : Prop where
  idle : c.g.sh = true ∨ c.em = 0 → o = .next (c.past s)
  full : c.g.sh = false → c.em ≠ 0 → 8 ≤ c.grp.mq.length → o = .next (c.waits s .queue)
  room : c.g.sh = false → c.em ≠ 0 → c.grp.mq.length < 8 → o = .next (c.past (c.queued s w c.em))

theorem issue_entersQueue (h : Issuing i c s) (hf : f c s = matrixOp c s w c.em false) : c.EntersQueue s w (issue i s f) where
  idle hi := issue_ok h (hf.trans (matrixOp_idle (hi.imp_right fun he => ⟨he, rfl⟩)))
  full hl he hq := issue_wait h (hf.trans (matrixOp_full hl (.inl he) hq))
  room hl he hq := issue_ok h (hf.trans (matrixOp_queued hl he hq))

/-- The words of an operand are checked for a leader with lanes; where the check passes, or is not made, the instruction goes on. -/
theorem checked_goesOn {x : Except Stop Unit} {k : Res} (hx : c.em ≠ 0 → c.g.sh = false → x = .ok ()) :
    (if (decide (c.em ≠ 0) && !c.g.sh) = true then x >>= fun _ => k else k) = k := by
  split
  · next hc =>
    simp only [Bool.and_eq_true, decide_eq_true_eq, Bool.not_eq_true'] at hc
    rw [hx hc.1 hc.2]
    rfl
  · rfl

end Queue

/-! ### `tld`, `mma` and `tst` (R200 to R205, R207) -/

section Operands

variable {s s1 : State} {c : Ctx} {t : BitVec 4} {a b : BitVec 8}

theorem execTld_entersQueue (h : Issuing (.tld t a) c s) (hd : checkDescs c [a] = .ok ())
    (hw : c.em ≠ 0 → c.g.sh = false → checkWords c s .load ((tileRows (c.desc a) c.em).flatMap (rangeWords (c.desc a))) = .ok ()) :
    c.EntersQueue s (.tld t.toNat (c.desc a)) (execTld t a s) := by
  refine issue_entersQueue h ?_
  simp only [hd]
  exact checked_goesOn hw

theorem execMma_entersQueue (h : Issuing (.mma t a b) c s) (hd : checkDescs c [a, b] = .ok ())
    (hp : (pairing (c.desc a).fslot (c.desc b).fslot).isSome = true)
    (hw : c.em ≠ 0 → c.g.sh = false → checkWords c s .load ((blockA (c.desc a) c.em 0).flatMap (rangeWords (c.desc a)) ++
      (blockB (c.desc b) 0).flatMap (rangeWords (c.desc b))) = .ok ()) :
    c.EntersQueue s (.mma t.toNat (c.desc a) (c.desc b)) (execMma t a b s) := by
  have hn : ¬ (pairing (c.desc a).fslot (c.desc b).fslot).isNone = true := by simpa using Option.isSome_iff_ne_none.1 hp
  refine issue_entersQueue h ?_
  simp only [hd]
  exact (if_neg hn).trans (checked_goesOn hw)

/-- Two formats that make no pair trap (R202). -/
theorem execMma_unpaired (h : Issuing (.mma t a b) c s) (hd : checkDescs c [a, b] = .ok ())
    (hp : pairing (c.desc a).fslot (c.desc b).fslot = none) : execMma t a b s = .next (c.traps s ILLOP 0) := by
  refine issue_trap h ?_
  simp only [hd]
  exact if_pos (Option.isNone_iff_eq_none.2 hp)

/-- The operation of a `tst`, with the rounding that stands at its issue (R207). -/
def Ctx.tstWhat (c : Ctx) (t : BitVec 4) (a : BitVec 8) : MWhat := .tst t.toNat (c.desc a) (rnd c.grp.gmode) (ftzBit c.grp.gmode)

theorem execTst_leader (h : Issuing (.tst t a) c s) (hd : checkDescs c [a] = .ok ()) (he : c.em ≠ 0)
    (hu : countUnits c s (tstPlaces c s (c.desc a)) = .ok s1) (hl : c.g.sh = false) (hq : c.grp.mq.length < 8)
    (hw : checkWords c s .store (((tileRows (c.desc a) c.em).flatMap (tstWords (c.desc a) c.em)).map (·.2)) = .ok ()) :
    execTst t a s = .next (c.past (c.queued s1 (c.tstWhat t a) c.em)) := by
  refine issue_ok h ?_
  simp only [hd, hw, hu, he, hl, Nat.not_le.2 hq, decide_false, Bool.and_false, Bool.not_false, Bool.false_eq_true, if_true, if_false,
    bind, Except.bind]
  exact matrixOp_queued hl he hq

/-- A shadow counts the units, and queues nothing (R198, R285). -/
theorem execTst_shadow (h : Issuing (.tst t a) c s) (hd : checkDescs c [a] = .ok ()) (he : c.em ≠ 0)
    (hu : countUnits c s (tstPlaces c s (c.desc a)) = .ok s1) (hsh : c.g.sh = true) : execTst t a s = .next (c.past s1) := by
  refine issue_ok h ?_
  simp only [hd, hu, he, hsh, Bool.not_true, Bool.false_and, Bool.false_eq_true, if_false, bind, Except.bind]
  exact matrixOp_idle (.inl hsh)

theorem execTst_empty (h : Issuing (.tst t a) c s) (hd : checkDescs c [a] = .ok ()) (he : c.em = 0) :
    execTst t a s = .next (c.past s) := by
  refine issue_ok h ?_
  simp only [hd]
  exact (if_pos he).trans (matrixOp_idle (.inr ⟨he, rfl⟩))

end Operands

/-! ### `tcolr`, `mfence` and `rprd` (R210 to R212) -/

section Others

variable {s : State} {c : Ctx} {u : BitVec 4} {d col : BitVec 8}

theorem execTcolr_empty (h : Issuing (.tcolr d u col) c s) (hl : c.g.sh = false) (he : c.em = 0) (hr : c.RoomA s) :
    execTcolr d u col s = .next (c.past (c.noneA s)) := by
  refine issue_ok h ?_
  simp only [classA, hl, Bool.false_eq_true, if_false, he, if_true, instantA_room hr]

theorem execTcolr_queued (h : Issuing (.tcolr d u col) c s) (hl : c.g.sh = false) (he : c.em ≠ 0) (hq : c.grp.mq.length < 8)
    (hr : c.RoomA s) : execTcolr d u col s = .next (c.past (enqueue c
      (c.opA s [.vec d c.em (Lanes.splat 0) .g] (.matrix c.grp.nextOp) false) c.grp.nextOp (.tcolr u.toNat col.toNat) c.em
      (some c.grp.nextOp) false)) := by
  refine issue_ok h ?_
  simp only [classA, hl, Bool.false_eq_true, if_false, he, Nat.not_le.2 hq, issueA_room hr, bind, Except.bind]

theorem execMfence_shadow (h : Issuing .mfence c s) (hsh : c.g.sh = true) : execMfence s = .next (c.past s) :=
  issue_ok h (if_pos hsh)

theorem execMfence_waits (h : Issuing .mfence c s) (hl : c.g.sh = false) (hq : c.grp.mq ≠ []) :
    execMfence s = .next (c.waits s .mfence) :=
  issue_wait h (by simp [hl, hq])

/-- Once the queue is empty, the open batch closes, and `mbat` stands at its number. -/
theorem execMfence_passes (h : Issuing .mfence c s) (hl : c.g.sh = false) (hq : c.grp.mq = []) :
    execMfence s = .next (c.past (c.mod s fun g =>
      ({ g with lastBatch := g.lastBatch + (if c.cl.issuedM then 1 else 0), mbat := g.lastBatch + (if c.cl.issuedM then 1 else 0),
                acquire := max g.acquire s.stepNo } : Group).modClause fun cl => { cl with issuedM := false })) := by
  refine issue_ok h ?_
  cases hm : c.cl.issuedM <;> simp [hl, hq]

/-- What `rprd` reads by its number `n` (R212). -/
def Ctx.progress (c : Ctx) (s : State) (n : Nat) : W64 :=
  match n with
  | 0 => BitVec.ofNat 64 c.grp.rp
  | 1 => BitVec.ofNat 64 (popc (s.fenced c.core (c.g.grp % 4)).toNat 16)
  | 2 => BitVec.ofNat 64 c.grp.mq.length
  | 3 => c.grp.lastBatch.setWidth 64
  | _ => c.grp.mbat.setWidth 64

theorem Ctx.progress_toNat (hc : col.toNat ≤ 4) : c.progress s col.toNat =
    if col = 0 then BitVec.ofNat 64 c.grp.rp else if col = 1 then BitVec.ofNat 64 (popc (s.fenced c.core (c.g.grp % 4)).toNat 16)
    else if col = 2 then BitVec.ofNat 64 c.grp.mq.length else if col = 3 then c.grp.lastBatch.setWidth 64
    else c.grp.mbat.setWidth 64 := by
  have hcol : col = 0 ∨ col = 1 ∨ col = 2 ∨ col = 3 ∨ col = 4 := by bv_omega
  obtain rfl | rfl | rfl | rfl | rfl := hcol <;> rfl

theorem execRprd_eq : execRprd d col s = issue (.rprd d col) s (fun c s => do
    let (s1, v) ← readPassed c s (c.progress s col.toNat)
    .ok (c.mod s1 fun g => g.resultS d v)) := rfl

/-- A leader passes on what it has read (log entry 50). -/
theorem execRprd_leader (h : Issuing (.rprd d col) c s) (hl : c.g.sh = false) : execRprd d col s =
    .next (c.scal (passSide c s [c.progress s col.toNat]) d (c.progress s col.toNat)) :=
  execRprd_eq.trans (issue_ok h (by simp [readPassed, hl, bind, Except.bind]))

theorem execRprd_shadow {ld : Group} {v : W64} {rest : List W64} (h : Issuing (.rprd d col) c s) (hs : c.g.sh = true)
    (hg : s.group? c.g.leader = some ld) (hside : ld.side = v :: rest) : execRprd d col s =
      .next (c.scal (s.modGroup c.g.leader fun g => { g with side := g.side.drop 1 }) d v) :=
  execRprd_eq.trans (issue_ok h (by simp [readPassed, takeSide, hs, hg, hside, bind, Except.bind]))

end Others

/-- Settles O33: the tile instructions by what they check before they enter the queue (`Ctx.EntersQueue`), and `tst`, `stest`, `tcolr`,
`mfence` and `rprd` by a lemma for each outcome. -/
theorem tileInstructions : Obligations.TileInstructions := by
  intro s s1 c t u f g d a b col i w
  refine ⟨fun hi h => ?enters, execMma_unpaired, fun h hd he hu => ?tst, execTst_empty, fun h => ?stest, fun h hl => ?tcolr,
    fun h => ?mfence, fun h hc => ?rprd⟩
  case enters =>
    suffices hq : c.EntersQueue s w (exec i s) from ⟨hq.idle, hq.full, hq.room⟩
    obtain ⟨rfl, rfl⟩ | ⟨rfl, rfl⟩ | ⟨rfl, rfl⟩ | ⟨rfl, rfl⟩ | ⟨rfl, rfl, hd, hw⟩ | ⟨rfl, rfl, hd, hp, hw⟩ := hi
    · exact issue_entersQueue h rfl
    · exact issue_entersQueue h rfl
    · exact issue_entersQueue h rfl
    · exact issue_entersQueue h rfl
    · exact execTld_entersQueue h hd hw
    · exact execMma_entersQueue h hd hp hw
  case tst =>
    have hcount : countUnits c s (tstPlaces c s (c.desc a)) = .ok s1 := by
      obtain ⟨hfit, rfl⟩ | hu := hu
      · exact countUnits_fit hfit
      · exact hu
    exact ⟨execTst_leader h hd he hcount, execTst_shadow h hd he hcount⟩
  case stest =>
    exact ⟨fun hs => issue_ok h (matrixOp_idle (.inl hs)), fun hl hq => issue_wait h (matrixOp_full hl (.inr rfl) hq),
      fun hl hq => issue_ok h (matrixOp_room hl (.inr rfl) hq)⟩
  case tcolr => exact ⟨execTcolr_empty h hl, execTcolr_queued h hl⟩
  case mfence => exact ⟨execMfence_shadow h, execMfence_waits h, execMfence_passes h⟩
  case rprd =>
    refine ⟨fun v hl hv => ?_, fun ld v rest => execRprd_shadow h⟩
    rw [← Ctx.progress_toNat hc] at hv
    subst hv
    exact execRprd_leader h hl

/-! ### MATRIX_OP_COMPLETE (R197, R361) -/

theorem State.ctxAt_g {s : State} {r : GRef} {hdr : VA} {c : Ctx} (h : s.ctxAt r hdr = some c) : c.g = r := by
  unfold State.ctxAt at h
  split at h
  · cases h
  · split at h
    · obtain ⟨k, -, rfl⟩ := Option.map_eq_some_iff.1 h
      rfl
    · cases h

section Complete

variable {s s0 s1 : State} {r : GRef} {c : Ctx} {m : MOp} {rest : List MOp} {rows : W32}

/-- MATRIX_OP_COMPLETE finds operation `m` at the head of the queue of group `r`, whose team runs and whose unit works, and no self-test
fails. In `s0` the lanes of the failed rows that `m` reads have been killed, and `rows` are the rows left (R361). -/
structure HeadRuns (s s0 : State) (r : GRef) (c : Ctx) (m : MOp) (rest : List MOp) (rows : W32) : Prop where
  input : s.input = some (.matrixOpComplete r 0 none)
  ctx : s.ctxAt r 0 = some c
  head : c.grp.mq = m :: rest
  noFault : m.fault = none
  noMigr : m.migr = false
  live : c.team.ended = false
  running : c.team.ctx = .running
  works : (s.subFence c.core (r.grp % 4)).whole = false
  killed : s0 = if c.grp.badRows m = 0 then s else s.killLanes r (c.grp.badRows m) 0
  left : rows = m.rows &&& ~~~ c.grp.badRows m

/-- An operation of the collective engine is none of the unit's. -/
theorem HeadRuns.exec_coll (h : HeadRuns s s0 r c m rest rows) {n k : Nat} (hw : m.what = .coll n k) :
    exec .matrixOpComplete s = .refused (.notEnabled "MATRIX_OP_COMPLETE") := by
  refine eventStep_refused ?_
  rw [h.input, Option.bind_some]
  simp only [State.matrixStep, h.ctx, h.head, hw, Bool.true_or, if_true]

/-- How the step ends when the run of the operation has left state `s1` and no stop, or a stop at PROT or RANK (R205). -/
theorem HeadRuns.exec_eq (h : HeadRuns s s0 r c m rest rows) (hw : ∀ n k, m.what ≠ .coll n k) {e : Option EngineStop} {u : State}
    (hrun : runMatrix c s0 { m with rows := rows } (s.fenced c.core (r.grp % 4)) 0 = (s1, e))
    (hu : e = none ∧ u = s1.modGroup r Group.popMatrix ∨
      ∃ code va, e = some (.prot code va) ∧ u = s1.trapMatrix c m code va) :
    exec .matrixOpComplete s = .next u := by
  refine eventStep_ok h.input ?_
  have hparked : m.parked = false := by simp [MOp.parked, h.noFault, h.noMigr]
  have hon : c.team.onCore = true := by simp [Team.onCore, h.live, h.running]
  have hstop : (c.team.ctx == .stopping) = false := by simp [h.running]
  have hnone : ((0 : BitVec 16) &&& s.fenced c.core (r.grp % 4) != 0) = false := by simp
  obtain rfl : c.g = r := State.ctxAt_g h.ctx
  rw [h.killed, h.left] at hrun
  simp only [State.matrixStep, h.ctx, h.head, hparked, hon, hstop, h.works, hnone, bne_self_eq_false, hrun,
    Bool.not_true, Bool.false_and, Bool.or_false, Bool.false_eq_true, if_false]
  obtain ⟨rfl, rfl⟩ | ⟨code, va, rfl, rfl⟩ := hu <;> rfl

end Complete

section Run

variable {s s1 : State} {c : Ctx} {m : MOp} {t : Nat} {before failed : BitVec 16}

theorem runMatrix_tzero (hw : m.what = .tzero t) :
    runMatrix c s m before failed = (tileResult c.g s t m.rows fun _ => Lanes.splat 0, none) := by
  simp only [runMatrix, hw]

theorem runMatrix_tcolw {n : Nat} {l : Lanes} (hw : m.what = .tcolw t n l) : runMatrix c s m before failed =
    (tileResult c.g s t m.rows fun i => Lanes.of fun j => if j = n then l.lane i else ((c.grp.tile t).row i).lane j, none) := by
  simp only [runMatrix, hw]

theorem runMatrix_tscale {col : Bool} {l : Lanes} (hw : m.what = .tscale t col l) : runMatrix c s m before failed =
    (tileResult c.g s t m.rows fun i => Lanes.of fun j => BitVec.ofNat 32 (f32.round 0 false false
      (Flo.mul (f32.dec false (((c.grp.tile t).row i).lane j).toNat) (f32.dec false (l.lane (if col then j else i)).toNat))), none) := by
  simp only [runMatrix, hw]

theorem runMatrix_tcvt {u f g : Nat} {gm : BitVec 16} (hw : m.what = .tcvt t u f g gm) : runMatrix c s m before failed =
    (tileResult c.g s t m.rows fun i => Lanes.of fun j =>
      BitVec.ofNat 32 (convertE gm f g (((c.grp.tileFor m u).row i).lane j).toNat), none) := by
  simp only [runMatrix, hw]

theorem runMatrix_tld {d : Desc} (hw : m.what = .tld t d) (hr : runTld c s m t d = .ok s1) :
    runMatrix c s m before failed = (s1, none) := by
  simp only [runMatrix, hw, hr]

theorem runMatrix_tld_stops {d : Desc} {e : EngineStop} (hw : m.what = .tld t d) (hr : runTld c s m t d = .error e) :
    runMatrix c s m before failed = (s, some e) := by
  simp only [runMatrix, hw, hr]

theorem runMatrix_tst {d : Desc} {q : Nat} {z : Bool} (hw : m.what = .tst t d q z) (hr : runTst c s m t d q z = .ok s1) :
    runMatrix c s m before failed = (s1, none) := by
  simp only [runMatrix, hw, hr]

end Run

/-- What a tile holds after a write, in its task and when that ends (R196). -/
theorem Tile.store_spec (x : Tile) (b : TileBuf) : (x.store b).val = b ∧ (x.store b).committed = x.committed ∧
    (x.store b).flip.committed = b ∧ (x.store b).undo.committed = x.committed := by
  cases hc : x.cur <;> simp [Tile.store, Tile.val, Tile.committed, Tile.flip, Tile.undo, hc]

/-- Settles O34: the step ends as the run of its operation leaves it (`HeadRuns.exec_eq`), and what that run writes is one case of
`runMatrix` for each operation. -/
theorem tileOperations : Obligations.TileOperations := by
  intro s s0 s1 r c m rest bad rows hin hctx hmq hf hmg hend hrun hwhole hbad hrows hs0
  subst hbad
  have h : HeadRuns s s0 r c m rest rows := ⟨hin, hctx, hmq, hf, hmg, hend, hrun, hwhole, hs0, hrows⟩
  have hdone : ∀ {u : State}, (∀ n k, m.what ≠ .coll n k) →
      runMatrix c s0 { m with rows := rows } (s.fenced c.core (r.grp % 4)) 0 = (u, none) →
      exec .matrixOpComplete s = .next (u.modGroup r Group.popMatrix) :=
    fun hw hr => h.exec_eq hw hr (.inl ⟨rfl, rfl⟩)
  obtain rfl : c.g = r := State.ctxAt_g hctx
  exact ⟨fun ⟨n, k, hw⟩ => h.exec_coll hw, fun t hw => hdone (by simp [hw]) (runMatrix_tzero hw),
    fun t n l hw => hdone (by simp [hw]) (runMatrix_tcolw hw), fun t col l hw => hdone (by simp [hw]) (runMatrix_tscale hw),
    fun t u f g gm hw => hdone (by simp [hw]) (runMatrix_tcvt hw), fun t d hw ht => hdone (by simp [hw]) (runMatrix_tld hw ht),
    fun t d q z hw ht => hdone (by simp [hw]) (runMatrix_tst hw ht),
    fun t d code va hw ht => h.exec_eq (by simp [hw]) (runMatrix_tld_stops hw ht) (.inr ⟨code, va, rfl, rfl⟩), Tile.store_spec⟩

end Sys2Proof.Machine
end

section
/-! SUPPORT. The program words of the pavé engines (R235, R341, R345, R346, R348; log entry 23). -/

namespace Sys2Proof.Machine

open Sys2Proof

/-! ### A word that an engine runs (R341, R346, R348) -/

/-- The engine of a channel bears the channel's number. -/
theorem State.engine_chan (s : State) (ch : Nat) : (s.engine ch).chan = ch := by
  unfold State.engine
  cases h : s.engines.find? (fun e => e.chan == ch) with
  | none => rfl
  | some e => simpa using List.find?_some h

/-- What a change makes of the engine is all that counts of it. -/
theorem State.modEngine_congr {s : State} {ch : Nat} {f g : PvEngine → PvEngine} (h : f (s.engine ch) = g (s.engine ch)) :
    s.modEngine ch f = s.modEngine ch g := by
  simp only [State.modEngine, h]

section Words

variable {s t : State} {ch : Nat} {e : PvEngine} {p : PvCmd} {tm : Team} {k : Kernel} {z : Bezel} {f : PvEngine → PvCmd → State → PvRes}

theorem State.PvAt.chan (h : s.PvAt ch e p) : e.chan = ch := h.engine ▸ s.engine_chan ch

/-- A word that does its work lets its engine go on. -/
theorem State.PvAt.goesOn (h : s.PvAt ch e p) (hf : f e p s = .next t) : pvWord s f = .next (t.pvOn ch) := by
  simp [pvWord, h.cur, h.engine, h.cmd, h.running, hf, State.pvOn]

/-- A word that errs ends its engine's program with the code of the error (R348). -/
theorem State.PvAt.errs {code : Nat} (h : s.PvAt ch e p) (hf : f e p s = .err code t) : pvWord s f = .next (t.pvEnd ch p.id code) := by
  simp [pvWord, h.cur, h.engine, h.cmd, h.running, hf]

theorem State.PvAt.ends (h : s.PvAt ch e p) (hf : f e p s = .done t) : pvWord s f = .next (t.pvEnd ch p.id 0) := by
  simp [pvWord, h.cur, h.engine, h.cmd, h.running, hf]

theorem State.PvAt.stops {x : EngineStop} (h : s.PvAt ch e p) (ho : s.owner? p.by_ = some (tm, k, z)) (hf : f e p s = .stop x) :
    pvWord s f = .next (s.pvStop ch p tm x) := by
  simp [pvWord, h.cur, h.engine, h.cmd, h.running, hf, ho]

theorem execPvNop_goesOn (h : s.PvAt ch e p) : execPvNop s = .next (s.pvOn ch) := h.goesOn rfl

/-- `pv.sync` waits for nothing (log entry 23). -/
theorem execPvSync_goesOn (h : s.PvAt ch e p) : execPvSync s = .next (s.pvOn ch) := h.goesOn rfl

theorem execPvEnd_ends (h : s.PvAt ch e p) : execPvEnd s = .next (s.pvEnd ch p.id 0) := h.ends rfl

theorem paveIllword_errs (h : s.PvAt ch e p) : paveIllword s = .next (s.pvEnd ch p.id 1) := h.errs rfl

/-! ### The vector (R346) -/

theorem execPvVec_range {u n : BitVec 14} (h : s.PvAt ch e p) (hl : prVlen p.record < u.toNat + n.toNat + 1) :
    execPvVec u n s = .next (s.pvEnd ch p.id 2) :=
  h.errs (if_pos hl)

theorem execPvVec_poison {u n : BitVec 14} (h : s.PvAt ch e p) (hl : u.toNat + n.toNat < prVlen p.record) (hp : p.vecPoison = true) :
    execPvVec u n s = .next (s.pvEnd ch p.id 4) :=
  h.errs ((if_neg (Nat.not_lt.2 hl)).trans (if_pos hp))

theorem execPvVec_loads {u n : BitVec 14} (h : s.PvAt ch e p) (hl : u.toNat + n.toNat < prVlen p.record) (hp : p.vecPoison = false) :
    execPvVec u n s =
      .next ((s.modEngine ch fun x => { x with buf := (p.vec.drop u.toNat).take (n.toNat + 1), vcnt := n.toNat + 1 }).pvOn ch) :=
  h.chan ▸ h.goesOn ((if_neg (Nat.not_lt.2 hl)).trans (if_neg (by simp [hp])))

/-! ### The page (R344, R347; log entry 23) -/

section Page

variable {g : W32} {rb : Nat} {w : Nat → State → PvRes}

theorem withPage_empty (hf : s.filling p.pagePa = false) (hg : s.pvGen p = none) : withPage s p w = .err 6 s := by
  simp [withPage, hf, hg]

/-- The first word that uses the page fixes the generation. -/
theorem withPage_fits (hf : s.filling p.pagePa = false) (hg : s.pvGen p = some (g, rb)) (hk : krowFits p.fslot (prKrow p.record) rb = true) :
    withPage s p w = w rb (s.modPv p.id fun x => { x with gen := some (g, rb) }) := by
  simp [withPage, hf, hg, hk]

theorem execPvRows_empty {u : BitVec 15} {n : BitVec 10} (h : s.PvAt ch e p) (hf : s.filling p.pagePa = false) (hg : s.pvGen p = none) :
    execPvRows u n s = .next (s.pvEnd ch p.id 6) :=
  h.errs (withPage_empty hf hg)

theorem execPvRows_fits {u : BitVec 15} {n : BitVec 10} (h : s.PvAt ch e p) (hf : s.filling p.pagePa = false)
    (hg : s.pvGen p = some (g, rb)) (hk : krowFits p.fslot (prKrow p.record) rb = true)
    (ht : t = s.modPv p.id fun x => { x with gen := some (g, rb) }) :
    execPvRows u n s = .next (if 2 ^ 15 / 2 ^ rb < u.toNat + (n.toNat + 1) then t.pvEnd ch p.id 2
      else (t.modEngine ch fun x => { x with rbase := u.toNat, nr := n.toNat + 1, acc := [] }).pvOn ch) := by
  subst ht
  split
  next hr => exact h.errs ((withPage_fits hf hg hk).trans (if_pos hr))
  next hr => exact h.chan ▸ h.goesOn ((withPage_fits hf hg hk).trans (if_neg hr))

/-! ### Accumulation (R346) -/

theorem execPvMac_range {u n : BitVec 14} (h : s.PvAt ch e p) (hr : prKrow p.record < 16 * u.toNat + (n.toNat + 1) ∨ e.vcnt < n.toNat + 1) :
    execPvMac u n s = .next (s.pvEnd ch p.id 2) :=
  h.errs (if_pos (by simpa using hr))

/-- The weights of every own row have been read, and each is added to its row's accumulator. -/
theorem execPvMac_adds {u n : BitVec 14} {ds : W64} {ws : Nat → List Nat} (h : s.PvAt ch e p)
    (hr : 16 * u.toNat + (n.toNat + 1) ≤ prKrow p.record) (hv : n.toNat + 1 ≤ e.vcnt) (hf : s.filling p.pagePa = false)
    (hg : s.pvGen p = some (g, rb)) (hk : krowFits p.fslot (prKrow p.record) rb = true) (hz : s.bezel? p.by_.bezel = some z)
    (ht : t = s.modPv p.id fun x => { x with gen := some (g, rb) }) (hd : ds = t.idesc z (leafIdesc p.leaf.raw))
    (hw : ∀ j ∈ ownRows e ds rb, t.weights z p rb (e.rbase + j) (16 * u.toNat) (n.toNat + 1) = some (ws j)) :
    execPvMac u n s = .next ((t.modEngine ch fun x => { x with acc := (ownRows e ds rb).foldl (fun acc j =>
      mapPut 0 acc j (macRow p.fslot (ws j) x.buf ((n.toNat + 1 + 15) / 16) 0 (mapGet 0 acc j))) x.acc }).pvOn ch) := by
  have hrows : ((ownRows e ds rb).map fun j => (j, t.weights z p rb (e.rbase + j) (16 * u.toNat) (n.toNat + 1))) =
      (ownRows e ds rb).map fun j => (j, some (ws j)) := List.map_congr_left fun j hj => by rw [hw j hj]
  have hin : ¬(decide (prKrow p.record < 16 * u.toNat + (n.toNat + 1)) || decide (e.vcnt < n.toNat + 1)) = true := by
    simpa using ⟨hr, hv⟩
  have hbez : t.bezel? p.by_.bezel = some z := by rw [ht]; exact hz
  refine h.goesOn ((if_neg hin).trans ((withPage_fits hf hg hk).trans ?_))
  simp [← ht, hbez, ← hd, hrows, h.chan, List.foldl_map]

end Page

theorem execPvScale_scales {x : BitVec 16} (h : s.PvAt ch e p) : execPvScale x s =
    .next ((s.modEngine ch fun q => { q with acc := (s.pvOwn e p).foldl (fun acc j => mapPut 0 acc j (BitVec.ofNat 32
      (f32.round 0 false false (Flo.mul (f32.dec false (mapGet 0 acc j).toNat) (bf16.dec false x.toNat))))) q.acc }).pvOn ch) :=
  h.goesOn (congrArg PvRes.next (h.chan ▸ State.modEngine_congr (by rw [h.chan, h.engine])))

/-! ### Outputs (R235, R346; log entry 23) -/

theorem execPvOut_writes {l : List (Place × W32)} (h : s.PvAt ch e p) (ho : s.owner? p.by_ = some (tm, k, z))
    (hp : s.outPlaces tm k z (prOut p.record) e (s.openRows e p) = .ok l) :
    execPvOut s = .next ((s.copyWrite p.by_ (l.map fun x => (x.1, some (leBytes x.2.toNat 4)))).pvOn ch) :=
  h.goesOn (by simp [ho, hp, State.writeOut])

/-- While one of its words cannot be written, `pv.out` writes none. -/
theorem execPvOut_stops {x : EngineStop} (h : s.PvAt ch e p) (ho : s.owner? p.by_ = some (tm, k, z))
    (hp : s.outPlaces tm k z (prOut p.record) e (s.openRows e p) = .error x) : execPvOut s = .next (s.pvStop ch p tm x) :=
  h.stops ho (by simp [ho, hp])

theorem execPvOut_unowned (h : s.PvAt ch e p) (ho : s.owner? p.by_ = none) : execPvOut s = .next (s.pvOn ch) :=
  h.goesOn (by simp [ho])

/-- The words of one sector, ahead of the `pv.out` that is next. -/
theorem State.PvAt.paveSector_writes {n : Nat} {l : List (Place × W32)} (h : s.PvAt ch e p) (ho : s.owner? p.by_ = some (tm, k, z))
    (hw : bits e.word.toNat 31 0 = 0x50000000) (hn : (s.openRows e p).filter (fun j => outSector (prOut p.record) e j == n) ≠ [])
    (hp : s.outPlaces tm k z (prOut p.record) e ((s.openRows e p).filter fun j => outSector (prOut p.record) e j == n) = .ok l) :
    s.paveSector ch n = some ((s.copyWrite p.by_ (l.map fun x => (x.1, some (leBytes x.2.toNat 4)))).modEngine ch
      fun x => { x with outs := n :: x.outs }) := by
  simp only [State.paveSector, h.engine, h.cmd]
  rw [if_neg (by simpa [h.running, hw] using hn)]
  simp [ho, hp, State.writeOut]

end Words

/-- Settles O52: a word through what it answers its engine (`State.PvAt.goesOn`, `State.PvAt.errs`), the words that use the page
through the generation that they fix (`withPage_fits`), `pv.out` through the places of its words. -/
theorem paveWords : Obligations.PaveWords := by
  intro s s1 ch e p tm k z h
  exact ⟨execPvNop_goesOn h, execPvSync_goesOn h, execPvEnd_ends h, paveIllword_errs h,
    fun u n => ⟨execPvVec_range h, execPvVec_poison h, execPvVec_loads h⟩,
    fun u n g rb hf => ⟨execPvRows_empty h hf, execPvRows_fits h hf⟩,
    fun u n g rb w ds => ⟨execPvMac_range h, fun hr hv hf hg hk hz => execPvMac_adds h hr hv hf hg hk hz⟩,
    fun x => execPvScale_scales h,
    fun ho => ⟨fun out => execPvOut_writes h ho, fun x => execPvOut_stops h ho⟩, execPvOut_unowned h,
    fun n js out ho _ hw hjs hn hp => by subst hjs; exact h.paveSector_writes ho hw hn hp⟩

end Sys2Proof.Machine
end

section
/-! SUPPORT. The Locket and the capability list, `tlbinv` and `fltret`, the host, and resets (R163, R164, R224, R352, R359, R364 to
R374; log entries 9 and 25). -/

namespace Sys2Proof.Machine

open Sys2Proof

/-! ### `locketw` and `caprd` (R365, R370, R371) -/

section Instructions

variable {s s1 t : State} {c : Ctx} {d a f : BitVec 8}

theorem execLocketw_held {k : BitVec 8} (h : Issuing (.locketw d a k) c s) (hl : c.g.sh = false) (hr : c.RoomB s) :
    execLocketw d a k s = .next (c.past (sign c (c.held s (.locketw k (c.s a) (c.s d))) [c.s d, c.s a])) := by
  refine issue_ok h ?_
  simp [classB, hl, gateB_room (t := s) (State.ctx_group h.ctx) hr, defer_room hr, bind, Except.bind]

theorem execCaprd_misaligned (h : Issuing (.caprd d a f) c s) (hl : c.g.sh = false) (ha : (c.s a).toNat % 16 ≠ 0) :
    execCaprd d a f s = .next (c.traps s ALIGN (c.s a)) :=
  issue_trap h (by simp [classA, hl, ha])

theorem execCaprd_reads (h : Issuing (.caprd d a f) c s) (hl : c.g.sh = false) (ha : (c.s a).toNat % 16 = 0) (hr : c.RoomA s) :
    execCaprd d a f s = .next (c.past (c.opA s [.scal (sdstNum d)
      (if 0x100 ≤ (c.s a).toNat ∧ (c.s a).toNat ≤ 0xFF0 then s.capWord (c.s a).toNat f.toNat else 0)] .ready false)) := by
  refine issue_ok h ?_
  simp [classA, hl, ha, gateA_room (t := s) (State.ctx_group h.ctx) hr, issueA_room hr, bind, Except.bind]

/-- The second doubleword of each of the eight headers holds the data of its capability. -/
theorem State.capWord_second (s : State) (off : Nat) :
    s.capWord off 1 = if 0x100 ≤ off ∧ (off - 0x100) / 16 < 8 then s.capData ((off - 0x100) / 16 + 1) else 0 := by
  unfold State.capWord
  by_cases hin : 0x100 ≤ off ∧ (off - 0x100) / 16 < 8
  · rw [if_pos hin, if_neg (by simp; omega), if_pos rfl]
  · rw [if_neg hin, if_pos (by simp; omega)]

/-! ### `tlbinv` and `fltret` (R366, R374) -/

/-- A shadow commits, and signs the operand. -/
theorem exec_invOrReturn_shadow {i : Instr} (hi : i = .tlbinv a f ∨ i = .fltret a ∧ bits (c.s a).toNat 63 32 = 0) (h : Issuing i c s)
    (hs : c.g.sh = true) (hm : c.MayCommit s) : exec i s = .next (c.past (sign c (c.commit s false) [c.s a])) := by
  obtain rfl | ⟨rfl, hb⟩ := hi
  · exact issue_ok h (by simp [hs, boundary_commit false hm, bind, Except.bind])
  · exact issue_ok h (by simp [hs, hb, boundary_commit false hm, bind, Except.bind])

section AfterStores

variable {w : OpWhat} {g : State → State}

theorem afterStores_waits (hm : c.MayCommit s) (hs : s1 = (c.commit s false).publish c.g c.core 3) (hp : s1.hasPosted c.g 4 = true) :
    afterStores c s w g = .error (.wait (.posted 4) s1) := by
  subst hs
  simp [afterStores, boundary_commit false hm, hp, bind, Except.bind]

theorem afterStores_applies (hm : c.MayCommit s) (hs : s1 = (c.commit s false).publish c.g c.core 3) (hp : s1.hasPosted c.g 4 = false)
    (hr : c.RoomB (g s1)) : afterStores c s w g = .ok (c.opB (g s1) w) := by
  subst hs
  simp [afterStores, boundary_commit false hm, hp, issueB_room hr, bind, Except.bind]

end AfterStores

theorem execTlbinv_outside (h : Issuing (.tlbinv a f) c s) (hl : c.g.sh = false) (hf : f.toNat ≤ 2)
    (ha : badVa (c.s a) = true ∨ isWindow (c.s a) = true) : execTlbinv a f s = .next (c.traps s PROT (c.s a)) :=
  issue_trap h (by simp [hl, hf, ha])

/-- The address of a `tlbinv` passes its check. -/
theorem tlbinv_inside {x : W64} (ha : f.toNat ≤ 2 → badVa x = false ∧ isWindow x = false) :
    (decide (f.toNat ≤ 2) && (badVa x || isWindow x)) = false := by
  by_cases hf : f.toNat ≤ 2
  · obtain ⟨hb, hw⟩ := ha hf
    simp [hb, hw]
  · simp [hf]

theorem execTlbinv_waits (h : Issuing (.tlbinv a f) c s) (hl : c.g.sh = false)
    (ha : f.toNat ≤ 2 → badVa (c.s a) = false ∧ isWindow (c.s a) = false) (hr : c.RoomB s) (hm : c.MayCommit s)
    (hs : s1 = (c.commit s false).publish c.g c.core 3) (hp : s1.hasPosted c.g 4 = true) :
    execTlbinv a f s = .next (c.waits s1 (.posted 4)) :=
  issue_wait h (by
    simp only [hl, tlbinv_inside ha, gateB_room (t := s) (State.ctx_group h.ctx) hr, afterStores_waits hm hs hp, bind, Except.bind,
      Bool.false_eq_true, if_false])

theorem execTlbinv_invalidates (h : Issuing (.tlbinv a f) c s) (hl : c.g.sh = false)
    (ha : f.toNat ≤ 2 → badVa (c.s a) = false ∧ isWindow (c.s a) = false) (hr : c.RoomB s) (hm : c.MayCommit s)
    (hs : s1 = (c.commit s false).publish c.g c.core 3) (hp : s1.hasPosted c.g 4 = false)
    (ht : t = (s1.invalidate c.bez.num (if f.toNat ≤ 2 then (c.s a).toNat else 0) (invSize f.toNat)).retryMigrating c.bez.num)
    (hrt : c.RoomB t) : execTlbinv a f s = .next (c.past (sign c (c.opB t (.inval c.bez.num
      (if f.toNat ≤ 2 then (c.s a).toNat / invSize f.toNat * invSize f.toNat else 0) (invSize f.toNat) c.now)) [c.s a])) := by
  subst ht
  refine issue_ok h ?_
  simp only [hl, tlbinv_inside ha, gateB_room (t := s) (State.ctx_group h.ctx) hr, bind, Except.bind, Bool.false_eq_true, if_false]
  rw [afterStores_applies hm hs hp]
  exact hrt

theorem execFltret_badOperand (h : Issuing (.fltret a) c s) (hb : bits (c.s a).toNat 63 32 ≠ 0) :
    execFltret a s = .next (c.traps s ILLOPERAND 0) :=
  issue_trap h (if_pos hb)

theorem execFltret_waits (h : Issuing (.fltret a) c s) (hb : bits (c.s a).toNat 63 32 = 0) (hl : c.g.sh = false) (hr : c.RoomB s)
    (hm : c.MayCommit s) (hs : s1 = (c.commit s false).publish c.g c.core 3) (hp : s1.hasPosted c.g 4 = true) :
    execFltret a s = .next (c.waits s1 (.posted 4)) :=
  issue_wait h (by
    simp [hb, hl, gateB_room (t := s) (State.ctx_group h.ctx) hr, afterStores_waits hm hs hp, bind, Except.bind])

theorem execFltret_returns (h : Issuing (.fltret a) c s) (hb : bits (c.s a).toNat 63 32 = 0) (hl : c.g.sh = false) (hr : c.RoomB s)
    (hm : c.MayCommit s) (hs : s1 = (c.commit s false).publish c.g c.core 3) (hp : s1.hasPosted c.g 4 = false)
    (ht : t = s1.faultReturn c.bez.num ((c.s a).setWidth 32) c.die c.handle) (hrt : c.RoomB t) :
    execFltret a s = .next (c.past (sign c (c.opB t .ready) [c.s a])) := by
  subst ht
  refine issue_ok h ?_
  simp only [hb, hl, gateB_room (t := s) (State.ctx_group h.ctx) hr, bind, Except.bind, ne_eq, not_true_eq_false, Bool.false_eq_true,
    if_false]
  rw [afterStores_applies hm hs hp]
  exact hrt

end Instructions

/-! ### The flag of a `tlbinv`, and what it invalidates (R366) -/

section Invalidate

variable {s : State}

variable {r : GRef} {g : Group} {op n lo size since : Nat} {x : Op} {lanes : W32}

theorem execOperationCompletion_underWay (hin : s.input = some (.operationCompletion r op lanes)) (hg : s.group? r = some g)
    (hx : g.op? op = some x) (hw : x.what = .inval n lo size since) (hu : s.underWay n lo size since = true) :
    execOperationCompletion s = .refused (.notEnabled "OPERATION_COMPLETION") :=
  eventStep_refused (by simp [hin, State.opComplete, hg, hx, hw, hu])

theorem execOperationCompletion_invalidated (hin : s.input = some (.operationCompletion r op lanes)) (hg : s.group? r = some g)
    (hx : g.op? op = some x) (hw : x.what = .inval n lo size since) (hu : s.underWay n lo size since = false) :
    execOperationCompletion s = .next (s.opReturn r x lanes) :=
  eventStep_ok hin (by simp [State.opComplete, hg, hx, hw, hu])

/-- The TLBs and the stores in flight. -/
def State.transit (s : State) : List TlbEntry × List TlbEntry × List Posted := (s.tlb, s.dieTlb, s.posted)

theorem State.freeSector_transit (s : State) (n : Nat) : (s.freeSector n).transit = s.transit := by
  unfold State.freeSector State.checkSector
  repeat' split
  all_goals simp [State.transit]

theorem State.noteLate_transit (s : State) (space a n : Nat) : (s.noteLate space a n).transit = s.transit := by
  unfold State.noteLate; split <;> rfl

theorem State.homeCells_transit (s : State) (cells : List (Nat × Byte)) (owner : Nat) (page : Option Bool) :
    (s.homeCells cells owner page).transit = s.transit :=
  (State.foldl_keeps State.transit (f := fun t x => t.setSidecar x (s.sidecarAfter cells owner page x)) (fun _ _ => rfl) _ _).trans
    (State.foldl_keeps State.transit State.freeSector_transit _ s)

/-- A store that takes effect leaves the TLBs and the other stores in flight alone. -/
theorem State.takeEffect_transit (s : State) (p : Posted) : (s.takeEffect p).transit = s.transit :=
  (State.foldl_keeps State.transit (f := fun s (x : Nat × Byte) => s.noteLate 0 x.1 1) (fun s x => s.noteLate_transit 0 x.1 1) _ _).trans
    (s.homeCells_transit _ _ _)

/-- A drain leaves the TLBs, and in flight what it does not take home. -/
theorem State.drain_transit (s : State) (f : Posted → Bool) :
    (s.drain f).transit = (s.tlb, s.dieTlb, s.posted.filter fun p => !(p.inside s.devId && f p)) :=
  State.foldl_keeps State.transit State.takeEffect_transit _ _

/-- No translation of the range is left in a TLB. -/
theorem State.mem_invalidate {e : TlbEntry} {va : Nat}
    (he : e ∈ (s.invalidate n va size).tlb ∨ e ∈ (s.invalidate n va size).dieTlb) : (e ∈ s.tlb ∨ e ∈ s.dieTlb) ∧
      ¬(e.bezel = n ∧ e.page < va / size * size + size ∧ va / size * size < e.page + pageSize e.leaf.level) := by
  have hd := s.drain_transit fun _ => true
  simp only [State.transit, Prod.mk.injEq] at hd
  obtain ⟨htlb, hdie, -⟩ := hd
  simp only [State.invalidate, htlb, hdie, List.mem_filter, ← or_and_right] at he
  refine ⟨he.1, fun ⟨hn, hlo, hhi⟩ => ?_⟩
  simp [hn, hlo, hhi] at he

/-- No store in flight is left within the module. -/
theorem State.invalidate_posted {va : Nat} {p : Posted} (hp : p ∈ (s.invalidate n va size).posted) : p.inside s.devId = false := by
  have hd := s.drain_transit fun _ => true
  simp only [State.transit, Prod.mk.injEq] at hd
  obtain ⟨-, -, hposted⟩ := hd
  simp only [State.invalidate, hposted, List.mem_filter] at hp
  simpa using hp.2

end Invalidate

/-! ### Audit records (R359) -/

section Audit

variable {s : State} {n m : Nat} {b : Bezel} {q : Audit}

theorem State.auditDeliver_eq (hb : s.bezel? n = some b) (hq : (s.audits.find? fun x => x.bezel == n && x.kind == m) = some q) :
    s.auditDeliver n m = (s.mbPost b b.faultMb (BitVec.ofNat 32 m) q.body).map fun t => { t with audits := t.audits.erase q } := by
  simp only [State.auditDeliver, hb, hq]

/-! ### CXL.mem (R224, R359, R367; log entry 25) -/

variable {addr : Nat} {data : List Byte}

/-- HOST_MEM_WRITE within one line, by what stands at its address. -/
theorem exec_hostMemWrite_line (hd : data ≠ []) (hl : addr % 64 + data.length ≤ 64) (hin : s.input = some (.hostMemWrite addr data)) :
    exec .hostMemWrite s = if s.noMemory addr then .fault .noSuchAddress
      else if s.hostWaits (s.localPa addr) data.length then .refused (.notEnabled "HOST_MEM_WRITE") else .next (s.hostWrite addr data) := by
  have hw : ¬(data.isEmpty || decide (64 < addr % 64 + data.length)) = true := by simpa using ⟨hd, hl⟩
  simp only [exec_hostMemWrite, execHostMemWrite, hin, if_neg hw]

/-- HOST_MEM_READ within one line, by what stands at its address. -/
theorem exec_hostMemRead_line (hn : n ≠ 0) (hl : addr % 64 + n ≤ 64) (hin : s.input = some (.hostMemRead addr n)) :
    exec .hostMemRead s = if s.noMemory addr then .fault .noSuchAddress
      else if (s.sidecar (s.localPa addr / 256)).owner == 0 && s.recallWaits (s.localPa addr / 256)
      then .refused (.notEnabled "HOST_MEM_READ") else .next (s.hostRead addr n) := by
  have hw : ¬(decide (n = 0) || decide (64 < addr % 64 + n)) = true := by simpa using ⟨hn, hl⟩
  simp only [exec_hostMemRead, execHostMemRead, hin, if_neg hw]

theorem State.hostWaits_entropy {pa : Nat} (he : s.host.entropy = true) : s.hostWaits pa n = false := by simp [State.hostWaits, he]

theorem State.hostWaits_tenant {pa : Nat} (ho : (s.sidecar (pa / 256)).owner ≠ 0) : s.hostWaits pa n = false := by
  simp [State.hostWaits, ho]

theorem State.hostWaits_openBlock {pa : Nat} (he : s.host.entropy = false) (ho : (s.sidecar (pa / 256)).owner = 0)
    (hr : s.recallWaits (pa / 256) = true) : s.hostWaits pa n = true := by simp [State.hostWaits, he, ho, hr]

theorem State.hostWaits_plain {pa : Nat} (hr : s.recallWaits (pa / 256) = false) (hm : s.mailboxAt pa = none)
    (hs : pa % 64 + n ≤ 56) : s.hostWaits pa n = false := by simp [State.hostWaits, hr, hm, hs]

theorem State.hostWrite_entropy (he : s.host.entropy = true) : s.hostWrite addr data = s := if_pos he

theorem State.hostWrite_tenant (he : s.host.entropy = false) (ho : (s.sidecar (s.localPa addr / 256)).owner ≠ 0) : s.hostWrite addr data =
    s.blocked (s.sidecar (s.localPa addr / 256)).owner 2 (s.localPa addr % 2 ^ 40) :=
  (if_neg (by simp [he])).trans (if_pos ho)

theorem State.hostWrite_plain (he : s.host.entropy = false) (ho : (s.sidecar (s.localPa addr / 256)).owner = 0)
    (hm : s.mailboxAt (s.localPa addr) = none) (hs : s.localPa addr % 64 + data.length ≤ 56) :
    s.hostWrite addr data = s.landSector [(s.localPa addr, data)] 0 none 0 := by
  simp [State.hostWrite, State.hostOpen, he, ho, hm, Nat.not_lt.2 hs]

theorem State.hostRead_tenant (ho : (s.sidecar (s.localPa addr / 256)).owner ≠ 0) : s.hostRead addr n =
    (s.blocked (s.sidecar (s.localPa addr / 256)).owner 1 addr).toHost (.readData addr (List.replicate n 0)) := if_pos ho

theorem State.hostRead_open (ho : (s.sidecar (s.localPa addr / 256)).owner = 0) (hp : s.poisoned (s.localPa addr / 256) = false) :
    s.hostRead addr n = s.toHost (.readData addr ((List.range n).map fun i => s.homeByte (s.localPa addr + i))) :=
  (if_neg (by simp [ho])).trans (if_neg (by simp [hp]))

theorem State.audit_mem (s : State) (bezel kind : Nat) (a : W64) : (s.audit bezel kind a).mem = s.mem := by
  unfold State.audit; split <;> rfl

/-- An access that is blocked changes no memory. -/
theorem State.blocked_mem (s : State) (owner kind addr : Nat) : (s.blocked owner kind addr).mem = s.mem := by
  unfold State.blocked
  dsimp only
  split
  · exact State.audit_mem _ _ _ _
  · rfl

end Audit

/-! ### BAR0 (R359, R368, R372) -/

section Bar0

variable {s : State} {off : BitVec 16} {v : W64} {n : Nat}

theorem State.bar0Write_unaligned (h : n ≠ 8 ∨ off.toNat % 8 ≠ 0) : s.bar0Write off v n = some (s.barReject off) :=
  if_pos (by simpa using h)

theorem State.bar0Write_bootbz : s.bar0Write 0x10 v 8 =
    some (if s.host.mstate = .configOpen then { s with host := { s.host with bootbz := v } } else s.barReject 0x10) := by
  simp [State.bar0Write, ← apply_ite some]

theorem State.bar0Write_thrLimit : s.bar0Write 0x30 v 8 =
    some (if s.host.mstate = .run then { s with host := { s.host with thrLimit := v } } else s.barReject 0x30) := by
  simp [State.bar0Write, ← apply_ite some]

theorem State.bar0Write_mcmd (h : s.mcmdTakes v = false) : s.bar0Write 8 v 8 = some (s.barReject 8) := by
  simp [State.bar0Write, h]

theorem State.bar0Write_other (ha : off.toNat % 8 = 0) (h8 : off ≠ 8) (h10 : off ≠ 0x10) (h30 : off ≠ 0x30) :
    s.bar0Write off v 8 = some (s.barReject off) := by
  rw [State.bar0Write, if_neg (by simp [ha]), if_neg h8, if_neg (by simpa using fun e => absurd e h10),
    if_neg (by simpa using fun e => absurd e h30)]

theorem State.bar0Read_unaligned (h : n ≠ 8 ∨ off.toNat % 8 ≠ 0) : s.bar0Read off n = s.toHost (.abort off) :=
  if_pos (by simpa using h)

theorem State.bar0Read_allowed (ha : off.toNat % 8 = 0) (h : s.host.mstate ≠ .run ∨ allowListed off.toNat = true) :
    s.bar0Read off 8 = s.toHost (.barData off (s.bar0 off.toNat)) :=
  (if_neg (by simp [ha])).trans (if_pos (by simpa using h))

/-- A read outside the allow-list is recorded, and answers 0. -/
theorem State.bar0Read_hidden (ha : off.toNat % 8 = 0) (hr : s.host.mstate = .run) (hn : allowListed off.toNat = false) :
    ∃ u : State, s.bar0Read off 8 = u.toHost (.barData off 0) :=
  ⟨_, (if_neg (by simp [ha])).trans (if_neg (by simp [hr, hn]))⟩

end Bar0

/-! ### Management states and throttling (R352, R368, R372, R373) -/

section Management

variable {s : State} {pass : Bool}

/-- In which state each value of MCMD is taken (R368). -/
theorem State.mcmdTakes_lock : s.mcmdTakes 1 = decide (s.host.mstate = .configOpen) := by
  simp [State.mcmdTakes, beq_eq_decide]

theorem State.mcmdTakes_run : s.mcmdTakes 2 = (decide (s.host.mstate = .configLocked) && !s.host.entropy) := by
  simp [State.mcmdTakes, beq_eq_decide]

theorem State.mcmdTakes_draw (he : s.host.entropy = true) (hm : s.host.mstate = .configOpen ∨ s.host.mstate = .configLocked) :
    s.mcmdTakes 3 = true := by
  simpa [State.mcmdTakes, he] using hm

theorem State.genDraw_host (s : State) (pass : Bool) : (s.genDraw pass).host = s.host := by
  unfold State.genDraw; split <;> rfl

/-- The outcome of a draw reaches the generator and the Locket, and nothing else. -/
theorem State.genDraw_frame (s : State) (pass : Bool) :
    { s.genDraw pass with gen := s.gen, fails := s.fails, lockets := s.lockets } = s := by
  unfold State.genDraw
  split
  · rfl
  · simp

/-- A draw of the open key reaches no more than that, the host's ENTROPY and the key. -/
theorem State.drawOpen_frame (s : State) (pass : Bool) : { s.drawOpen pass with
    gen := s.gen, fails := s.fails, lockets := s.lockets, host := s.host, openKey := s.openKey, epochs := s.epochs } = s := by
  have h := congrArg (fun t : State => { t with host := s.host, openKey := s.openKey, epochs := s.epochs }) (s.genDraw_frame pass)
  unfold State.drawOpen
  dsimp only
  split
  · exact h
  · exact h

theorem State.drawOpen_host (s : State) (pass : Bool) :
    (s.drawOpen pass).host = { s.host with entropy := !(pass && s.gen == .healthy) } := by
  unfold State.drawOpen
  dsimp only
  split <;> simp [State.genDraw_host]

/-- A draw that passes leaves no event. -/
theorem State.drawOpen_lockets (s : State) : (s.drawOpen true).lockets = s.lockets := by
  have hgen : s.genDraw true = s := if_pos rfl
  unfold State.drawOpen
  rw [hgen]
  dsimp only
  split <;> rfl

theorem exec_throttleStep_takes {st po te : _} (hin : s.input = some (.throttleStep st po te))
    (h : st ≠ s.host.thrStep → (s.host.thrStep < st ↔ s.host.overLimit po te = true)) : exec .throttleStep s =
      .next { s with host := { s.host with power := po, temp := te, thrStep := st,
                                           thrCount := if st = s.host.thrStep then s.host.thrCount else s.host.thrCount + 1 } } := by
  have hdir : st ≠ s.host.thrStep → decide (s.host.thrStep < st) = s.host.overLimit po te :=
    fun hne => Bool.eq_iff_iff.2 (by simpa using h hne)
  exact eventStep_ok hin (if_neg (by simpa using hdir))

theorem exec_throttleStep_wrongWay {st po te : _} (hin : s.input = some (.throttleStep st po te)) (hne : st ≠ s.host.thrStep)
    (h : ¬(s.host.thrStep < st ↔ s.host.overLimit po te = true)) : exec .throttleStep s = .refused (.notEnabled "THROTTLE_STEP") := by
  refine eventStep_refused ?_
  rw [hin]
  exact if_pos (by simpa using ⟨hne, fun e => h (by rw [← e, decide_eq_true_iff])⟩)

theorem HostPort.powerLimit_whole {h : HostPort} (hl : h.thrLimit = 0 ∨ 2800 < h.thrLimit.toNat) : h.powerLimit = 2800 :=
  if_pos (by simpa using hl)

theorem HostPort.powerLimit_lowered {h : HostPort} (h0 : h.thrLimit ≠ 0) (hl : h.thrLimit.toNat ≤ 2800) :
    h.powerLimit = h.thrLimit.toNat :=
  if_neg (by simpa using ⟨h0, hl⟩)

theorem HostPort.overLimit_iff (h : HostPort) (p : W64) (te : BitVec 32) : h.overLimit p te = true ↔
    1000 * h.powerLimit < p.toNat ∨ ∃ d < 4, Config.dieLimit d < bits te.toNat (8 * d + 7) (8 * d) := by
  simp [HostPort.overLimit]

/-! ### Resets (R352, R363, R364, R372) -/

/-- What stands at a reset before the open key is drawn: no bezel, team, key or flow, the clock and the Locket as they were, CONFIG_OPEN,
and the sidecars under their channels' numbers. -/
structure State.Cleared (s t : State) : Prop where
  bezels : t.bezels = []
  teams : t.teams = []
  keys : t.keys = []
  flows : t.flows = []
  mstate : t.host.mstate = .configOpen
  devId : t.devId = s.devId
  cycles : t.cycles = s.cycles
  lockets : t.lockets = s.lockets
  side : t.side = ({ s with mem := s.loseOpen } : State).renumberMemory.side

theorem State.restart_cleared (s : State) (pass : Bool) : ∃ t, s.restart pass = t.drawOpen pass ∧ s.Cleared t :=
  ⟨_, rfl, rfl, rfl, rfl, rfl, rfl, rfl, rfl, rfl, rfl⟩

section Restart

variable (s : State) (pass : Bool)

theorem State.restart_bare : (s.restart pass).bezels = [] ∧ (s.restart pass).teams = [] ∧ (s.restart pass).keys = [] ∧
    (s.restart pass).flows = [] ∧ (s.restart pass).host.mstate = .configOpen := by
  obtain ⟨t, h, ht⟩ := s.restart_cleared pass
  have hf := t.drawOpen_frame pass
  rw [h]
  exact ⟨(congrArg State.bezels hf).trans ht.bezels, (congrArg State.teams hf).trans ht.teams, (congrArg State.keys hf).trans ht.keys,
    (congrArg State.flows hf).trans ht.flows, (congrArg HostPort.mstate (t.drawOpen_host pass)).trans ht.mstate⟩

theorem State.restart_devId : (s.restart pass).devId = s.devId := by
  obtain ⟨t, h, ht⟩ := s.restart_cleared pass
  exact h ▸ (congrArg State.devId (t.drawOpen_frame pass)).trans ht.devId

theorem State.restart_cycles : (s.restart pass).cycles = s.cycles := by
  obtain ⟨t, h, ht⟩ := s.restart_cleared pass
  exact h ▸ (congrArg State.cycles (t.drawOpen_frame pass)).trans ht.cycles

theorem State.restart_lockets : (s.restart true).lockets = s.lockets := by
  obtain ⟨t, h, ht⟩ := s.restart_cleared true
  exact h ▸ t.drawOpen_lockets.trans ht.lockets

/-- Where no channel is fenced, the map of sidecars stays. -/
theorem State.restart_side (hf : ∀ x ∈ s.fencedUnits, ∀ m, x ≠ .chan m) : (s.restart pass).side = s.side := by
  obtain ⟨t, h, ht⟩ := s.restart_cleared pass
  have hdead : s.deadUnits UnitId.chan? = [] := List.filterMap_eq_nil_iff.2 fun x hx => by
    cases x with
    | chan m => exact absurd rfl (hf _ hx m)
    | core => rfl
    | slice => rfl
  have hmem : ({ s with mem := s.loseOpen } : State).renumberMemory = { s with mem := s.loseOpen } :=
    if_pos (List.isEmpty_iff.2 hdead)
  have hside := ht.side
  rw [hmem] at hside
  exact h ▸ (congrArg State.side (t.drawOpen_frame pass)).trans hside

end Restart

/-- Fencing a unit where no team is left starts no clock. -/
theorem State.fenceUnit_idle (s : State) (u : UnitId) (ht : s.teams = []) (hb : s.bezels = []) :
    (s.fenceUnit u).teams = [] ∧ (s.fenceUnit u).bezels = [] ∧ (s.fenceUnit u).cycles = s.cycles := by
  unfold State.fenceUnit
  split
  · exact ⟨ht, hb, rfl⟩
  · cases u <;> simp [ht, hb]

theorem State.fenceUnits_cycles (l : List UnitId) (s : State) (ht : s.teams = []) (hb : s.bezels = []) :
    (l.foldl (fun s u => s.fenceUnit u) s).cycles = s.cycles := by
  induction l generalizing s with
  | nil => rfl
  | cons u l ih =>
    obtain ⟨ht', hb', hc⟩ := s.fenceUnit_idle u ht hb
    exact (ih _ ht' hb').trans hc

/-! The state that each reset starts again from. -/

/-- Every die's Locket with its RESET event. -/
def State.resetEvents (s : State) : State :=
  [0, 1, 2, 3].foldl (fun (s : State) d => s.locket d 12 (Config.lockCode 4).toNat 0 0) s

theorem State.resetEvents_devId (s : State) : s.resetEvents.devId = s.devId :=
  State.foldl_keeps State.devId (fun t d => t.locket_devId d _ _ _ _) _ s

theorem State.resetEvents_side (s : State) : s.resetEvents.side = s.side :=
  State.foldl_keeps State.side (fun t d => t.locket_side d _ _ _ _) _ s

theorem State.resetEvents_fencedUnits (s : State) : s.resetEvents.fencedUnits = s.fencedUnits :=
  State.foldl_keeps State.fencedUnits (fun t d => t.locket_fencedUnits d _ _ _ _) _ s

/-- The Locket zeroed, the clock started again, and the units that fail fenced. -/
def State.powerUp (s : State) (failed : List UnitId) : State :=
  failed.foldl (fun s u => s.fenceUnit u) { s with lockets := State.reset.lockets, cycles := 0, arith := 0, teams := [], bezels := [] }

theorem State.powerUp_cycles (s : State) (failed : List UnitId) : (s.powerUp failed).cycles = 0 :=
  State.fenceUnits_cycles failed _ rfl rfl

theorem exec_warmReset_restarts (hin : s.input = some (.warmReset pass)) : exec .warmReset s = .next (s.resetEvents.restart pass) :=
  eventStep_ok hin rfl

theorem exec_coldReset_restarts {failed : List UnitId} (hin : s.input = some (.coldReset pass failed)) :
    exec .coldReset s = .next ((s.powerUp failed).restart pass) :=
  eventStep_ok hin rfl

end Management

/-- Settles O55: each instruction through its commit and its group's stores (`afterStores_applies`), host accesses by what stands at
their line, BAR0 and MCMD by the management state, resets through what `State.restart` leaves. -/
theorem locketAndHost : Obligations.LocketAndHost := by
  intro s s1 t c d a f n m v off pass addr data
  refine ⟨fun k => execLocketw_held, fun h hl => ⟨execCaprd_misaligned h hl, execCaprd_reads h hl⟩, s.capWord_second,
    fun i => exec_invOrReturn_shadow, fun h hl => ⟨execTlbinv_outside h hl, fun ha hr hm hs => ⟨execTlbinv_waits h hl ha hr hm hs,
      execTlbinv_invalidates h hl ha hr hm hs⟩⟩,
    fun r g op x lanes lo size since hin hg hx hw => ⟨execOperationCompletion_underWay hin hg hx hw, execOperationCompletion_invalidated hin hg hx hw⟩,
    ⟨fun e => State.mem_invalidate, rfl, fun p => State.invalidate_posted⟩,
    fun h => ⟨execFltret_badOperand h, fun hb hl hr hm hs => ⟨execFltret_waits h hb hl hr hm hs, execFltret_returns h hb hl hr hm hs⟩⟩,
    fun b q hin hb hq => ⟨fun hp => eventStep_ok hin ?_, fun hp => eventStep_refused ?_⟩,
    fun hd hl => ⟨fun hin => ?write, fun hin => ?read⟩, fun hin => ?barWrite, fun hin => ?barRead, fun hin => ?lock, fun hin => ?run,
    fun hin he hm => ?draw, fun st po te hin h => ⟨_, exec_throttleStep_takes hin h, rfl, rfl, rfl, rfl, rfl, rfl⟩,
    fun st po te => exec_throttleStep_wrongWay,
    fun h => ⟨HostPort.powerLimit_whole, HostPort.powerLimit_lowered, h.overLimit_iff⟩, fun hin => ?warm, fun failed hin => ?cold⟩
  · simp only [State.auditDeliver_eq hb hq, hp, Option.map_some]
  · simp only [hin, Option.bind_some, State.auditDeliver_eq hb hq, hp, Option.map_none]
  case write =>
    rw [exec_hostMemWrite_line hd hl hin]
    refine ⟨fun hn => if_pos hn, fun hn => ?_⟩
    rw [if_neg (by simp [hn])]
    refine ⟨fun he => ?_, fun ow he how h0 => ⟨?_, s.blocked_mem _ _ _⟩, fun he h0 hw => if_pos (State.hostWaits_openBlock he h0 hw),
      fun he h0 hw hm hs => ?_⟩
    · rw [if_neg (by simp [State.hostWaits_entropy he]), State.hostWrite_entropy he]
    · subst how
      rw [if_neg (by simp [State.hostWaits_tenant h0]), State.hostWrite_tenant he h0]
    · rw [if_neg (by simp [State.hostWaits_plain hw hm hs]), State.hostWrite_plain he h0 hm hs]
  case read =>
    rw [exec_hostMemRead_line (by simpa using hd) hl hin]
    refine ⟨fun hn => if_pos hn, fun hn => ?_⟩
    rw [if_neg (by simp [hn])]
    refine ⟨fun ow how h0 => ?_, fun h0 hw => if_pos (by simp [h0, hw]), fun h0 hw hp => ?_⟩
    · subst how
      rw [if_neg (by simp [h0]), State.hostRead_tenant h0]
    · rw [if_neg (by simp [hw]), State.hostRead_open h0 hp]
  case barWrite =>
    refine ⟨fun h => eventStep_ok hin (State.bar0Write_unaligned h), ?_, ?_, ?_, ?_⟩
    · rintro rfl rfl
      exact eventStep_ok hin State.bar0Write_bootbz
    · rintro rfl rfl
      exact eventStep_ok hin State.bar0Write_thrLimit
    · rintro rfl rfl h
      exact eventStep_ok hin (State.bar0Write_mcmd h)
    · rintro rfl ha h8 h10 h30
      exact eventStep_ok hin (State.bar0Write_other ha h8 h10 h30)
  case barRead =>
    have answers : exec .bar0Read s = .next (s.bar0Read off n) := eventStep_ok hin rfl
    rw [answers]
    refine ⟨fun h => congrArg _ (State.bar0Read_unaligned h), ?_, ?_⟩
    · rintro rfl ha h
      exact congrArg _ (State.bar0Read_allowed ha h)
    · rintro rfl ha hr hn
      obtain ⟨u, hu⟩ := State.bar0Read_hidden ha hr hn
      exact ⟨u, congrArg _ hu⟩
  case lock =>
    refine ⟨fun h => eventStep_ok hin (if_pos (by simpa only [State.mcmdTakes_lock, decide_eq_true_iff] using h)),
      fun h => eventStep_refused ?_⟩
    rw [hin]
    exact if_neg (by simpa only [State.mcmdTakes_lock, decide_eq_true_iff] using h)
  case run =>
    refine ⟨fun h he => eventStep_ok hin (if_pos (s.mcmdTakes_run.trans (by simp [h, he]))), fun h => eventStep_refused ?_⟩
    rw [hin]
    refine if_neg (by rw [State.mcmdTakes_run]; obtain h | h := h <;> simp [h])
  case draw =>
    refine ⟨_, eventStep_ok hin (if_pos (State.mcmdTakes_draw he hm)), ?_, ?_⟩ <;> rw [State.drawOpen_host]
  case warm =>
    obtain ⟨hb, ht, hk, hf, hm⟩ := s.resetEvents.restart_bare pass
    exact ⟨_, exec_warmReset_restarts hin, hb, ht, hk, hf, hm, (State.restart_devId _ _).trans s.resetEvents_devId,
      fun hn => (State.restart_side _ _ (s.resetEvents_fencedUnits.symm ▸ hn)).trans s.resetEvents_side⟩
  case cold =>
    obtain ⟨hb, ht, hk, -, hm⟩ := (s.powerUp failed).restart_bare pass
    refine ⟨_, exec_coldReset_restarts hin, hb, ht, hk, (State.restart_cycles _ _).trans (State.powerUp_cycles s failed), hm, ?_⟩
    rintro rfl rfl
    exact State.restart_lockets _

end Sys2Proof.Machine
end

section
/-! SUPPORT. Rings, collectives and routing: the statement is refuted by two `xroute` commands of one number (R279). -/

namespace Sys2Proof.Machine

open Sys2Proof

/-- A record of one packet, whose tables, source and spill object all stand at 0x800000 (R278). -/
def onePacket : List Byte := leBytes 0x800000 8 ++ leBytes 0x800000 8 ++ leBytes 0x800000 8 ++ leBytes 0x800000 8 ++ List.replicate 32 0

/-- Command 1 of the group of `recomputing`: an `xroute` that has tried the given replicas. -/
def routeTried (tried : List Nat) : Cmd :=
  { id := 1, by_ := { g := recomputing.g, pc := {}, op := none, bezel := 0, kslot := 0, handle := 0, key := 0, core := 0 },
    what := .xroute onePacket 0 { tried := tried } }

/-- The module at CAPACITY_CLAIM of command 1, with a second command of that number that has tried replica 0, and a writable page at
0x800000. -/
def twoRoutesState : State :=
  { input := some (.capacityClaim 1), bezels := [recomputing.bez], teams := [recomputing.team], cmds := [routeTried [], routeTried [0]],
    tlb := [{ bezel := 0, core := 0, page := 0x800000, leaf := { raw := BitVec.ofNat 64 (2 + 8 + 0x100 * 2 ^ 23 + 2 ^ 48), level := 2 } }] }

/-- The replicas that each command has tried after a step. -/
def triedAfter : Host.Outcome State Fault Refusal → List (List Nat)
  | .next s => s.cmds.map fun c => match c.what with
    | .xroute _ _ x => x.tried
    | _ => []
  | _ => []

/-- A ring: the clause of CAPACITY_CLAIM speaks of none. -/
def anyRing : Ring :=
  { n := 0, buf := 0, bufPa := [], ctrl := .glob 0 0 0, peers := 0, scope := 0, ranks := 1, rank := 0, mode := false, depth := 1 }

/-- The page's place. -/
def routePage : Nat := 2 ^ 40 + 0x1000000

theorem twoRoutesState_route : twoRoutesState.route? 1 =
    some (routeTried [], onePacket, 0, {}, recomputing.team, recomputing.kern, recomputing.bez) := rfl

theorem twoRoutesState_expert :
    twoRoutesState.expertWord recomputing.team recomputing.kern recomputing.bez 0 onePacket 0 = .ok (0, false) := rfl

theorem twoRoutesState_spill : twoRoutesState.enginePlace recomputing.team recomputing.kern recomputing.bez .store 0x800000 =
    .ok (.glob routePage false 0 0x800000) := rfl

/-- What each command has tried stays its own: no replica is tried at this claim. -/
theorem triedAfter_capacityClaim : triedAfter (exec .capacityClaim twoRoutesState) = [[], [0]] := rfl

/-- Refutes O42: where CAPACITY_CLAIM tries no replica, its clause gives every command of the number `id` the list `x.tried` of the
command that `State.route?` finds, where `State.capacityClaim` leaves each command its own list; no premise says that a command's number
is its own. In `twoRoutesState` the claim goes to the spill object, and `exec` leaves the second command its tried replica 0. -/
theorem not_collectiveEvents : ¬ Obligations.CollectiveEvents := by
  intro h
  obtain ⟨-, -, -, -, -, -, -, hroute⟩ := h twoRoutesState twoRoutesState twoRoutesState 1 0 0 0 routePage 0 anyRing recomputing.team
    recomputing.g {} recomputing.kern recomputing.bez (routeTried []) 0x800000 0 false
  obtain ⟨hclaim, -⟩ := hroute onePacket 0 {} 0 twoRoutesState_route (by decide) twoRoutesState_expert rfl
  have hnext := congrArg triedAfter
    (hclaim none (.glob routePage false 0 0x800000) 0 rfl rfl (by decide) rfl rfl rfl twoRoutesState_spill rfl)
  rw [triedAfter_capacityClaim] at hnext
  exact absurd hnext (by decide)

end Sys2Proof.Machine
end

section
/-! SUPPORT. Rings, their image and the lines of `tcopy` at their issue (R97, R98, R270, R271, R277; log entry 55). -/

namespace Sys2Proof.Machine

open Sys2Proof

/-! ### Areas, and the groups after an image has been read -/

/-- The elements of a list, read by their places, are the list. -/
theorem map_range_getD {α : Type} (d : α) (l : List α) : (List.range l.length).map (fun i => l[i]?.getD d) = l :=
  List.ext_getElem (by simp) fun i h _ => by simp at h; simp [h]

/-- R169: where every address of an area reaches a place, the checks of the area pass and touch its pages. -/
theorem checkLanes_area {c : Ctx} {s : State} {k : Acc} {al : Nat} {ads : List W64} {pl : Nat → Place}
    (h : ∀ i < ads.length, c.Reaches s k al (ads[i]?.getD 0#64) (pl i)) :
    checkLanes c s k (List.range ads.length) (fun i => ads[i]?.getD 0#64) al =
      .ok (s.touch c.bez c.core ads, (List.range ads.length).map fun i => (i, pl i), []) := by
  rw [checkLanes_reach (pl := pl) (by simpa using h), map_range_getD 0#64]

/-- Room for an operation of class b is that of the group. -/
theorem Ctx.RoomB.of_group? {c : Ctx} {s t : State} (hr : c.RoomB s) (h : t.group? c.g = s.group? c.g) : c.RoomB t := by
  obtain ⟨g, hg, hf⟩ := hr
  exact ⟨g, h.trans hg, hf⟩

/-- Reading the pieces of an image leaves the groups alone. -/
theorem Ctx.Pieces.group? {c : Ctx} {s t : State} {ad : W64} {n : Nat} {r : List Byte} (h : c.Pieces s ad n r t) (q : GRef) :
    t.group? q = s.group? q := by
  obtain ⟨pl, at_, u, -, -, rfl, rfl, -⟩ := h
  rw [State.foldl_keeps (State.group? · q) (fun s p => State.group?_takeLease s c.g c.core c.grp.acquire p q), State.group?_fillPlaces,
    State.group?_touch]

section Rings

variable {s s1 s2 s3 : State} {c : Ctx} {d a b : BitVec 8} {n : BitVec 3} {r image : List Byte} {pages : List W64} {pl : Nat → Place}
  {o : Obj} {ring : Ring}

/-! ### `cring` (R270) -/

/-- The record of `cring cfg` and what it names have passed the checks of R270 that come before the ring's own. -/
structure ConfiguresRing (a : BitVec 8) (n : BitVec 3) (c : Ctx) (s s1 s2 s3 : State) (r : List Byte) (pages : List W64)
    (pl : Nat → Place) (o : Obj) : Prop where
  leader : c.g.sh = false
  room : c.RoomB s
  issuing : Issuing (.cringCfg a n) c s
  aligned : (c.s a).toNat % 64 = 0
  reads : c.Reads s .scalarLoad (c.s a) 64 r s1
  buf : (dword r 8).toNat % 1024 = 0
  ctrl : (dword r 24).toNat % 32 = 0
  peers : (dword r 16).toNat % 16 = 0
  record : ringRecordBad r = false
  areas : pages = areaPages (dword r 8) (1024 * (bits (dword r 0).toNat 7 0 + 1))
  outside : ∀ x ∈ pages, isWindow x = false
  reaches : ∀ k < pages.length, c.Reaches s1 .store 1 (pages[k]?.getD 0) (pl k)
  touched : s2 = s1.touch c.bez c.core pages
  plain : ∀ x ∈ pages, plainPage s2 c x = true
  counter : c.Counter s2 .sync (dword r 24) o s3

theorem ConfiguresRing.roomB (h : ConfiguresRing a n c s s1 s2 s3 r pages pl o) : c.RoomB s3 := by
  refine h.counter.roomB (h.room.of_group? ?_)
  rw [h.touched, State.group?_touch, h.reads.group?]

/-- The ring that the issue finds under its number decides between the trap and the held operation. -/
theorem ConfiguresRing.execCringCfg_eq (h : ConfiguresRing a n c s s1 s2 s3 r pages pl o) : execCringCfg a n s =
    .next (settle s c (if (c.team.ring? n.toNat).isSome then .error (.trap PROT o.va)
      else .ok (sign c (c.held s3 (.cring 0 n.toNat (c.s a) r o ((List.range (4 * (bits (dword r 0).toNat 7 0 + 1))).map
        fun i => s3.paOf c.bez c.core c.key (dword r 8 + BitVec.ofNat 64 (256 * i)).toNat))) [c.s a]))) := by
  refine issue_settles h.issuing ?_
  have hg := State.ctx_group h.issuing.ctx
  have hw : pages.find? isWindow = none := by simpa [List.find?_eq_none] using h.outside
  have hp : pages.find? (fun x => !plainPage s2 c x) = none := by simpa [List.find?_eq_none] using h.plain
  have hl := checkLanes_area h.reaches
  rw [← h.touched] at hl
  simp [classB, h.leader, h.aligned, gateB_room (t := s) hg h.room, readRecord, readRecordAs_reads hg h.reads, h.buf, h.ctrl, h.peers,
    h.record, ← h.areas, hw, hp, hl, counterAt_counter h.counter, defer_room h.roomB, bind, Except.bind]
  cases c.team.ring? n.toNat <;> simp [throw, throwThe, MonadExceptOf.throw]

/-- `cring rel` and `cring close`, as the kinds of held operation that they are (R270). -/
def ReleasesRing (i : Instr) (k : Nat) (a : BitVec 8) (n : BitVec 3) : Prop :=
  i = .cringRel a n ∧ k = 1 ∨ i = .cringClose a n ∧ k = 2

theorem ReleasesRing.exec_eq {i : Instr} {k : Nat} (hi : ReleasesRing i k a n) (s : State) : exec i s = ringOp i k a n s := by
  obtain ⟨rfl, rfl⟩ | ⟨rfl, rfl⟩ := hi <;> rfl

theorem ReleasesRing.exec_unconfigured {i : Instr} {k : Nat} (hi : ReleasesRing i k a n) (hl : c.g.sh = false) (h : Issuing i c s)
    (hn : c.team.ring? n.toNat = none) : exec i s = .next (c.traps s PROT 0) := by
  rw [hi.exec_eq]
  exact issue_trap h (by simp [classB, hl, hn, bind, Except.bind])

theorem ReleasesRing.exec_held {i : Instr} {k : Nat} (hi : ReleasesRing i k a n) (hl : c.g.sh = false) (h : Issuing i c s)
    (hn : c.team.ring? n.toNat = some ring) (hr : c.RoomB s) :
    exec i s = .next (c.past (sign c (c.held s (.cring k n.toNat (c.s a) [] (.stash 0 0 0) [])) [c.s a])) := by
  rw [hi.exec_eq]
  exact issue_ok h (by simp [classB, hl, hn, defer_room hr, bind, Except.bind])

/-! ### `xtable` (R277) -/

theorem execXtable_held (hl : c.g.sh = false) (hr : c.RoomB s) (h : Issuing (.xtable a) c s) (h64 : (c.s a).toNat % 64 = 0)
    (hrd : c.Reads s .scalarLoad (c.s a) 64 r s1) (hz : bits (dword r 0).toNat 15 12 = 0) (hz' : bits (dword r 0).toNat 63 28 = 0)
    (hs : ∀ x ∈ slice r 8 56, x = 0) (hn : bits (dword r 0).toNat 11 0 + bits (dword r 0).toNat 27 16 + 1 ≤ 4096)
    (hp : c.Pieces s1 (c.s a + 64) (bits (dword r 0).toNat 27 16 + 1) image s2) :
    execXtable a s = .next (c.past (sign c (c.held s2 (.xtable image (dword r 0))) [c.s a])) := by
  refine issue_ok h ?_
  have hg := State.ctx_group h.ctx
  have hs' : ¬ ∃ x ∈ slice r 8 56, ¬ x = 0#8 := by simpa using hs
  simp [classB, hl, h64, gateB_room (t := s) hg hr, readRecord, readRecordAs_reads hg hrd, hz, hz', hs', Nat.not_lt.2 hn,
    readPieces_pieces (a := c.s a + 64#64) hp, defer_room ((hr.of_group? (hrd.group? _)).of_group? (hp.group? _)), bind, Except.bind]

/-! ### `tcopy` (R271) -/

theorem execTcopy_empty (h : Issuing (.tcopy d a b) c s) (he : c.em = 0) (hr : c.g.sh = true ∨ c.RoomB s) :
    execTcopy d a b s = .next (c.past (sign c s [c.s d, c.s a, c.s b])) :=
  issue_ok h (by simp only [he, if_true]; exact classB_nothing hr)

/-- A `tcopy` that names a line of one of its team's rings (R271). -/
structure CopiesLine (d a b : BitVec 8) (c : Ctx) (s : State) (ring : Ring) : Prop where
  issuing : Issuing (.tcopy d a b) c s
  lanes : ¬ c.em = 0#32
  ringNum : ¬ 32768 ≤ (c.s a).toNat
  lineLow : ¬ (c.s b).toNat = 0
  lineHigh : ¬ 4294967296 ≤ (c.s b).toNat
  aligned : (c.s d).toNat % 256 = 0
  ringAt : c.team.ring? ((c.s a).toNat / 4096) = some ring
  copies : ring.mode = false

theorem CopiesLine.execTcopy_rank (h : CopiesLine d a b c s ring) (hr : ring.ranks ≤ (c.s a).toNat % 4096) :
    execTcopy d a b s = .next (c.traps s RANK 0) :=
  issue_trap h.issuing (by simp [h.lanes, h.ringNum, h.lineLow, h.lineHigh, h.aligned, h.ringAt, h.copies, hr])

theorem CopiesLine.execTcopy_shadow (h : CopiesLine d a b c s ring) (hr : ¬ ring.ranks ≤ (c.s a).toNat % 4096) (hm : c.MayCommit s)
    (hs : c.g.sh = true) : execTcopy d a b s = .next (c.past (sign c (c.commit s false) [c.s d, c.s a, c.s b])) :=
  issue_ok h.issuing (by simp [h.lanes, h.ringNum, h.lineLow, h.lineHigh, h.aligned, h.ringAt, h.copies, hr, hs, boundary_commit false hm,
    classB, bind, Except.bind])

theorem CopiesLine.execTcopy_waits (h : CopiesLine d a b c s ring) (hr : ¬ ring.ranks ≤ (c.s a).toNat % 4096) (hm : c.MayCommit s)
    (hl : c.g.sh = false) (hroom : c.RoomB s) (hp : ((c.commit s false).publish c.g c.core 3).hasPosted c.g ring.scope = true) :
    execTcopy d a b s = .next (c.waits ((c.commit s false).publish c.g c.core 3) (.posted ring.scope)) :=
  issue_wait h.issuing (by simp [h.lanes, h.ringNum, h.lineLow, h.lineHigh, h.aligned, h.ringAt, h.copies, hr, hl, boundary_commit false hm,
    gateB_room (t := s) (State.ctx_group h.issuing.ctx) hroom, hp, classB, bind, Except.bind])

/-- The command that a `tcopy` queues with the engine, after its commit. -/
def Ctx.lineCmd (c : Ctx) (s t : State) (d a b : BitVec 8) : Cmd :=
  { id := t.nextCmd, by_ := c.issuer (some (c.nextOp s)) none,
    what := .tcopy (c.s d) ((c.s a).toNat / 2 ^ 12) ((c.s a).toNat % 2 ^ 12) (c.s b).toNat }

theorem CopiesLine.execTcopy_queues {t : State} (h : CopiesLine d a b c s ring) (hr : ¬ ring.ranks ≤ (c.s a).toNat % 4096)
    (hm : c.MayCommit s) (hl : c.g.sh = false) (hroom : c.RoomB s) (h1 : s1 = (c.commit s false).publish c.g c.core 3)
    (hp : s1.hasPosted c.g ring.scope = false) (hroom1 : c.RoomB s1) (ht : t = c.opB s1 (.engine s1.nextCmd)) :
    execTcopy d a b s = .next (c.past (sign c { t with cmds := t.cmds ++ [c.lineCmd s1 t d a b], nextCmd := t.nextCmd + 1 }
      [c.s d, c.s a, c.s b])) := by
  subst ht h1
  exact issue_ok h.issuing (by simp [h.lanes, h.ringNum, h.lineLow, h.lineHigh, h.aligned, h.ringAt, h.copies, hr, hl,
    boundary_commit false hm, gateB_room (t := s) (State.ctx_group h.issuing.ctx) hroom, hp, issueB_room hroom1, classB, Ctx.lineCmd, bind, Except.bind])

/-- A shadow signs the operand of an instruction that is held (R97, R98). -/
theorem exec_ringOp_shadow {i : Instr} {ops : List W64} (hs : c.g.sh = true) (hi : i = .cringCfg a n ∧ ops = [c.s a] ∨
    i = .cringRel a n ∧ ops = [c.s a] ∨ i = .cringClose a n ∧ ops = [c.s a] ∨ i = .xtable a ∧ ops = [c.s a]) (h : Issuing i c s) :
    exec i s = .next (c.past (sign c s ops)) := by
  obtain ⟨rfl, rfl⟩ | ⟨rfl, rfl⟩ | ⟨rfl, rfl⟩ | ⟨rfl, rfl⟩ := hi <;> exact issue_ok h (by simp [classB, hs, bind, Except.bind])

end Rings

/-- Settles O40: `cring cfg` through the checks that its record and its pages have passed (`ConfiguresRing`), `tcopy` through those of its
line (`CopiesLine`), the held instructions through the room that reading leaves as it was. -/
theorem ringInstructions : Obligations.RingInstructions := by
  intro s s1 s2 s3 t c d a b n r image pages pl o ring
  refine ⟨fun hl hr h h64 hrd hb hct hp hrec hpg hw hre h2 hpl hco => ?_, fun i k hi hl h => ⟨?_, fun hn hr => ?_⟩,
    fun hl hr h h64 hrd hz hz' hs hn hp => ?_, fun h he hr => execTcopy_empty h he hr, fun h he hx hy hz ha hr hm => ?_,
    fun i ops hs hi h => exec_ringOp_shadow hs hi h⟩
  · have hcfg : ConfiguresRing a n c s s1 s2 s3 r pages pl o := ⟨hl, hr, h, h64, hrd, hb, hct, hp, hrec, hpg, hw, hre, h2, hpl, hco⟩
    rw [exec_cringCfg, hcfg.execCringCfg_eq]
    refine ⟨fun hn pas hpas => ?_, fun hn => ?_⟩
    · simp [hn, settle, Ctx.past, hpas]
    · simp [hn, settle, Ctx.traps]
  · exact ReleasesRing.exec_unconfigured hi hl h
  · exact ReleasesRing.exec_held hi hl h hn hr
  · exact execXtable_held hl hr h h64 hrd hz hz' hs hn hp
  · have hline : CopiesLine d a b c s ring := ⟨h, he, by omega, by omega, by omega, ha, hr, hm⟩
    refine ⟨fun hq => hline.execTcopy_rank (by omega), fun hq hm h1 hs => ?_, fun hq hm hroom h1 hl => ⟨fun hp => ?_, fun hp hr1 ht => ?_⟩⟩
    · subst h1; exact hline.execTcopy_shadow (by omega) hm hs
    · subst h1; exact hline.execTcopy_waits (by omega) hm hl hroom hp
    · exact hline.execTcopy_queues (by omega) hm hl hroom h1 hp hr1 ht

end Sys2Proof.Machine
end

section
/-! SUPPORT. `coll` and `xroute` at their issue (R97, R98, R267, R272 to R274, R278, R279; log entry 54). -/

namespace Sys2Proof.Machine

open Sys2Proof

/-! ### Commands with a ticket -/

section Draws

variable {s t : State} {c : Ctx} {oc : Option Obj} {o : Obj} {op : Nat} {y : Issuer} {k : Issuer → Option Obj → State → State}

/-- A command without a counter, or whose ticket is drawn, is queued as drawn (R189). -/
theorem drawFor_drawn (h : oc = none ∧ t = s ∧ y = c.issuer (some op) none ∨
    ∃ n, oc = some o ∧ s.drawInTurn c.g o c.handle = .ticket n t ∧ y = c.issuer (some op) (some (o, n))) :
    drawFor c s op oc k = k y none t := by
  obtain ⟨rfl, rfl, rfl⟩ | ⟨n, rfl, hn, rfl⟩ := h
  · rfl
  · simp only [drawFor, hn]

/-- The issuer of a command whose draw waits (R189). -/
def Ctx.undrawn (c : Ctx) (op : Nat) (o : Obj) : Issuer := { c.issuer (some op) (some (o, 0)) with drawn := false }

/-- A command whose draw waits is queued as undrawn (R189). -/
theorem drawFor_waits (hn : s.drawInTurn c.g o c.handle = .wait) : drawFor c s op (some o) k = k (c.undrawn op o) (some o) s := by
  simp only [drawFor, hn]; rfl

end Draws

section Collectives

variable {s s1 s2 s3 s4 t : State} {c : Ctx} {d a b : BitVec 8} {r : List Byte} {pl : Nat → Place} {o : Obj} {ring : Ring}
  {pas : List Nat} {areas : List W64} {desc : CollDesc}

/-! ### `coll` (R272, R273) -/

theorem execColl_shadow (h : Issuing (.coll d a b) c s) (hs : c.g.sh = true) (hm : c.MayCommit s) :
    execColl d a b s = .next (c.past (sign c (c.commit s false) [c.s a, c.s b])) :=
  issue_ok h (by simp [hs, boundary_commit false hm, bind, Except.bind])

/-- The `coll` of a contributing group is that of `collPart`, signed. -/
theorem execColl_part (h : Issuing (.coll d a b) c s) (hl : c.g.sh = false) (hc : isComm s c d (c.s a) = false) :
    execColl d a b s = .next (settle s c ((collPart c s d).map fun u => sign c u [c.s a, c.s b])) :=
  issue_settles h (by simp [hl, hc, bind, Except.bind, Except.map])

/-- The `coll` of the communication group is that of `collComm`, signed. -/
theorem execColl_comm (h : Issuing (.coll d a b) c s) (hl : c.g.sh = false) (hc : isComm s c d (c.s a) = true) :
    execColl d a b s = .next (settle s c ((collComm c s d a b).map fun u => sign c u [c.s a, c.s b])) :=
  issue_settles h (by simp [hl, hc, bind, Except.bind, Except.map])

section Part

variable {g : Group}

theorem collPart_full (hg : s.group? c.g = some c.grp) (hd : d.toNat < c.grp.t.length) (hr : c.RoomB s) (hm : c.MayCommit s)
    (h1 : (c.commit s false).group? c.g = some g) (hq : 8 ≤ g.mq.length) : collPart c s d = .error (.wait .queue (c.commit s false)) := by
  simp [collPart, Nat.not_le.2 hd, gateB_room (t := s) hg hr, boundary_commit false hm, h1, hq, bind, Except.bind, throw, throwThe,
    MonadExceptOf.throw]

theorem collPart_queued (hg : s.group? c.g = some c.grp) (hd : d.toNat < c.grp.t.length) (hr : c.RoomB s) (hm : c.MayCommit s)
    (h1 : (c.commit s false).group? c.g = some g) (hq : g.mq.length < 8) (h2 : s2 = (c.commit s false).publish c.g c.core 3)
    (hr2 : c.RoomB s2) : collPart c s d = .ok (c.mod (enqueue c (c.opB s2 .event) (c.nextOp s2) (.coll d.toNat (g.colls + 1)) 0xFFFFFFFF
      (some (c.nextOp s2)) false) fun x => { x with colls := x.colls + 1 }) := by
  subst h2
  simp [collPart, Nat.not_le.2 hd, gateB_room (t := s) hg hr, boundary_commit false hm, h1, Nat.not_le.2 hq, issueB_room hr2, bind, Except.bind]

end Part

/-- The addresses that the sequencer will write: those of OUT of an all-gather, and the status word (R160, R274). -/
def collAreas (c : Ctx) (r : List Byte) (ring : Ring) : List W64 :=
  (if crFunc r = 2 ∧ ¬ ring.ranks = 0 ∧ ¬ recGroups c.kern.record - 1 = 0 then
    areaPages (crOut r) (ring.ranks * (recGroups c.kern.record - 1) * 4096) ++
      [crOut r + BitVec.ofNat 64 (ring.ranks * (recGroups c.kern.record - 1) * 4096 - 1)] else []) ++
  (if crStat r = 0#64 then [] else [crStat r])

/-- A communication group's `coll` whose record, areas, peers and barrier have passed their checks (R272, R273). -/
structure BeginsCollective (d a b : BitVec 8) (c : Ctx) (s s1 s2 s3 : State) (r : List Byte) (ring : Ring) (pas : List Nat)
    (pl : Nat → Place) (o : Obj) : Prop where
  group : s.group? c.g = some c.grp
  room : c.RoomB s
  dest : d = 0
  aligned : (c.s a).toNat % 64 = 0
  reads : c.Reads s .scalarLoad (c.s a) 64 r s1
  role : crRole r = c.grp.role
  stat : (crStat r).toNat % 8 = 0
  out : (crOut r).toNat % 4096 = 0
  high : bits (dword r 0).toNat 63 28 = 0
  mid : bits (dword r 0).toNat 15 10 = 0
  word : dword r 8 = 0
  rest : ∀ x ∈ slice r 32 32, x = 0
  func : crFunc r < 5
  solo : roleGroups (recRole c.kern.record c.grp.role) = 1
  ringAt : c.team.ring? (crRing r) = some ring
  root : crRoot r < ring.ranks
  shares : crFunc r = 1 ∨ crFunc r = 4 → (recGroups c.kern.record - 1) % ring.ranks = 0
  mode : ring.mode = true
  reaches : ∀ k < (collAreas c r ring).length, c.Reaches s1 .store 1 ((collAreas c r ring)[k]?.getD 0) (pl k)
  peers : c.Peers (s1.touch c.bez c.core (collAreas c r ring)) ring pas s2
  object : c.Object s2 .store (c.s b) o s3

/-- The descriptor of the ring's next collective under a record (R273). -/
def Ctx.collDesc (c : Ctx) (r : List Byte) (ring : Ring) : CollDesc :=
  { seq := ring.coll.seq + 1, func := crFunc r, int := crInt r, root := crRoot r, groups := recGroups c.kern.record - 1, ranks := ring.ranks }

/-- The ring's collective begins, its descriptor goes to every rank of this device, and the group waits for its end under operation
`op` (R273, R274). -/
def Ctx.beginsColl (c : Ctx) (s : State) (r : List Byte) (ring : Ring) (o : Obj) (pas : List Nat) (op : Nat) : State :=
  c.mod (pas.foldl (fun s pa => if pa / 2 ^ 43 = s.devId then s.post (.desc pa ring.rank (c.collDesc r ring)) else s)
    (s.modTeam c.team.sid fun x => x.modRing (crRing r) fun y =>
      { y with coll := { y.coll with
          st := .matching, seq := ring.coll.seq + 1, order := c.grp.colls + 1, commGrp := c.grp.num, own := c.collDesc r ring, tiles := [],
          out := crOut r, stat := crStat r, done := some o, pas := pas } }))
    fun g => { g with colls := g.colls + 1, collOp := op, life := .collective, inSet := false }

/-- Past its checks the `coll` waits for the ring's collective object, or commits and begins the collective. -/
theorem BeginsCollective.collComm_eq (h : BeginsCollective d a b c s s1 s2 s3 r ring pas pl o) :
    collComm c s d a b = if ring.coll.st = .idle then (boundary c s3 false).bind fun s4 => issueB c (s4.publish c.g c.core 3) .event fun op u =>
      .ok (c.beginsColl u r ring o pas op) else .error (.wait .none s3) := by
  have hrest : ¬ ∃ x ∈ slice r 32 32, ¬ x = 0#8 := by simpa using h.rest
  have hshares : ¬ ((crFunc r = 1 ∨ crFunc r = 4) ∧ ¬ (recGroups c.kern.record - 1) % ring.ranks = 0) := fun hx => hx.2 (h.shares hx.1)
  have hareas := checkLanes_area h.reaches
  have hpeers := collPeers_peers h.peers
  simp only [collAreas] at hareas hpeers
  by_cases hi : ring.coll.st = .idle <;>
  simp [collComm, gateB_room (t := s) h.group h.room, h.dest, h.aligned, readRecord, readRecordAs_reads h.group h.reads, h.role, h.stat, h.out,
    h.high, h.mid, h.word, hrest, Nat.not_le.2 h.func, h.solo, h.ringAt, Nat.not_le.2 h.root, hshares, h.mode, hpeers,
    objAt_object h.object, hi, bind, Except.bind, hareas, Ctx.beginsColl, Ctx.collDesc, throw, throwThe, MonadExceptOf.throw,
    -List.length_append]

theorem BeginsCollective.collComm_begins (h : BeginsCollective d a b c s s1 s2 s3 r ring pas pl o) (hi : ring.coll.st = .idle)
    (hm : c.MayCommit s3) (h4 : s4 = (c.commit s3 false).publish c.g c.core 3) (hr : c.RoomB s4) :
    collComm c s d a b = .ok (c.beginsColl (c.opB s4 .event) r ring o pas (c.nextOp s4)) := by
  subst h4
  rw [h.collComm_eq, if_pos hi, boundary_commit false hm]
  simp [Except.bind, issueB_room hr]

/-! ### `xroute` (R278, R279) -/

theorem execXroute_empty (h : Issuing (.xroute d a b) c s) (he : c.em = 0) (hr : c.g.sh = true ∨ c.RoomB s) :
    execXroute d a b s = .next (c.past (sign c s [c.s d, c.s a, c.s b])) :=
  issue_ok h (by simp only [he, if_true]; exact classB_nothing hr)

theorem execXroute_shadow (h : Issuing (.xroute d a b) c s) (he : c.em ≠ 0) (hs : c.g.sh = true) (hm : c.MayCommit s) :
    execXroute d a b s = .next (c.past (sign c (c.commit s false) [c.s d, c.s a, c.s b])) :=
  issue_ok h (by simp [show ¬ c.em = 0#32 from he, hs, boundary_commit false hm, bind, Except.bind])

/-- An `xroute` whose record, status word and counter have passed their checks, up to its commit (R278, R279). -/
structure Routes (d a b : BitVec 8) (c : Ctx) (s s1 s2 s3 : State) (r : List Byte) (p : Place) (oc : Option Obj) (o : Obj) : Prop where
  issuing : Issuing (.xroute d a b) c s
  lanes : ¬ c.em = 0#32
  leader : c.g.sh = false
  aligned : (c.s a).toNat % 64 = 0
  room : c.RoomB s
  reads : c.Reads s .scalarLoad (c.s a) 64 r s1
  src : (rrSrc r).toNat % 256 = 0
  experts : (rrExperts r).toNat % 2 = 0
  tokens : (rrTokens r).toNat % 4 = 0
  spill : (rrSpill r).toNat % 32 = 0
  stat : (c.s b).toNat % 8 = 0
  record : routeRecordBad r = false
  reaches : c.Reaches s1 .store 8 (c.s b) p
  touched : s2 = s1.touch c.bez c.core [c.s b]
  counter : d = 0xF0 ∧ s3 = s2 ∧ oc = none ∨ d ≠ 0xF0 ∧ c.Counter s2 .sync (c.s d) o s3 ∧ oc = some o
  commits : c.MayCommit s3

/-- The command of an `xroute` joins the engine's queue. -/
def Ctx.queuesRoute (c : Ctx) (t : State) (b : BitVec 8) (r : List Byte) (y : Issuer) : State :=
  { t with cmds := t.cmds ++ [{ id := t.nextCmd, by_ := y, what := .xroute r (c.s b) {} }], nextCmd := t.nextCmd + 1 }

/-- Past its checks the `xroute` queues its command under the draw of its ticket. -/
theorem Routes.execXroute_eq {p : Place} {oc : Option Obj} (h : Routes d a b c s s1 s2 s3 r p oc o)
    (h4 : s4 = (c.commit s3 false).publish c.g c.core 3) (hr : c.RoomB s4) :
    execXroute d a b s = .next (c.past (sign c (drawFor c (c.opB s4 (.engine s4.nextCmd)) (c.nextOp s4) oc fun y w t => match w with
      | none => c.queuesRoute t b r y
      | some o => c.mod (c.queuesRoute t b r y) fun g => g.resolve (c.nextOp s4) id (.draw o (.cmd t.nextCmd) 33))
      [c.s d, c.s a, c.s b])) := by
  subst h4
  have hg := State.ctx_group h.issuing.ctx
  have hst := checkLanes_reach (lanes := [0]) (ad := fun _ => c.s b) (pl := fun _ => p) (fun _ _ => h.reaches)
  simp only [List.map_cons, List.map_nil, ← h.touched] at hst
  obtain ⟨rfl, rfl, rfl⟩ | ⟨hd, hc, rfl⟩ := h.counter
  all_goals refine issue_ok h.issuing ?_
  · simp [h.lanes, h.leader, h.aligned, gateB_room (t := s) hg h.room, readRecord, readRecordAs_reads hg h.reads, h.src, h.experts, h.tokens,
      h.spill, h.stat, h.record, hst, boundary_commit false h.commits, issueB_room hr, bind, Except.bind] <;>
    rfl
  · have hd' : ¬ d = 0xF0#8 := hd
    simp [h.lanes, h.leader, h.aligned, gateB_room (t := s) hg h.room, readRecord, readRecordAs_reads hg h.reads, h.src, h.experts, h.tokens,
      h.spill, h.stat, h.record, hst, hd', counterAt_counter hc, boundary_commit false h.commits, issueB_room hr, bind, Except.bind] <;>
    rfl

end Collectives

/-- Settles O41: `coll` through the two roles that a group can have in it (`execColl_part`, `execColl_comm`), `xroute` through the command
that it queues under the draw of its ticket (`Routes.execXroute_eq`). -/
theorem collectiveInstructions : Obligations.CollectiveInstructions := by
  intro s s1 s2 s3 s4 t c d a b r pl o ring pas areas desc
  refine ⟨fun h hs hm => execColl_shadow h hs hm, fun g h hl hc hd hr hm h1 hg => ?_,
    fun h hl hc hr hd h64 hrd hrole hstat hout hz1 hz2 hw hz3 hf hsolo hring hroot hsh hmode har hre hpe hob => ?_,
    fun h he hr => execXroute_empty h he hr, fun h he hs hm => execXroute_shadow h he hs hm,
    fun p oc h he hl h64 hr hrd hsrc hex htk hsp hst hrec hre h2 hct hm h4 hr4 => ?_⟩
  · subst h1
    have hgrp := State.ctx_group h.ctx
    rw [exec_coll, execColl_part h hl hc]
    refine ⟨fun hq => ?_, fun hq h2 hr2 => ?_⟩
    · rw [collPart_full hgrp hd hr hm hg hq]; rfl
    · rw [collPart_queued hgrp hd hr hm hg hq h2 hr2]; rfl
  · obtain rfl : areas = collAreas c r ring := by simp [har, collAreas]
    have hbegin : BeginsCollective d a b c s s1 s2 s3 r ring pas pl o := ⟨State.ctx_group h.ctx, hr, hd, h64, hrd, hrole, hstat, hout, hz1, hz2,
      hw, hz3, hf, hsolo, hring, hroot, hsh, hmode, hre, hpe, hob⟩
    rw [exec_coll, execColl_comm h hl hc]
    refine ⟨fun hi => ?_, fun hi hm h4 hr4 hdesc ht => ?_⟩
    · rw [hbegin.collComm_eq, if_neg hi]; rfl
    · subst hdesc ht
      rw [hbegin.collComm_begins hi hm h4 hr4]; rfl
  · have hroute : Routes d a b c s s1 s2 s3 r p oc o := ⟨h, he, hl, h64, hr, hrd, hsrc, hex, htk, hsp, hst, hrec, hre, h2, hct, hm⟩
    rw [exec_xroute, hroute.execXroute_eq h4 hr4]
    refine ⟨fun y hy => ?_, fun hoc ht hn => ⟨c.undrawn (c.nextOp s4) o, rfl, rfl, rfl, ?_⟩⟩
    · rw [drawFor_drawn hy]; rfl
    · subst hoc ht
      rw [drawFor_waits hn]; rfl

end Sys2Proof.Machine
end

section
/-! SUPPORT. `task`, `trap`, `tret` and the masks (R97, R281, R282, R286, R294 to R296; log entry 50). -/

namespace Sys2Proof.Machine

open Sys2Proof

section Tasks

variable {s s1 s2 : State} {c : Ctx} {n r d : BitVec 8} {i : BitVec 16} {e : List Byte} {bound : Nat}

/-! ### `task` (R282, R286) -/

/-- The bound of the new task of a `task` (R286). -/
def Ctx.taskBound (c : Ctx) (n : BitVec 8) : Nat := if n = 0 then recVbound c.kern.record else n.toNat

theorem execTask_illop (h : Issuing (.task n r) c s) (hbad : recRecipes c.kern.record = 0 ∨ recVbound c.kern.record < n.toNat ∨
    bits (dword c.kern.recipe0 0).toNat 8 0 ≤ r.toNat) : execTask n r s = .next (c.traps s ILLOP 0) := by
  refine issue_trap h ?_
  by_cases h0 : recRecipes c.kern.record = 0
  · simp [h0]
  · by_cases h1 : recVbound c.kern.record < n.toNat
    · simp [h1]
    · simp [(hbad.resolve_left h0).resolve_left h1]

/-- A `task` that names a recipe of the kernel's table and a bound within VBOUND (R286). -/
structure NamesRecipe (n r : BitVec 8) (c : Ctx) (s : State) : Prop where
  issuing : Issuing (.task n r) c s
  recipes : ¬ recRecipes c.kern.record = 0#64
  bound : ¬ recVbound c.kern.record < n.toNat
  entry : ¬ bits (dword c.kern.recipe0 0).toNat 8 0 ≤ r.toNat

/-- The effect of a `task` whose task has been committed already is the new task. -/
theorem NamesRecipe.execTask_passed (h : NamesRecipe n r c s) (hb : c.grp.bnd = .passed) : execTask n r s =
    .next (c.past (c.mod s fun g => { g with recipe := r, bound := c.taskBound n, explicit := true })) :=
  issue_ok h.issuing (by simp [h.recipes, h.bound, h.entry, hb, Ctx.taskBound])

/-- The context in which the entry of the next task has been read. -/
def Ctx.withEntry (c : Ctx) (e : List Byte) : Ctx := { c with grp := { c.grp with nextEntry := some e } }

/-- A `task` before its commit: the entry read decides between its traps and the commit, after which the new task begins. -/
theorem NamesRecipe.execTask_reads (h : NamesRecipe n r c s) (hb : c.grp.bnd ≠ .passed) (hread : readEntry c s r.toNat = .ok (s1, e)) :
    execTask n r s = .next (settle s c (if recipeBad e = true then .error (.trap ILLOP)
      else if ∃ m ∈ vlistOf e, c.grp.v.length ≤ m then .error (.trap ILLOPERAND)
      else (boundary (c.withEntry e) (c.mod s1 fun g => { g with nextEntry := some e }) false).map fun s2 =>
        c.mod s2 fun g => { g with recipe := r, bound := c.taskBound n, explicit := true })) := by
  refine issue_settles h.issuing ?_
  simp [h.recipes, h.bound, h.entry, hb, hread, bind, Except.bind, Except.map, Ctx.withEntry, Ctx.taskBound, throw, throwThe,
    MonadExceptOf.throw]

/-- A leader reads the entry, doubleword by doubleword, and passes it to its shadow (R97, R282). -/
theorem readEntry_leader {u : Nat → State} {w : Nat → List Byte} {m : Nat} (hl : c.g.sh = false) (hg : (u 0).group? c.g = some c.grp)
    (h : ∀ k < 4, c.Reads (u k) .scalarLoad (recRecipes c.kern.record + BitVec.ofNat 64 (32 + 32 * m + 8 * k)) 8 (w k) (u (k + 1)))
    (he : e = w 0 ++ w 1 ++ w 2 ++ w 3) :
    readEntry c (u 0) m = .ok (passSide c (u 4) ((List.range 4).map fun i => dword e (8 * i)), e) := by
  have hread := readDwords_reads 4 u w (ad := recRecipes c.kern.record + BitVec.ofNat 64 (32 + 32 * m)) hg
    fun k hk => by rw [addr_add_offsets]; exact h k hk
  have hw : (List.range 4).flatMap w = e := by simp [List.range, List.range.loop, he]
  rw [hw] at hread
  unfold readEntry
  rw [hl, if_neg (by decide), hread]
  rfl

/-- A shadow takes the entry that its leader has read (log entry 50). -/
theorem readEntry_shadow {ld : Group} {x rest : List W64} {m : Nat} (hs : c.g.sh = true) (hg : s.group? c.g.leader = some ld)
    (hx : x.length = 4) (hside : ld.side = x ++ rest) : readEntry c s m =
      .ok (s.modGroup c.g.leader fun g => { g with side := g.side.drop 4 }, x.flatMap fun y => leBytes y.toNat 8) := by
  have hlen : ¬ (x ++ rest).length < 4 := by simp [hx]
  have htake : (x ++ rest).take 4 = x := by rw [← hx, List.take_left]
  unfold readEntry takeSide
  rw [hs, if_pos rfl]
  simp only [hg, Option.elim_some, hside, if_neg hlen, htake] <;>
  rfl

/-- Under SHADOW, outside a handler, a commit waits for that of the pair (R287). -/
theorem boundary_waits_pair (hb : c.grp.bnd ≠ .passed) (hs : c.shadowed = true) (here : Bool) :
    boundary c s here = .error (.wait .boundary (c.mod s fun g => { g with bnd := .waiting, bndHere := here })) := by
  have hm : (c.grp.mode == .handler) = false := by
    simp only [Ctx.shadowed, Bool.and_eq_true, bne_iff_ne] at hs
    simpa using hs.2
  simp [boundary, hb, hs, hm]

/-! ### `trap` and `tret` (R294, R295) -/

theorem execTrap_zero (h : Issuing (.trap d i) c s) (h0 : c.s d = 0) : execTrap d i s = .next (c.past s) :=
  issue_ok h (if_pos h0)

theorem execTrap_raises (h : Issuing (.trap d i) c s) (h0 : c.s d ≠ 0) : execTrap d i s =
    .next ((c.mod s fun g => (g.closeBatches c.cl).modClause fun cl => { cl with issuedM := false, issuedC := false }).raise c
      SWTRAP 0 i { hdr := c.cl.next }) :=
  issue_done h (if_neg h0)

theorem execTret_normal (h : Issuing .tret c s) (hm : c.grp.mode = .normal) : execTret s = .next (c.traps s ILLOP 0) :=
  issue_trap h (by simp [hm])

theorem execTret_recompute (h : Issuing .tret c s) (hm : c.grp.mode = .recompute) : execTret s =
    .next (c.past (c.mod s fun g => ({ g with mode := .normal }).modClause fun cl => { cl with close := false })) :=
  issue_ok h (by simp [hm])

section Handler

variable (h : Issuing .tret c s) (hm : c.grp.mode = .handler) (hc : c.MayCommit s)
include h hm hc

theorem execTret_resumes (hf : flashesBack c.kern.record = false) :
    execTret s = .next (c.mod (c.commit s false) fun g => (g.closeBatches c.cl).handlerReturn) :=
  issue_done h (by simp [hm, hf, boundary_commit false hc, bind, Except.bind])

theorem execTret_flashesBack (hf : flashesBack c.kern.record = true)
    (hn : ((c.commit s false).group? c.g).any (fun g => g.ops.any fun o => o.ck) = false) : execTret s =
      .next ((c.mod (c.commit s false) fun g => { g.closeBatches c.cl with masked := false, life := .active }).flashbackPair c.g) :=
  issue_done h (by rw [hm]; simp only [boundary_commit false hc, bind, Except.bind, hf, hn]; rfl)

theorem execTret_waits (hf : flashesBack c.kern.record = true)
    (hn : ((c.commit s false).group? c.g).any (fun g => g.ops.any fun o => o.ck) = true) :
    execTret s = .next (c.waits (c.commit s false) .ckpt) :=
  issue_wait h (by rw [hm]; simp only [boundary_commit false hc, bind, Except.bind, hf, hn]; rfl)

end Handler

/-- The group goes on as it trapped (R295). -/
theorem Group.handlerReturn_fields (g : Group) : g.handlerReturn.masked = false ∧ g.handlerReturn.mode = .normal ∧
    g.handlerReturn.gmode = g.report.tgmode.setWidth 16 ∧
    (if g.report.tem.getLsbD 32 then g.handlerReturn.pcB.hdr else g.handlerReturn.pcA.hdr) = g.report.tresume.setWidth 57 := by
  refine ⟨rfl, rfl, rfl, ?_⟩
  cases hb : g.report.tem.getLsbD 32 <;> simp only [Group.handlerReturn, hb] <;> rfl

/-! ### The masks (R296) -/

theorem execTunmask_trapped (h : Issuing .tunmask c s) (hl : c.grp.life = .trapped) : execTunmask s = .next (c.traps s ILLOP 0) :=
  issue_trap h (by simp [hl])

theorem execTunmask_unmasks (h : Issuing .tunmask c s) (hl : c.grp.life ≠ .trapped) :
    execTunmask s = .next (c.past (c.mod s fun g => { g with masked := false })) :=
  issue_ok h (by simp [hl])

end Tasks

/-- Settles O43: `task` through the entry that it reads (`NamesRecipe.execTask_reads`), a leader's from memory and a shadow's from its
leader, and `tret` through the mode of its group. -/
theorem tasksAndMasks : Obligations.TasksAndMasks := by
  intro s s1 s2 c c1 n r d i e u w bound
  refine ⟨fun h hbound => ⟨execTask_illop h, fun h0 h1 h2 => ?_⟩, fun h => ⟨execTrap_zero h, execTrap_raises h⟩, fun h => ?_,
    Group.handlerReturn_fields, fun h => issue_ok h rfl, fun h => ⟨execTunmask_trapped h, execTunmask_unmasks h⟩, fun h => issue_ok h rfl⟩
  · subst hbound
    have hname : NamesRecipe n r c s := ⟨h, h0, Nat.not_lt.2 h1, Nat.not_le.2 h2⟩
    refine ⟨hname.execTask_passed, fun hb hl h3 hreads he => ?_, fun ld x rest hb hs hsh hg hx hside he hbad hlist => ?_⟩
    · subst h3
      rw [exec_task, hname.execTask_reads hb (readEntry_leader hl (State.ctx_group h.ctx) hreads he)]
      refine ⟨fun hbad => ?_, fun hbad hlist => ?_, fun hbad hlist hc1 hs1 hm => ?_⟩
      · rw [if_pos hbad]; rfl
      · rw [if_neg (by simp [hbad]), if_pos hlist]; rfl
      · obtain rfl : c1 = c.withEntry e := hc1
        subst hs1
        rw [if_neg (by simp [hbad]), if_neg (by simpa using hlist), boundary_commit false hm]
        rfl
    · subst he
      rw [exec_task, hname.execTask_reads hb (readEntry_shadow hs hg hx hside), if_neg (by simp [hbad]), if_neg (by simpa using hlist),
        boundary_waits_pair (c := c.withEntry _) hb hsh]
      rfl
  · refine ⟨execTret_normal h, execTret_recompute h, fun hm hc h2 => ?_⟩
    subst h2
    refine ⟨execTret_resumes h hm hc, fun hf hn => execTret_flashesBack h hm hc hf ?_, fun hf hn => execTret_waits h hm hc hf ?_⟩
    · cases hg : (c.commit s false).group? c.g with
      | none => rfl
      | some g => simpa using hn g hg
    · obtain ⟨g, hg, o, ho, hck⟩ := hn
      rw [hg]
      simpa using ⟨o, ho, hck⟩

end Sys2Proof.Machine
end

section
/-! SUPPORT. How a trap of a leader is taken, and what the entry of a handler leaves (R82, R292, R293). -/

namespace Sys2Proof.Machine

open Sys2Proof

/-! ### The entry of a handler (R292, R293) -/

section Entry

variable (g : Group) (t : Team) (k : Kernel) (p : Pend)

/-- A clause broken off leaves none. -/
theorem Group.cut_clause : g.cut.clause = none := by
  unfold Group.cut
  cases hc : g.clause with
  | none => exact hc
  | some c => rfl

/-- A clause broken off changes nothing but the clause and the marks of its batches. -/
theorem Group.cut_frame : { g.cut with clause := g.clause, cutM := g.cutM, cutC := g.cutC } = g := by
  unfold Group.cut
  split <;> rfl

theorem Group.enterHandler_clause : (g.enterHandler t k p).clause = none := g.cut_clause

theorem Group.enterHandler_mq : (g.enterHandler t k p).mq = g.mq := (congrArg Group.mq g.cut_frame :)
theorem Group.enterHandler_v : (g.enterHandler t k p).v = g.v := (congrArg Group.v g.cut_frame :)
theorem Group.enterHandler_s : (g.enterHandler t k p).s = g.s := (congrArg Group.s g.cut_frame :)
theorem Group.enterHandler_t : (g.enterHandler t k p).t = g.t := (congrArg Group.t g.cut_frame :)
theorem Group.enterHandler_pcA : (g.enterHandler t k p).pcA = g.pcA := (congrArg Group.pcA g.cut_frame :)
theorem Group.enterHandler_pcB : (g.enterHandler t k p).pcB = g.pcB := (congrArg Group.pcB g.cut_frame :)

/-- The low byte of TCODE is the code of the trap. -/
theorem Group.reportOf_code : (g.reportOf t k p).tcode.setWidth 8 = BitVec.ofNat 8 p.code := by
  apply BitVec.eq_of_toNat_eq
  simp only [Group.reportOf, BitVec.toNat_setWidth, BitVec.toNat_ofNat]
  omega

/-- TEM holds the effective mask below the mark of slot B. -/
theorem Group.reportOf_tem : (g.reportOf t k p).tem.setWidth 32 = p.em := by
  apply BitVec.eq_of_toNat_eq
  have := p.em.isLt
  simp only [Group.reportOf, BitVec.toNat_setWidth, BitVec.toNat_ofNat]
  split <;> omega

theorem Group.reportOf_slotB : (g.reportOf t k p).tem.getLsbD 32 = p.slotB := by
  have := p.em.isLt
  cases hb : p.slotB <;> simp [Group.reportOf, hb, BitVec.getLsbD, Nat.testBit_eq_decide_div_mod_eq] <;> omega

/-- TRESUME holds the header of the resume point below its index. -/
theorem Group.reportOf_resume : (g.reportOf t k p).tresume.setWidth 57 = p.resume.hdr := by
  apply BitVec.eq_of_toNat_eq
  have := p.resume.hdr.isLt
  simp only [Group.reportOf, BitVec.toNat_setWidth, BitVec.toNat_ofNat]
  omega

theorem Group.reportOf_task : (g.reportOf t k p).ttask.setWidth 32 = g.taskSeq := by
  apply BitVec.eq_of_toNat_eq
  have := g.taskSeq.isLt
  simp only [Group.reportOf, BitVec.toNat_setWidth, BitVec.toNat_ofNat]
  omega

end Entry

/-! ### Taking a trap (R82, R292) -/

section Take

variable {s : State} {r : GRef} {p : Pend} {t : Team} {g : Group} {k : Kernel}

/-- A group on whose trap the kernel has a say. -/
structure LeaderTraps (s : State) (r : GRef) (t : Team) (g : Group) (k : Kernel) : Prop where
  team : s.team? r.team = some t
  group : s.group? r = some g
  kernel : s.kernel? t.bezel t.kslot = some k
  leader : r.sh = false

/-- The trap of the group is handled. -/
structure Handles (g : Group) (k : Kernel) : Prop where
  handler : recHandler k.record ≠ 0
  unmasked : g.masked = false
  running : g.mode ≠ .recompute

theorem LeaderTraps.takeTrap_fatal (h : LeaderTraps s r t g k) (hf : recHandler k.record = 0 ∨ g.masked = true ∨ g.mode = .recompute) :
    s.takeTrap r p = (s.modKernel t.bezel t.kslot fun x => { x with report := x.report.or (some (g.reportOf t k p)) }).terminate r 16 p.code
      p.pc := by
  have hc : (recHandler k.record == 0 || g.masked || g.mode == .recompute) = true := by simpa [or_assoc] using hf
  simp only [State.takeTrap, State.fatalTrap, h.team, h.group, h.kernel, h.leader, hc, if_true, Bool.false_eq_true, if_false]

/-- The group as its trap finds it: a trap of the matrix engine ends the group's queue with its operations (R292). -/
def Group.foundByTrap (g : Group) (p : Pend) : Group :=
  if p.matrix then { g with mq := [], ops := g.ops.filter fun o => match o.what with | .matrix _ => false | _ => true } else g

/-- A trap that is handled settles the version, or waits until it can be. -/
theorem LeaderTraps.takeTrap_handled (h : LeaderTraps s r t g k) (hh : Handles g k) : s.takeTrap r p =
    if flashesBack k.record then (s.discardTask r).modGroup r fun x => { x.enterHandler t k p with mbat := x.lastBatch }
    else if ((g.foundByTrap p).ops.all fun o => !o.classA) && (g.foundByTrap p).mq.isEmpty && (g.foundByTrap p).ver.deferred.isEmpty then
      (s.modGroup r fun x =>
        { x with mq := (g.foundByTrap p).mq, ops := (g.foundByTrap p).ops, t := x.t.map Tile.flip,
                 ver := { x.ver with heldRegs := 0, heldTileN := 0, heldTiles := [], allocStart := x.v.length, tilesStart := x.t.length },
                 mbat := if p.matrix then x.lastBatch else x.mbat }).modGroup r fun x => x.enterHandler t k p
    else s.modGroup r fun x => { x.cut with mq := (g.foundByTrap p).mq, ops := (g.foundByTrap p).ops, pend := some p, wait := .drain } := by
  have hc : (recHandler k.record == 0 || g.masked || g.mode == .recompute) = false := by
    have h0 : ¬ recHandler k.record = 0#64 := hh.handler
    simp [h0, hh.unmasked, hh.running]
  simp only [State.takeTrap, h.team, h.group, h.kernel, h.leader, hc, Bool.false_eq_true, if_false] <;>
  rfl

theorem LeaderTraps.takeTrap_flashesBack (h : LeaderTraps s r t g k) (hh : Handles g k) (hf : flashesBack k.record = true) :
    s.takeTrap r p = (s.discardTask r).modGroup r fun x => { x.enterHandler t k p with mbat := x.lastBatch } := by
  rw [h.takeTrap_handled hh, if_pos hf]

theorem LeaderTraps.takeTrap_waits (h : LeaderTraps s r t g k) (hh : Handles g k) (hf : flashesBack k.record = false) (hp : p.matrix = false)
    (hw : (∃ o ∈ g.ops, o.classA = true) ∨ g.mq ≠ [] ∨ g.ver.deferred ≠ []) :
    s.takeTrap r p = s.modGroup r fun x => { x.cut with mq := g.mq, ops := g.ops, pend := some p, wait := .drain } := by
  have hfound : g.foundByTrap p = g := if_neg (by simp [hp])
  rw [h.takeTrap_handled hh, if_neg (by simp [hf]), hfound, if_neg]
  rcases hw with ⟨o, ho, ha⟩ | hq | hd
  · simpa using fun hall => absurd (hall o ho) (by simp [ha])
  · simp [hq]
  · simp [hd]

/-- No operation that a trap must wait for is left in the group, and its queue is empty. -/
theorem Group.foundByTrap_done (hw : p.matrix = false ∧ g.mq = [] ∧ (∀ o ∈ g.ops, o.classA = false) ∨
    p.matrix = true ∧ ∀ o ∈ g.ops, o.classA = true → ∃ n, o.what = .matrix n) :
    (∀ o ∈ (g.foundByTrap p).ops, o.classA = false) ∧ (g.foundByTrap p).mq = [] ∧ (g.foundByTrap p).ver = g.ver := by
  obtain ⟨hp, hq, ho⟩ | ⟨hp, ho⟩ := hw
  · simp only [Group.foundByTrap, hp, Bool.false_eq_true, if_false]
    exact ⟨ho, hq, trivial⟩
  · simp only [Group.foundByTrap, hp, if_true]
    refine ⟨fun o hm => ?_, trivial, trivial⟩
    obtain ⟨hm, hkeep⟩ := List.mem_filter.1 hm
    by_contra ha
    obtain ⟨n, hn⟩ := ho o hm (by simpa using ha)
    simp [hn] at hkeep

/-- A trap that finds nothing to wait for enters the handler with the registers as they are and the tiles as the task has left them. -/
theorem LeaderTraps.takeTrap_enters (h : LeaderTraps s r t g k) (hh : Handles g k) (hf : flashesBack k.record = false)
    (hd : g.ver.deferred = []) (hw : p.matrix = false ∧ g.mq = [] ∧ (∀ o ∈ g.ops, o.classA = false) ∨
      p.matrix = true ∧ ∀ o ∈ g.ops, o.classA = true → ∃ n, o.what = .matrix n) : ∃ x : Group,
      (s.takeTrap r p).group? r = some x ∧ x.mq = [] ∧ x.v = g.v ∧ x.s = g.s ∧ x.t = g.t.map Tile.flip ∧ x.pcA = g.pcA ∧ x.pcB = g.pcB := by
  obtain ⟨hops, hmq, hver⟩ := Group.foundByTrap_done hw
  rw [h.takeTrap_handled hh, if_neg (by simp [hf]), if_pos (by simpa [hmq, hver, hd] using hops), State.group?_modGroup_same,
    State.group?_modGroup_same, h.group]
  exact ⟨_, rfl, (Group.enterHandler_mq ..).trans hmq, Group.enterHandler_v .., Group.enterHandler_s .., Group.enterHandler_t ..,
    Group.enterHandler_pcA .., Group.enterHandler_pcB ..⟩

end Take

/-- Settles O44: a trap that is handled settles the version or waits (`LeaderTraps.takeTrap_handled`), and the report is read back field
by field (`Group.reportOf_tem` and its siblings). -/
theorem trapEntry : Obligations.TrapEntry := by
  intro s r p t g k ht hg hk hl
  have h : LeaderTraps s r t g k := ⟨ht, hg, hk, hl⟩
  refine ⟨h.takeTrap_fatal, fun h0 hm hr => ?_, fun x => ⟨rfl, rfl, rfl, rfl, x.enterHandler_clause t k p, rfl, rfl, rfl, rfl,
    fun _ => x.reportOf_code t k p, x.reportOf_tem t k p, x.reportOf_slotB t k p, x.reportOf_resume t k p, x.reportOf_task t k p⟩⟩
  have hh : Handles g k := ⟨h0, hm, hr⟩
  exact ⟨h.takeTrap_flashesBack hh, h.takeTrap_waits hh, h.takeTrap_enters hh⟩

end Sys2Proof.Machine
end

section
/-! SUPPORT. The commits that waited, the traps that were held, stops and restores (R287, R292, R297 to R300, R375; log entry 41). -/

namespace Sys2Proof.Machine

open Sys2Proof

/-- A step without a word whose event finds nothing to do is refused by name. -/
theorem eventStep_none {s : State} {name : String} {f : Event → Option State} {e : Event} (h : s.input = some e) (hf : f e = none) :
    eventStep s name f = .refused (.notEnabled name) :=
  eventStep_refused (by rw [h]; exact hf)

section Tasks

variable {s : State} {r : GRef} {g h : Group} {t : Team} {k : Kernel} {p : Pend}

/-- A group of a team whose kernel is found. -/
structure Belongs (s : State) (r : GRef) (t : Team) (g : Group) (k : Kernel) : Prop where
  team : s.team? r.team = some t
  group : s.group? r = some g
  kernel : s.kernel? t.bezel t.kslot = some k

/-! ### TASK_COMMIT (R287) -/

/-- A leader stands at its boundary, and step 1 of R287 is met. -/
structure StandsAtBoundary (s : State) (r : GRef) (t : Team) (g : Group) : Prop where
  leader : r.sh = false
  waiting : g.bnd = .waiting
  goesOn : s.goesOn t g true = true
  drained : g.drained = true
  free : s.commitHeldUp r g = false
  untrapped : g.deferredTrap = none

theorem Belongs.taskCommit_alone (b : Belongs s r t g k) (w : StandsAtBoundary s r t g) (ha : recShadow k.record = false ∨ g.mode = .handler) :
    s.taskCommit r = some (s.commitOne r k) := by
  have ha' : (!recShadow k.record || g.mode == .handler) = true := by simpa using ha
  simp [State.taskCommit, b.team, b.group, b.kernel, w.leader, w.waiting, w.goesOn, w.drained, w.free, w.untrapped, ha']

/-- Where the shadow stands at the boundary as well, the signatures of the pair are compared (R98, R287). -/
theorem Belongs.taskCommit_pair (b : Belongs s r t g k) (w : StandsAtBoundary s r t g) (hs : recShadow k.record = true)
    (hm : g.mode ≠ .handler) (hh : s.group? r.shadow = some h) (hw : h.bnd = .waiting) (hd : h.drained = true) (hn : h.deferredTrap = none) :
    s.taskCommit r = if (g.finalSig k).sig = (h.finalSig k).sig then some ((s.commitOne r k).commitOne r.shadow k)
      else some (((s.modGroup r fun _ => g.finalSig k).modGroup r.shadow fun _ => h.finalSig k).mismatch r) := by
  simp [State.taskCommit, b.team, b.group, b.kernel, w.leader, w.waiting, w.goesOn, w.drained, w.free, w.untrapped, hs, hm, hh, hw, hd, hn]

theorem Belongs.taskCommit_undrained (b : Belongs s r t g k) (hd : g.drained = false) : s.taskCommit r = none := by
  simp [State.taskCommit, b.team, b.group, b.kernel, hd]

theorem execTaskCommit_of {t : State} (hin : s.input = some (.taskCommit r)) (h : s.taskCommit r = some t) : execTaskCommit s = .next t :=
  eventStep_ok hin h

/-! ### TRAP_DELIVERY and DEFERRED_TRAP_TAKE (R292, R375) -/

theorem Belongs.trapDelivery_eq (b : Belongs s r t g k) (hp : g.pend = some p) (he : t.ended = false) (hc : t.ctx = .running) :
    s.trapDelivery r = if (g.ops.all fun o => !o.classA) && g.mq.isEmpty && !s.commitHeldUp r g then some ((s.deliverHeld r).takeTrap r p)
      else none := by
  simp [State.trapDelivery, b.team, b.group, hp, Team.onCore, he, hc]

/-- A group that may take its deferred trap: it is on its core, in its life, and no trap is pending (R375). -/
structure MayTakeDeferred (t : Team) (g : Group) (p : Pend) : Prop where
  deferred : g.deferredTrap = some p
  live : t.ended = false
  running : t.ctx = .running
  notPending : g.life ≠ .pending
  notCollective : g.life ≠ .collective
  notExited : g.life ≠ .exited
  free : g.pend = none

theorem Belongs.deferredTake_fatal (b : Belongs s r t g k) (m : MayTakeDeferred t g p) (ha : g.alive = false) (hb : g.blive = false) :
    s.deferredTake r = some ((s.modKernel t.bezel t.kslot fun x => { x with report := x.report.or (some (g.reportOf t k p)) }).terminate r 16
      p.code p.pc) := by
  simp [State.deferredTake, b.team, b.group, m.deferred, Team.onCore, m.live, m.running, m.notPending, m.notCollective, m.notExited, m.free,
    ha, hb, State.fatalTrap, b.kernel]

theorem Belongs.deferredTake_takes (b : Belongs s r t g k) (m : MayTakeDeferred t g p) (ha : g.alive = true ∨ g.blive = true) :
    s.deferredTake r = some (((s.modTeam r.team fun t => { t with requests := t.requests.filter fun q => q.grp != r.grp }).modGroup r
      fun x => { (x.wake s.stepNo) with deferredTrap := none, bnd := .idle, nextEntry := none }).takeTrap r
        { p with em := g.em g.nextPoint.1, slotB := g.nextPoint.1 == .b, resume := g.nextPoint.2 }) := by
  have hn : ¬ (g.alive = false ∧ g.blive = false) := by rintro ⟨h1, h2⟩; simp [h1, h2] at ha
  simp [State.deferredTake, b.team, b.group, m.deferred, Team.onCore, m.live, m.running, m.notPending, m.notCollective, m.notExited, m.free,
    hn]

/-! ### Stops and restores (R297 to R300) -/

section Stops

variable (hc : t.ctx = .stopping) (he : t.ended = false)
include hc he

theorem Belongs.stopComplete_saves (b : Belongs s r t g k) (hg : ∀ x ∈ t.groups, x.stopped k.nonRewindable false = true)
    (hs : ∀ x ∈ t.shadows, x.stopped k.nonRewindable true = true)
    (hx : ∀ c ∈ s.cmds, c.by_.g.team = r.team → ∀ q v y, c.what ≠ .xroute q v y) (hk : k.nonRewindable = false ∨ recShadow k.record = false) :
    s.stopComplete r.team = some (s.saveTeam t k) := by
  have hk' : (!(k.nonRewindable && recShadow k.record)) = true := by rcases hk with hk | hk <;> simp [hk]
  have hg' : (!t.groups.all fun g => g.stopped k.nonRewindable false) = false := by simpa using hg
  have hs' : (!t.shadows.all fun g => g.stopped k.nonRewindable true) = false := by simpa using hs
  simp only [State.stopComplete, b.team, b.kernel, hc, he, hg', hs', hk']
  simp only [bne_self_eq_false, Bool.or_false, Bool.false_or, if_true, ite_eq_right_iff, reduceCtorEq, imp_false, List.any_eq_true, not_exists,
    not_and]
  intro x hmem hgranted
  simp only [Bool.and_eq_true, beq_iff_eq] at hgranted
  obtain ⟨⟨hteam, -⟩, hbegun⟩ := hgranted
  split at hbegun
  · next hw => exact hx x hmem hteam _ _ _ hw
  · cases hbegun

theorem Belongs.stopComplete_early (b : Belongs s r t g k) {x : Group} (hx : x ∈ t.groups) (hs : x.stopped k.nonRewindable false = false) :
    s.stopComplete r.team = none := by
  have hg' : (!t.groups.all fun g => g.stopped k.nonRewindable false) = true := by simpa using ⟨x, hx, hs⟩
  simp only [State.stopComplete, b.team, b.kernel, hc, he, hg']
  simp

variable (hl : r.sh = false) (hm : g.masked = true) (hh : g.halted = false) (hx : g.life ≠ .exited)
include hl hm hh hx

/-- The hold of a masked leader at a stop, by the time that has passed (R300). -/
theorem Belongs.holdTimeout_eq (b : Belongs s r t g k) : s.holdTimeout r =
    if k.nonRewindable then if 2 ^ 20 ≤ (s.arith - g.stopAt) / 720 then some (s.terminate r 18 18 g.report.tpc) else none
    else if (s.arith - g.stopAt) / 720 < 65536 || g.ops.any (fun o => o.ck) then none
    else some ((((s.modGroup r fun g => { g with life := if g.life == .trapped then .active else g.life }).flashbackPair r).modGroup r
      fun g => { g with halted := true }).modGroup r.shadow fun g => { g with halted := true }) := by
  simp [State.holdTimeout, b.team, b.group, b.kernel, hl, hc, he, hm, hh, hx]

end Stops

theorem Belongs.contextRestore_chosen (b : Belongs s r t g k) {core pr : Nat} {z : Bezel} {q : Kernel} (hc : t.ctx = .saved) (he : t.ended = false)
    (hm : t.moving = false) (hd : s.dispatchChoice (core / 64) = some (z, pr, q, .restore r.team core)) :
    s.contextRestore r.team core = some ((s.restoreTeam t core).served (core / 64) z.num pr q.slot) := by
  simp [State.contextRestore, b.team, hc, he, hm, hd]

end Tasks

/-- Settles O45: each event through what its step does with the group that it finds (`Belongs`), TASK_COMMIT through the step 1 of R287
that both its cases share (`StandsAtBoundary`). -/
theorem taskEvents : Obligations.TaskEvents := by
  intro s r g t k p ht hg hk
  have b : Belongs s r t g k := ⟨ht, hg, hk⟩
  refine ⟨fun hin hl hw hgo hd hf hn => ?_, fun hin _ hd => eventStep_none hin (b.taskCommit_undrained hd),
    fun hin hp he hc => ?_, fun hin hp he hc h1 h2 h3 hn => ?_, fun hin hc he => ?_, fun hin hl hc he hm hh hx => ?_,
    fun core z pr q hin hc he hm hd => eventStep_ok hin (b.contextRestore_chosen hc he hm hd)⟩
  · have w : StandsAtBoundary s r t g := ⟨hl, hw, hgo, hd, hf, hn⟩
    refine ⟨fun ha => execTaskCommit_of hin (b.taskCommit_alone w ha), fun h hs hm hh hw2 hd2 hn2 => ⟨fun hsig => ?_, fun hsig => ?_⟩⟩
    · exact execTaskCommit_of hin ((b.taskCommit_pair w hs hm hh hw2 hd2 hn2).trans (if_pos hsig))
    · exact execTaskCommit_of hin ((b.taskCommit_pair w hs hm hh hw2 hd2 hn2).trans (if_neg hsig))
  · refine ⟨fun ho hq hf => eventStep_ok hin ((b.trapDelivery_eq hp he hc).trans (if_pos ?_)),
      fun hw => eventStep_none hin ((b.trapDelivery_eq hp he hc).trans (if_neg ?_))⟩
    · simpa [hq, hf] using ho
    · rcases hw with ⟨o, ho, ha⟩ | hq | hf
      · simp only [Bool.and_eq_true, not_and]
        exact fun hall => absurd (List.all_eq_true.1 hall.1 o ho) (by simp [ha])
      · simp [hq]
      · simp [hf]
  · have m : MayTakeDeferred t g p := ⟨hp, he, hc, h1, h2, h3, hn⟩
    exact ⟨fun ha hb => eventStep_ok hin (b.deferredTake_fatal m ha hb), fun ha => eventStep_ok hin (b.deferredTake_takes m ha)⟩
  · exact ⟨fun hall hsh hx hk => eventStep_ok hin (b.stopComplete_saves hc he hall hsh hx hk),
      fun x hx hs => eventStep_none hin (b.stopComplete_early hc he hx hs)⟩
  · have hold := b.holdTimeout_eq hc he hl hm hh hx
    refine ⟨fun hk ht => eventStep_ok hin (hold.trans ?_), fun hk ht ho => eventStep_ok hin (hold.trans ?_),
      fun hk ht => eventStep_none hin (hold.trans ?_)⟩
    · rw [if_pos hk, if_pos ht]
    · rw [if_neg (by simp [hk]), if_neg]
      simpa [Nat.not_lt.2 ht] using ho
    · rw [if_neg (by simp [hk]), if_pos (by simp [ht])]

end Sys2Proof.Machine
end

section
/-! SUPPORT. The module right after a reset (R306, R310, R354, R359, R372; log entries 2 and 3). -/

namespace Sys2Proof.Machine

open Sys2Proof

/-- Every die's Locket is empty, and its next sequence number is 0 (R359, R372). -/
theorem State.reset_lockets (d : Fin 4) : State.reset.lockets[d].events = [] ∧ State.reset.lockets[d].seq = 0 := by
  have h : State.reset.lockets[d] = {} := by simp [State.reset]
  rw [h]
  exact ⟨rfl, rfl⟩

/-- Settles O59: what the state lists is empty, and what it does not list is in its reset state. -/
theorem resetState : Obligations.ResetState :=
  ⟨rfl, rfl, rfl, rfl, rfl, fun _ => rfl, rfl, rfl, rfl, rfl, rfl, rfl, fun _ => rfl, fun _ => ⟨rfl, rfl⟩, rfl, State.reset_lockets,
    fun _ => rfl, fun _ => ⟨rfl, rfl⟩, empty_map_wf, rfl, List.forall_mem_nil _⟩

end Sys2Proof.Machine
end

section
/-! SUPPORT. The steps of the clasp unit (R323, R324, R327 to R331). -/

namespace Sys2Proof.Machine

open Sys2Proof

section Clasp

variable {s s1 s2 : State} {slot kslot pa ow : Nat} {act : Activity} {bz : Bezel} {e : ClaspEntry} {r : List Byte} {q : W32}

/-- An activity whose top entry's compensator may be launched (R327, R328). -/
structure MayCompensate (s : State) (slot : Nat) (act : Activity) (bz : Bezel) (e : ClaspEntry) : Prop where
  found : s.act? slot = some act
  top : act.stack.head? = some e
  bezel : s.bezel? act.bezel = some bz
  abandoning : act.st = .abandoning
  notRunning : act.running = none
  notEnded : act.ended = none
  notParked : act.fault = none
  notMigrating : act.migr = false
  notStopping : ∀ t ∈ s.teams, t.bezel = bz.num → t.ctx = .stopping → t.ended = true
  free : s.waitsFor act e = none

/-- The top entry's arguments have gone to STAGE, and TEMPLATE, which names no recipes, has been read (R329). -/
structure Staged (s s1 : State) (act : Activity) (bz : Bezel) (e : ClaspEntry) (pa ow : Nat) (r : List Byte) : Prop where
  intact : e.damaged = false
  access : s.claspAccess bz (act.key % 4096) true (arStage act.record) = .ok pa ow
  lands : s1 = s.landHome pa e.args ow (some false)
  template : s1.claspRead act bz (arTemplate act.record) 256 = .ok r
  recipes : recRecipes r = 0

theorem MayCompensate.stops (h : MayCompensate s slot act bz e) :
    (s.teams.any fun t => t.bezel == bz.num && t.ctx == .stopping && !t.ended) = false := by
  simpa [List.any_eq_false] using h.notStopping

theorem MayCompensate.compLaunch_damaged (h : MayCompensate s slot act bz e) (hd : e.damaged = true) :
    s.compLaunch slot = some (s.compFail act 0 0x80000013) := by
  obtain ⟨rest, hst⟩ := List.head?_eq_some_iff.1 h.top
  have hstop := h.stops
  simp [State.compLaunch, h.found, hst, h.bezel, h.abandoning, h.notRunning, h.notEnded, h.notParked, h.notMigrating, hstop, h.free, hd]

/-- The code with which the launch of the record `r` is refused (R329); a grid other than one group has code 1. -/
def State.compCode (s : State) (bz : Bezel) (r : List Byte) : Nat :=
  if s.refusal bz r [] false ≠ 10 ∧ (recGridX r ≠ 1 ∨ recGridY r ≠ 1 ∨ recGridZ r ≠ 1) then 1 else s.refusal bz r [] false

/-- Once TEMPLATE has been read, its record's launch is a refused one or that of a new kernel (R329, R330). -/
theorem MayCompensate.compLaunch_staged (h : MayCompensate s slot act bz e) (w : Staged s s1 act bz e pa ow r) :
    s.compLaunch slot = let r' := compRecord r e.code (arStage act.record)
      if s1.compCode bz r' ≠ 0 then some (s1.compFail act 0 (0x80000100 + BitVec.ofNat 32 (s1.compCode bz r')))
      else
        let k := s1.newKernel bz r' [] (arTemplate act.record) (some slot)
        some ((k.1.modAct slot fun x => { x with running := some k.2.1, lastComp := handleOf bz.num k.2.1 k.2.2 }).tryAdmit bz.num k.2.1) := by
  obtain ⟨rest, hst⟩ := List.head?_eq_some_iff.1 h.top
  have hstop := h.stops
  simp [State.compLaunch, h.found, hst, h.bezel, h.abandoning, h.notRunning, h.notEnded, h.notParked, h.notMigrating, hstop, h.free, w.intact,
    w.access, ← w.lands, w.template, w.recipes, bind, Except.bind] <;>
  rfl

theorem State.compRetire_done (hf : s.act? slot = some act) (he : act.ended = some 0) : s.compRetire slot =
    some (s.modAct slot fun x => { x with running := none, ended := none, lastStatus := 0, stack := x.stack.tail }).settleActs := by
  simp [State.compRetire, hf, he]

theorem State.compRetire_failed {st : W32} (hf : s.act? slot = some act) (he : act.ended = some st) (hs : st ≠ 0) :
    s.compRetire slot = some (s.compFail act act.lastComp st) := by
  have hs' : ¬ st = 0#32 := hs
  simp [State.compRetire, hf, he, hs']

theorem State.compRetire_running (hf : s.act? slot = some act) (he : act.ended = none) : s.compRetire slot = none := by
  simp [State.compRetire, hf, he]

end Clasp

/-- Settles O50: a launch through the activity that may compensate (`MayCompensate`) and the record that its TEMPLATE holds (`Staged`), a
retirement through the status that the compensator left. -/
theorem activityEvents : Obligations.ActivityEvents := by
  intro s s1 s2 r act bz slot hf
  refine ⟨fun e rest pa ow kslot q hin hst hb ha hr he hft hm ht hw => ?_, fun hin => ⟨fun he => ?_, fun st he hs => ?_, fun he => ?_⟩⟩
  · have hmay : MayCompensate s slot act bz e := ⟨hf, by simp [hst], hb, ha, hr, he, hft, hm, ht, hw⟩
    refine ⟨fun hd => eventStep_ok hin (hmay.compLaunch_damaged hd), fun hd hacc h1 hread hrec hcode hx hy hz hnew => ?_,
      fun k hd hacc h1 hread hrec hk hk0 hgrid => ?_⟩
    · have hcode' : s1.compCode bz (compRecord r e.code (arStage act.record)) = 0 := by simp [State.compCode, hcode, hx, hy, hz]
      refine eventStep_ok hin ((hmay.compLaunch_staged ⟨hd, hacc, h1, hread, hrec⟩).trans ?_)
      simp [hcode', hnew]
    · have hcode' : s1.compCode bz (compRecord r e.code (arStage act.record)) = k := by
        obtain h10 | ⟨hx, hy, hz⟩ := hgrid
        · simp [State.compCode, ← hk, h10]
        · simp [State.compCode, ← hk, hx, hy, hz]
      refine eventStep_ok hin ((hmay.compLaunch_staged ⟨hd, hacc, h1, hread, hrec⟩).trans ?_)
      simp [hcode', hk0]
  · exact eventStep_ok hin (State.compRetire_done hf he)
  · exact eventStep_ok hin (State.compRetire_failed hf he hs)
  · exact eventStep_none hin (State.compRetire_running hf he)

end Sys2Proof.Machine
end

section
/-! SUPPORT. The activity instructions (R320 to R326, R333 to R338). -/

namespace Sys2Proof.Machine

open Sys2Proof

/-- An address that may be accessed passes its test (R312, R333). -/
theorem testAt_place {k : Acc} {c : Ctx} {s : State} {ad : W64} {p : Place} (hb : badVa ad = false) (hw : isWindow ad = false)
    (hp : s.place c.team c.kern c.bez k ad = .ok p) : testAt k c s ad = .ok (s.touch c.bez c.core [ad], some p) := by
  simp [testAt, hb, hw, hp]

section Opening

variable {s s1 s2 s3 t u : State} {c : Ctx} {d a : BitVec 8} {r : List Byte} {p : Place} {oc : Option Obj} {o : Obj} {n : W64}

/-! ### `aopen` (R321, R333) -/

/-- An `aopen` that has read its record. -/
structure ReadsActRecord (d a : BitVec 8) (c : Ctx) (s s1 : State) (r : List Byte) : Prop where
  issuing : Issuing (.aopen d a) c s
  leader : c.g.sh = false
  aligned : (c.s a).toNat % 64 = 0
  room : c.RoomA s
  reads : c.Reads s .scalarLoad (c.s a) 64 r s1

theorem ReadsActRecord.roomA (h : ReadsActRecord d a c s s1 r) (hg : t.group? c.g = s1.group? c.g) : c.RoomA t :=
  h.room.of_group? (hg.trans (h.reads.group? c.g))

/-- The two answers of an `aopen` (R333). -/
def Ctx.answers (c : Ctx) (s : State) (d : BitVec 8) (x y : W64) (w : OpWhat) : State :=
  c.past (c.opA s [.scal (sdstNum d) x, .scal (sdstNum d + 1) y] w false)

theorem ReadsActRecord.execAopen_bad (h : ReadsActRecord d a c s s1 r) (hbad : actRecordBad r = true) :
    execAopen d a s = .next (c.answers s1 d 0x8000000000000001 0 .ready) :=
  issue_ok h.issuing (by simp [classA, h.leader, h.aligned, gateA_room (t := s) (State.ctx_group h.issuing.ctx) h.room, readRecord,
    readRecordAs_reads (State.ctx_group h.issuing.ctx) h.reads, hbad, issueA_room (h.roomA rfl), bind, Except.bind])

/-- The counter that an `aopen` names, tested from `s2` (R333). -/
def Ctx.NamesDone (c : Ctx) (s2 : State) (r : List Byte) (oc : Option Obj) (s3 : State) : Prop :=
  arDone r = 0 ∧ s3 = s2 ∧ oc = none ∨
  arDone r ≠ 0 ∧ ∃ q, testAt .sync c s2 (arDone r) = .ok (s3, some q) ∧ Place.counter (some q) = oc ∧ oc ≠ none

/-- Past the tests of its record, an `aopen` opens the activity or finds no slot (R321, R333). -/
theorem ReadsActRecord.execAopen_eq (h : ReadsActRecord d a c s s1 r) (hgood : actRecordBad r = false)
    (hp : s1.place c.team c.kern c.bez .store (arStage r) = .ok p) (h2 : s2 = s1.touch c.bez c.core [arStage r])
    (hc : c.NamesDone s2 r oc s3) : execAopen d a s = .next (settle s c (if 4096 ≤ s3.actNext ∧ s3.actFreed = [] then
      issueA c s3 [.scal (sdstNum d) 0x8000000000000002, .scal (sdstNum d + 1) 0] .ready false else openActivity c s3 d r oc)) := by
  subst h2
  have hs := hgood
  simp only [actRecordBad, Bool.or_eq_false_iff] at hs
  obtain ⟨⟨-, hw⟩, hb⟩ := hs
  refine issue_settles h.issuing ?_
  obtain ⟨h0, rfl, rfl⟩ | ⟨h0, q, hq, hqc, hsome⟩ := hc
  · simp [classA, h.leader, h.aligned, gateA_room (t := s) (State.ctx_group h.issuing.ctx) h.room, readRecord,
      readRecordAs_reads (State.ctx_group h.issuing.ctx) h.reads, hgood, testAt_place hb hw hp, h0, Place.counter, bind, Except.bind]
  · have h0' : ¬ arDone r = 0#64 := h0
    simp [classA, h.leader, h.aligned, gateA_room (t := s) (State.ctx_group h.issuing.ctx) h.room, readRecord,
      readRecordAs_reads (State.ctx_group h.issuing.ctx) h.reads, hgood, testAt_place hb hw hp, h0', hq, hqc, hsome, bind, Except.bind]

/-- The activity of an accepted `aopen` in a slot that none has held (R320, R333). -/
def Ctx.newActivity (c : Ctx) (s : State) (r : List Byte) (oc : Option Obj) : Activity :=
  { slot := s.actNext, seq := s.actSeq, bezel := c.bez.num, key := recKey c.kern.record, kslot := c.kern.slot, kseq := c.kern.seq,
    record := r, ctr := oc, task := some (c.g, c.grp.taskSeq) }

/-- An activity put into a slot that none has held. -/
def State.putAct (s : State) (slot : Nat) (x : Activity) : State :=
  { s with acts := s.acts.filter (fun y => y.slot != slot) ++ [x], actSeq := s.actSeq + 1, actNext := s.actNext + 1 }

theorem openActivity_plain (hn : s.actNext < 4096) (hr : c.RoomA s) :
    openActivity c s d r none = .ok (c.opA (s.putAct s.actNext (c.newActivity s r none))
      [.scal (sdstNum d) (c.newActivity s r none).handle, .scal (sdstNum d + 1) 0] .ready false) := by
  simp only [openActivity, hn, if_true, State.putAct, Ctx.newActivity]
  exact issueA_room (hr.of_group? rfl)

theorem openActivity_ticket (hn : s.actNext < 4096) (hd : s.draw o c.handle = .ticket n u)
    (hr : c.RoomA (u.putAct s.actNext { c.newActivity s r (some o) with ticket := n })) :
    openActivity c s d r (some o) = .ok (c.opA (u.putAct s.actNext { c.newActivity s r (some o) with ticket := n })
      [.scal (sdstNum d) (c.newActivity s r (some o)).handle, .scal (sdstNum d + 1) n] .ready false) := by
  simp only [openActivity, hn, if_true, State.putAct, Ctx.newActivity, hd]
  exact issueA_room hr

theorem openActivity_waits (hn : s.actNext < 4096) (hd : s.draw o c.handle = .wait) (hr : c.RoomA s) :
    openActivity c s d r (some o) = .ok (c.opA (s.putAct s.actNext { c.newActivity s r (some o) with drawn := false })
      [.scal (sdstNum d) (c.newActivity s r (some o)).handle, .scal (sdstNum d + 1) 0] (.draw o (.act s.actNext s.actSeq) (sdstNum d + 1)) false) := by
  simp only [openActivity, hn, if_true, State.putAct, Ctx.newActivity, hd]
  exact issueA_room (hr.of_group? rfl)

end Opening

section Steps

variable {s s1 s2 s3 s4 s5 s6 t u : State} {c : Ctx} {d a b f : BitVec 8} {r r0 r1 r2 : List Byte} {o : Obj} {n : W64} {act : Activity}
  {q : Option (Obj × W64)} {oc : Option Obj}

/-! ### `astep` (R322, R326, R334) -/

theorem execAstep_shadow (h : Issuing (.astep d a b) c s) (hs : c.g.sh = true) (hm : c.MayCommit s) :
    execAstep d a b s = .next (c.past (sign c (c.commit s false) [c.s d, c.s a, c.s b])) :=
  issue_ok h (by simp [hs, boundary_commit false hm, bind, Except.bind])

/-- An `astep` that has read the three sectors of its record. -/
structure ReadsStepRecord (d a b : BitVec 8) (c : Ctx) (s s3 : State) (r : List Byte) : Prop where
  issuing : Issuing (.astep d a b) c s
  leader : c.g.sh = false
  aligned : (c.s a).toNat % 64 = 0
  room : c.RoomB s
  reads : ∃ r0 r1 r2 s1 s2, c.Reads s .scalarLoad (c.s a) 64 r0 s1 ∧ c.Reads s1 .scalarLoad (c.s a + 64) 64 r1 s2 ∧
    c.Reads s2 .scalarLoad (c.s a + 128) 64 r2 s3 ∧ r = r0 ++ r1 ++ r2

/-- The entry of an `astep` is in place with the next timestamp, and its ticket completes (R326, R334). -/
def Ctx.stepped (c : Ctx) (s : State) (act : Activity) (r : List Byte) (q : Option (Obj × W64)) : State :=
  (c.mod { (s.modAct act.slot fun x => { x with stack := s.entryOf c.bez r :: x.stack }) with stamp := s.stamp + 1 }.settleActs
    fun g => { g with ticket := none }).completeTicket q

/-- An `astep` of an activity that takes another entry: its ticket, its commit and its entry (R334). -/
def stepEntry (c : Ctx) (s : State) (b : BitVec 8) (act : Activity) (r : List Byte) (ops : List W64) : Res := do
  let (s1, o) ← if c.s b = 0 then .ok (s, none) else do
    let (s1, o) ← counterAt c s .sync (c.s b)
    .ok (s1, some o)
  let (s2, q) ← entryTicket c s1 o
  let s3 ← boundary c s2 false
  .ok (sign c (c.stepped (s3.publish c.g c.core 3) act r q) ops)

/-- Once the record is read, an `astep` traps on it or on its handle, or adds its entry, and signs (R334). -/
theorem ReadsStepRecord.execAstep_eq (h : ReadsStepRecord d a b c s s3 r) : execAstep d a b s = .next (settle s c (
    if stepRecordBad r = true then .error (.trap ILLOP)
    else (c.activity s3 (c.s d)).elim (.error (.trap PROT (c.s d))) fun act =>
      if act.st ≠ .opened ∨ arMax act.record ≤ act.stack.length then .error (.trap PROT (c.s d))
      else stepEntry c s3 b act r [c.s d, c.s a, c.s b])) := by
  obtain ⟨r0, r1, r2, s1, s2, hr0, hr1, hr2, rfl⟩ := h.reads
  have hg := State.ctx_group h.issuing.ctx
  have hg1 := (hr0.group? c.g).trans hg
  refine issue_settles h.issuing ?_
  simp only [h.leader, h.aligned, gateB_room (t := s) hg h.room, readRecord, readRecordAs_reads hg hr0, readRecordAs_reads hg1 hr1,
    readRecordAs_reads ((hr1.group? c.g).trans hg1) hr2, ne_eq, not_true_eq_false,
    decide_false, Bool.false_and, Bool.false_eq_true, if_false, bind, Except.bind, throw, throwThe, MonadExceptOf.throw]
  cases stepRecordBad (r0 ++ r1 ++ r2)
  · cases c.activity s3 (c.s d) with
    | none => rfl
    | some act =>
      by_cases ha : act.st ≠ .opened ∨ arMax act.record ≤ act.stack.length
      · simp [ha]
      · simp only [Option.elim_some, if_neg ha]
        rw [if_neg (by simp), if_neg (by simpa using ha)]
        rfl
  · rfl

/-- The ticket with which an `astep` goes on: none, the one it draws, or the one it drew before a wait (R189, R334). -/
def Ctx.StepTicket (c : Ctx) (s : State) (b : BitVec 8) (q : Option (Obj × W64)) (t : State) : Prop :=
  c.s b = 0 ∧ t = s ∧ q = none ∨ ∃ o u, c.s b ≠ 0 ∧ c.Counter s .sync (c.s b) o u ∧
    ((∃ n v, c.grp.ticket = none ∧ u.drawInTurn c.g o c.handle = .ticket n v ∧ t = (c.mod v fun g => { g with ticket := some (o, n) }) ∧
      q = some (o, n)) ∨ c.grp.ticket ≠ none ∧ t = u ∧ q = c.grp.ticket)

theorem stepEntry_ok {ops : List W64} (hq : c.StepTicket s b q t) (hm : c.MayCommit t) : stepEntry c s b act r ops =
    .ok (sign c (c.stepped ((c.commit t false).publish c.g c.core 3) act r q) ops) := by
  obtain ⟨hb, rfl, rfl⟩ | ⟨o, u, hb, hc, ⟨n, v, hn, hd, rfl, rfl⟩ | ⟨hn, rfl, rfl⟩⟩ := hq
  · simp [stepEntry, hb, entryTicket, boundary_commit false hm, bind, Except.bind]
  · have hb' : ¬ c.s b = 0#64 := hb
    simp [stepEntry, hb', counterAt_counter hc, entryTicket, hn, hd, boundary_commit false hm, bind, Except.bind]
  · have hb' : ¬ c.s b = 0#64 := hb
    obtain ⟨p, hp⟩ := Option.ne_none_iff_exists'.1 hn
    simp [stepEntry, hb', counterAt_counter hc, entryTicket, hp, boundary_commit false hm, bind, Except.bind]

theorem stepEntry_waits {ops : List W64} (hb : c.s b ≠ 0) (hc : c.Counter s .sync (c.s b) o t) (hn : c.grp.ticket = none)
    (hd : t.drawInTurn c.g o c.handle = .wait) : stepEntry c s b act r ops = .error (.wait (.draw o) t) := by
  have hb' : ¬ c.s b = 0#64 := hb
  simp [stepEntry, hb', counterAt_counter hc, entryTicket, hn, hd, bind, Except.bind]

/-! ### `aclose` and `aabandon` (R324, R335) -/

section Events

variable {i : Instr} {op : Nat} {eff : State → Activity → State} {x : Activity}

theorem actEvent_shadow (h : Issuing i c s) (hs : c.g.sh = true) (hm : c.MayCommit s) :
    actEvent i op a eff s = .next (c.past (sign c (c.commit s false) [c.s a])) :=
  issue_ok h (by simp [hs, boundary_commit false hm, bind, Except.bind])

theorem actEvent_unnamed (h : Issuing i c s) (hl : c.g.sh = false) (hr : c.RoomB s) (hn : c.activity s (c.s a) = none) :
    actEvent i op a eff s = .next (c.traps s PROT (c.s a)) :=
  issue_trap h (by simp [hl, gateB_room (t := s) (State.ctx_group h.ctx) hr, hn, bind, Except.bind, throw, throwThe, MonadExceptOf.throw])

/-- The activity found after the commit decides between its event and the fault record of a discarded one (R335). -/
theorem actEvent_named (h : Issuing i c s) (hl : c.g.sh = false) (hr : c.RoomB s) (hx : c.activity s (c.s a) = some x) (hm : c.MayCommit s)
    (h1 : s1 = (c.commit s false).publish c.g c.core 3) (ha : c.activity s1 (c.s a) = some act) : actEvent i op a eff s =
      .next (c.past (sign c (if act.st = .opened then (eff s1 act).settleActs else s1.locket c.die 9 (0x0100 + op) c.handle (c.s a)) [c.s a])) := by
  subst h1
  exact issue_ok h (by simp [hl, gateB_room (t := s) (State.ctx_group h.ctx) hr, hx, boundary_commit false hm, ha, bind, Except.bind])

end Events

/-- `aclose` and `aabandon` with their opcodes and effects (R335). -/
def EndsActivity (i : Instr) (op : Nat) (eff : State → Activity → State) (a : BitVec 8) : Prop :=
  i = .aclose a ∧ op = 0xE2 ∧ eff = (fun s act => s.finishAct act.slot .closed) ∨
  i = .aabandon a ∧ op = 0xE3 ∧ eff = (fun s act => s.modAct act.slot fun x => { x with st := .abandoning, task := none })

theorem EndsActivity.exec_eq {i : Instr} {op : Nat} {eff : State → Activity → State} (h : EndsActivity i op eff a) :
    exec i s = actEvent i op a eff s := by
  obtain ⟨rfl, rfl, rfl⟩ | ⟨rfl, rfl, rfl⟩ := h <;> rfl

/-! ### `aquery`, `aresolve` and `acret` (R336 to R338) -/

theorem execAquery_answers (h : Issuing (.aquery d a f) c s) (hl : c.g.sh = false) (hr : c.RoomA s) : execAquery d a f s =
    .next (c.past (c.opA s [.scal (sdstNum d) (aqueryWord (c.activity s (c.s a)) f.toNat)] .ready false)) :=
  issue_ok h (by simp [classA, hl, gateA_room (t := s) (State.ctx_group h.ctx) hr, issueA_room hr, bind, Except.bind])

theorem execAresolve_illoperand (h : Issuing (.aresolve a b) c s) (hb : 3 ≤ (c.s b).toNat) :
    execAresolve a b s = .next (c.traps s ILLOPERAND 0) :=
  issue_trap h (by simp [hb])

theorem execAresolve_shadow (h : Issuing (.aresolve a b) c s) (hb : (c.s b).toNat < 3) (hs : c.g.sh = true) :
    execAresolve a b s = .next (c.past (sign c s [c.s a, c.s b])) :=
  issue_ok h (by simp [Nat.not_le.2 hb, classB, hs, bind, Except.bind])

/-- An `aresolve` has the effect of its action on the activity, or leaves a fault record (R337). -/
theorem execAresolve_named (h : Issuing (.aresolve a b) c s) (hb : (c.s b).toNat < 3) (hl : c.g.sh = false) (hr : c.RoomB s)
    (ha : c.activity s (c.s a) = some act) : execAresolve a b s = .next (c.past (sign c
      ((s.resolveAct act (c.s b).toNat).elim (s.locket c.die 9 0x01E5 c.handle (c.s a)) State.settleActs) [c.s a, c.s b])) :=
  issue_ok h (by
    cases hq : s.resolveAct act (c.s b).toNat <;>
    simp [Nat.not_le.2 hb, classB, hl, gateB_room (t := s) (State.ctx_group h.ctx) hr, ha, hq, bind, Except.bind])

theorem State.resolveAct_none {k : Nat} (h : act.st ≠ .broken ∨ k = 0 ∧ ∃ e ∈ act.stack.head?, e.damaged = true) :
    s.resolveAct act k = none := by
  obtain hst | ⟨rfl, e, he, hd⟩ := h
  · simp [State.resolveAct, hst]
  · by_cases hst : act.st = .broken
    · simp [State.resolveAct, hst, Option.mem_def.1 he, hd]
    · simp [State.resolveAct, hst]

theorem State.resolveAct_retry (hst : act.st = .broken) (hd : ∀ e ∈ act.stack.head?, e.damaged = false) :
    s.resolveAct act 0 = some (s.modAct act.slot fun x => { x with st := .abandoning }) := by
  have hd' : (act.stack.head?.any fun e => e.damaged) = false := by
    cases he : act.stack.head? with
    | none => rfl
    | some e => exact hd e he
  simp [State.resolveAct, hst, hd']

theorem execAcret_illop (h : Issuing (.acret a) c s) (hk : c.kern.comp = none) : execAcret a s = .next (c.traps s ILLOP 0) :=
  issue_trap h (by simp [hk])

theorem execAcret_empty (h : Issuing (.acret a) c s) (hk : c.kern.comp ≠ none) (he : c.em = 0) : execAcret a s = .next (c.past s) :=
  issue_ok h (by simp [hk, he])

theorem execAcret_exits (h : Issuing (.acret a) c s) (hk : c.kern.comp ≠ none) (he : c.em ≠ 0) (hm : c.MayCommit s) : execAcret a s =
    .next (c.past (c.mod ((c.commit s false).modTeam c.team.sid fun t => { t with acret := t.acret.or (some ((c.s a).setWidth 32)) })
      fun g => { g with exited := g.exited ||| c.em })) := by
  have he' : ¬ c.em = 0#32 := he
  exact issue_ok h (by simp [hk, he', boundary_commit false hm, bind, Except.bind])

end Steps

/-- Settles O49: `aopen` through the record and the counter that it names (`ReadsActRecord.execAopen_eq`), `astep` through the record that it
reads and the ticket that it has (`ReadsStepRecord.execAstep_eq`, `stepEntry_ok`), the others through the activity that their handle names. -/
theorem activityInstructions : Obligations.ActivityInstructions := by
  intro s s1 s2 s3 s4 s5 s6 t u c d a b f r o n act
  refine ⟨fun h hl h64 hr hrd => ?_, fun r0 r1 r2 h hl h64 hr hr0 hr1 hr2 hrec => ?_, fun i op eff hi h => ?_,
    fun h hs hm => execAstep_shadow h hs hm, fun h hl hr => execAquery_answers h hl hr, fun h hb => execAresolve_illoperand h hb,
    fun h hb hs => execAresolve_shadow h hb hs, fun h hb hl hr ha => ?_,
    fun h => ⟨execAcret_illop h, execAcret_empty h, execAcret_exits h⟩⟩
  · have hread : ReadsActRecord d a c s s1 r := ⟨h, hl, h64, hr, hrd⟩
    have hbad : (2 ^ 63 + 1 : W64) = 0x8000000000000001 := BitVec.eq_of_toNat_eq (by simp [BitVec.toNat_pow])
    have hfull : (2 ^ 63 + 2 : W64) = 0x8000000000000002 := BitVec.eq_of_toNat_eq (by simp [BitVec.toNat_pow])
    rw [hbad, hfull]
    refine ⟨hread.execAopen_bad, fun p hgood hp h2 => ?_⟩
    have hr2 : c.RoomA s2 := hread.roomA (by rw [h2, State.group?_touch])
    refine ⟨fun e h0 hn he ht => ?_, fun h0 hn hfull => ?_, fun e q pa ow va h0 hb hw hq ho h3 hn he => ?_⟩
    · subst he ht
      rw [exec_aopen, hread.execAopen_eq hgood hp h2 (.inl ⟨h0, rfl, rfl⟩), if_neg (by omega), openActivity_plain hn hr2]
      rfl
    · rw [exec_aopen, hread.execAopen_eq hgood hp h2 (.inl ⟨h0, rfl, rfl⟩), if_pos ⟨hn, hfull⟩, issueA_room hr2]
      rfl
    · have hr3 : c.RoomA s3 := hr2.of_group? (by rw [h3, State.group?_touch])
      have hdone : c.NamesDone s2 r (some o) s3 :=
        .inr ⟨h0, .glob pa true ow va, by rw [h3]; exact testAt_place hb hw hq, by rw [ho]; rfl, by simp⟩
      rw [exec_aopen, hread.execAopen_eq hgood hp h2 hdone, if_neg (by omega)]
      subst he
      refine ⟨fun hd ht hrt => ?_, fun hd ht => ?_⟩
      · subst ht
        rw [openActivity_ticket hn hd hrt]; rfl
      · subst ht
        rw [openActivity_waits hn hd hr3]; rfl
  · have hread : ReadsStepRecord d a b c s s3 r := ⟨h, hl, h64, hr, r0, r1, r2, s1, s2, hr0, hr1, hr2, hrec⟩
    rw [exec_astep, hread.execAstep_eq]
    refine ⟨fun hbad => ?_, fun hgood hn => ?_, fun hgood ha hfull => ?_, fun hgood ha hst hlen => ⟨fun q hq hm h6 ht => ?_,
      fun hb hc hn hd => ?_⟩⟩
    · rw [if_pos hbad]; rfl
    · rw [if_neg (by simp [hgood]), hn]; rfl
    · rw [if_neg (by simp [hgood]), ha, Option.elim_some, if_pos hfull]; rfl
    · have hticket : c.StepTicket s3 b q s5 := by
        obtain hz | ⟨hb, hc, hq⟩ := hq
        · exact .inl hz
        · exact .inr ⟨o, s4, hb, hc, hq.imp_left fun hq => ⟨n, u, hq⟩⟩
      rw [if_neg (by simp [hgood]), ha, Option.elim_some, if_neg (by simp [hst, hlen]), stepEntry_ok hticket hm]
      subst h6 ht
      rfl
    · rw [if_neg (by simp [hgood]), ha, Option.elim_some, if_neg (by simp [hst, hlen]), stepEntry_waits hb hc hn hd]
      rfl
  · obtain ⟨g, hg, heff⟩ : ∃ g, EndsActivity i op g a ∧ ∀ s, g s act = eff s := by
      obtain ⟨rfl, rfl, rfl⟩ | ⟨rfl, rfl, rfl⟩ := hi
      · exact ⟨_, .inl ⟨rfl, rfl, rfl⟩, fun _ => rfl⟩
      · exact ⟨_, .inr ⟨rfl, rfl, rfl⟩, fun _ => rfl⟩
    rw [hg.exec_eq]
    refine ⟨actEvent_shadow h, actEvent_unnamed h, fun x hl hr hx hm h1 ha => ?_⟩
    rw [actEvent_named h hl hr hx hm h1 ha, heff]
    exact ⟨fun hst => by rw [if_pos hst], fun hst => by rw [if_neg hst]⟩
  · rw [exec_aresolve, execAresolve_named h hb hl hr ha]
    refine ⟨fun hno => ?_, fun hst h0 hd => ?_, fun hst h1 => ?_, fun hst h2 => ?_⟩
    · rw [State.resolveAct_none hno]; rfl
    · rw [h0, State.resolveAct_retry hst hd]; rfl
    · rw [h1]; simp [State.resolveAct, hst]
    · rw [h2]; simp [State.resolveAct, hst]

end Sys2Proof.Machine
end

section
/-! SUPPORT. The steps of the pavé engines and of fills (R341, R344, R347, R348; log entry 23). -/

namespace Sys2Proof.Machine

open Sys2Proof

section Engines

variable {s s1 : State} {ch id : Nat} {e : PvEngine} {p : PvCmd} {rest : List PvCmd} {tm : Team} {k : Kernel} {z : Bezel}

/-! ### PAVE_COMMAND_START (R341) -/

/-- An engine takes no command while the status word of the last is open (log entry 23). -/
theorem State.commandStart_open {x : PvCmd} (hc : (s.engine ch).cur = none) (hx : s.completing ch = some x) (h : prStat x.record ≠ 0) :
    s.commandStart ch = none := by
  have h' : ¬ prStat x.record = 0#64 := h
  simp [State.commandStart, hc, hx, h']

/-- An engine without a command, and with no status word open, that finds one in its queue. -/
structure TakesCommand (s : State) (ch : Nat) (p : PvCmd) (rest : List PvCmd) : Prop where
  free : (s.engine ch).cur = none
  closed : ∀ x, s.completing ch = some x → prStat x.record = 0
  queue : s.pvWaiting ch = p :: rest

theorem TakesCommand.closed_any (h : TakesCommand s ch p rest) : ((s.completing ch).any fun c => prStat c.record ≠ 0) = false := by
  cases hx : s.completing ch with
  | none => rfl
  | some x => simp [h.closed x hx]

theorem TakesCommand.commandStart_fenced (h : TakesCommand s ch p rest) (hf : (s.engine ch).st = .fenced) :
    s.commandStart ch = some ((s.pvTake ch p.id).pvEnd ch p.id 7) := by
  have hclosed := h.closed_any
  simp only [State.commandStart, h.free, hclosed, h.queue, hf] <;>
  rfl

theorem TakesCommand.commandStart_fresh (h : TakesCommand s ch p rest) (hf : (s.engine ch).st ≠ .fenced) (hs : p.saved = []) :
    s.commandStart ch = some (((s.pvTake ch p.id).modEngine ch fun x =>
      { chan := ch, st := .running, cur := some p.id, lastErr := x.lastErr, completed := x.completed }).pvFetch ch) := by
  have hclosed := h.closed_any
  have hf' : ((s.engine ch).st == .fenced) = false := by simpa using hf
  simp only [State.commandStart, h.free, hclosed, h.queue, hf', hs] <;>
  rfl

/-! ### PAVE_COMMAND_COMPLETE (R347, R348) -/

theorem State.commandComplete_early (hp : s.pvCmd? id = some p) (hn : p.ended.length < p.count) : s.commandComplete id = none := by
  simp [State.commandComplete, hp, hn]

/-- A command whose engines have all ended and whose completion nothing holds (R347). -/
structure Completes (s : State) (id : Nat) (p : PvCmd) : Prop where
  found : s.pvCmd? id = some p
  ended : p.count ≤ p.ended.length
  goesOn : p.stopped = false
  notParked : p.fault = none
  notMigrating : p.migr = false

theorem Completes.commandComplete_silent (h : Completes s id p) (hs : prStat p.record = 0) : s.commandComplete id = some (s.endPave p) := by
  simp [State.commandComplete, h.found, Nat.not_lt.2 h.ended, h.goesOn, h.notParked, h.notMigrating, hs]

theorem Completes.commandComplete_writes {q : Place} (h : Completes s id p) (hs : prStat p.record ≠ 0) (ho : s.owner? p.by_ = some (tm, k, z))
    (hq : s.enginePlace tm k z .store (prStat p.record) = .ok q) :
    s.commandComplete id = some ((s.engineWrite p.by_ tm q (leBytes p.status.toNat 8) false).endPave p) := by
  have hs' : ¬ prStat p.record = 0#64 := hs
  simp [State.commandComplete, h.found, Nat.not_lt.2 h.ended, h.goesOn, h.notParked, h.notMigrating, hs', ho, hq]

theorem PvCmd.status_clean (h : ∀ x ∈ p.ended, x.2.1 = 0) : p.status = 0 := by
  have hbad : (p.ended.filter fun x => x.2.1 != 0) = [] := by simpa using h
  simp [PvCmd.status, hbad]

theorem PvCmd.status_single {n er ix : Nat} (h : p.ended = [(n, er, ix)]) (he : er ≠ 0) :
    p.status = BitVec.ofNat 64 (er + n * 2 ^ 8 + 2 ^ 32 + ix * 2 ^ 48) := by
  simp [PvCmd.status, h, he, lowerEnd]

end Engines

section Fills

variable {s s1 : State} {id frame rb : Nat} {page src : W64} {cmd : Cmd} {data : Nat → List Byte × Bool} {tm : Team} {k : Kernel} {z : Bezel}
  {l : Leaf}

/-! ### PAVE_FILL_COMPLETE (R344) -/

/-- The elements of a list given by its places, with these places. -/
theorem zipIdx_map_range {α : Type} (f : Nat → α) (n : Nat) : ((List.range n).map f).zipIdx = (List.range n).map fun i => (f i, i) :=
  List.ext_getElem (by simp) fun i h _ => by simp

/-- A fill whose turn it is at its page, which no command reads (R344). -/
structure FillsPage (s : State) (id frame rb : Nat) (page src : W64) (l : Leaf) (cmd : Cmd) (tm : Team) (k : Kernel) (z : Bezel) : Prop where
  found : s.cmd? id = some cmd
  what : cmd.what = .fill frame page l src rb
  owner : s.owner? cmd.by_ = some (tm, k, z)
  notParked : cmd.fault = none
  notMigrating : cmd.migr = false
  goesOn : cmd.stopped = false
  drawn : cmd.by_.drawn = true
  first : ∀ x ∈ s.cmds.takeWhile (fun c => c.id != id), x.by_.drawn = true → ∀ pg l' sr n, x.what ≠ .fill frame pg l' sr n
  unread : ∀ x ∈ s.pvCmds, x.pagePa = frame → x.gen = none

/-- A command is a fill of the frame. -/
def Cmd.fills (c : Cmd) (frame : Nat) : Bool := match c.what with | .fill f _ _ _ _ => f == frame | _ => false

theorem Cmd.fills_iff {c : Cmd} : c.fills frame = true ↔ ∃ pg l sr n, c.what = .fill frame pg l sr n := by
  unfold Cmd.fills
  cases c.what with
  | fill f pg l sr n => simp
  | _ => simp

/-- What holds a fill up: a fault or a stop of its own, its draw, a fill before it, or a command that reads the page (R344). -/
def State.fillHeldUp (s : State) (id frame : Nat) (cmd : Cmd) : Bool :=
  cmd.parked || cmd.stopped || !cmd.by_.drawn || ((s.cmds.takeWhile fun c => c.id != id).any fun c => c.by_.drawn && c.fills frame) ||
    ((s.pvCmds.any fun c => c.pagePa == frame && c.gen.isSome) && !cmd.begun)

theorem FillsPage.fillHeldUp_eq (h : FillsPage s id frame rb page src l cmd tm k z) : s.fillHeldUp id frame cmd = false := by
  have hfirst : ((s.cmds.takeWhile fun c => c.id != id).any fun c => c.by_.drawn && c.fills frame) = false := by
    refine List.any_eq_false.2 fun x hx hm => ?_
    rw [Bool.and_eq_true, Cmd.fills_iff] at hm
    obtain ⟨hd, pg, l', sr, n, hw⟩ := hm
    exact h.first x hx hd pg l' sr n hw
  have hread : (s.pvCmds.any fun c => c.pagePa == frame && c.gen.isSome) = false := by simpa [List.any_eq_false] using h.unread
  simp [State.fillHeldUp, Cmd.parked, h.notParked, h.notMigrating, h.goesOn, h.drawn, hfirst, hread]

theorem FillsPage.beginFill_eq (h : FillsPage s id frame rb page src l cmd tm k z) : s.beginFill cmd =
    if cmd.begun then s else (s.raiseGen frame (leafOwner l.raw) rb).modCmd id fun c => { c with begun := true } := by
  obtain rfl : cmd.id = id := by simpa using List.find?_some (p := fun c : Cmd => c.id == id) h.found
  simp only [State.beginFill, h.what]

theorem FillsPage.fillComplete_blocked (h : FillsPage s id frame rb page src l cmd tm k z) (hb : cmd.begun = false)
    (hg : s.genBlocked frame (leafOwner l.raw) = true) : s.fillComplete id = some (s.trapCmd cmd PROT page) := by
  have hfree : ¬ s.fillHeldUp id frame cmd = true := by simp [h.fillHeldUp_eq]
  simp only [State.fillComplete, h.found, h.what, h.owner]
  exact (if_neg hfree).trans (if_pos (by simp [hb, hg]))

/-- A fill that nothing stops writes every sector under its generation, and completes (R344). -/
theorem FillsPage.fillComplete_fills (h : FillsPage s id frame rb page src l cmd tm k z)
    (hg : cmd.begun = true ∨ s.genBlocked frame (leafOwner l.raw) = false)
    (hd : ∀ i < 32768, s.fillSector tm k z cmd.by_.since page src l i = .ok (data i)) : s.fillComplete id =
      some (((List.range 32768).foldl (fun s i => s.putFill z l i (data i)) ((s.beginFill cmd).checkSources tm k z cmd.by_.handle
        (((List.range 32768).filter fun i => (data i).2).map fun i => src + BitVec.ofNat 64 (256 * i)))).endCmd cmd) := by
  have hfree : ¬ s.fillHeldUp id frame cmd = true := by simp [h.fillHeldUp_eq]
  have hsec : (List.range 32768).map (fun i => s.fillSector tm k z cmd.by_.since page src l i) =
      (List.range 32768).map fun i => Except.ok (data i) := List.map_congr_left fun i hi => hd i (List.mem_range.1 hi)
  have hgen : ¬ (!cmd.begun && s.genBlocked frame (leafOwner l.raw)) = true := by
    rcases hg with hg | hg <;> simp [hg]
  simp only [State.fillComplete, h.found, h.what, h.owner]
  refine ((if_neg hfree).trans (if_neg hgen)).trans ?_
  have hall : (List.range 32768).takeWhile (fun _ => true) = List.range 32768 := List.takeWhile_eq_self_iff.2 fun _ _ => rfl
  have hdata : (List.range 32768).filterMap (fun i => some (data i)) = (List.range 32768).map data :=
    List.filterMap_eq_map_iff_forall_eq_some.2 fun _ _ => rfl
  have hnone : (List.range 32768).findSome? (fun _ => (none : Option EngineStop)) = none := List.findSome?_eq_none_iff.2 fun _ _ => rfl
  simp only [hsec, List.takeWhile_map, List.filterMap_map, List.findSome?_map, Function.comp_def, hall, hdata, hnone, zipIdx_map_range,
    List.foldl_map, List.filter_map, List.map_map]

end Fills

/-- Settles O53: a start through the queue of its engine (`TakesCommand`), a completion through the command whose engines have ended
(`Completes`), a fill through its turn at its page (`FillsPage`). -/
theorem paveEvents : Obligations.PaveEvents := by
  intro s s1 ch e p tm k z l
  refine ⟨fun hin he hcur => ?_, fun id hin hp => ?_, PvCmd.status_clean, fun n er ix => PvCmd.status_single,
    fun id frame page src rb cmd data hin hf hw ho hft hm hst hdr hfirst hread => ?_⟩
  · subst he
    refine ⟨fun x hx hs => eventStep_none hin (State.commandStart_open hcur hx hs), fun rest hclosed hq h1 => ?_⟩
    have htakes : TakesCommand s ch p rest := ⟨hcur, hclosed, hq⟩
    subst h1
    exact ⟨fun hf => eventStep_ok hin (htakes.commandStart_fenced hf), fun hf hs => eventStep_ok hin (htakes.commandStart_fresh hf hs)⟩
  · refine ⟨fun hn => eventStep_none hin (State.commandComplete_early hp hn), fun hn hst hft hm hs => ?_, fun q hn hst hft hm hs ho hq => ?_⟩
    · exact eventStep_ok hin (Completes.commandComplete_silent ⟨hp, hn, hst, hft, hm⟩ hs)
    · exact eventStep_ok hin (Completes.commandComplete_writes ⟨hp, hn, hst, hft, hm⟩ hs ho hq)
  · have hfill : FillsPage s id frame rb page src l cmd tm k z := ⟨hf, hw, ho, hft, hm, hst, hdr, hfirst, hread⟩
    refine ⟨fun hb hg => eventStep_ok hin (hfill.fillComplete_blocked hb hg), fun hg hd h1 => ?_⟩
    rw [h1, ← hfill.beginFill_eq]
    exact eventStep_ok hin (hfill.fillComplete_fills hg hd)

end Sys2Proof.Machine
end

section
/-! SUPPORT. `pvfill`, `pvsub` and `pvstat` at their issue (R97, R98, R344, R347, R350). -/

namespace Sys2Proof.Machine

open Sys2Proof

section Pave

variable {s s1 s2 s3 s4 s5 t : State} {c : Ctx} {d a b f : BitVec 8} {r : List Byte} {l : Leaf} {o : Obj} {oc : Option Obj} {page : W64}
  {pl : Nat → Place}

/-! ### A page, and the shadow's part -/

/-- A page that the tables map by a leaf of a pavé page is one (R342). -/
theorem paveLeaf_leaf {w : Bool} (hb : badVa page = false) (hw : isWindow page = false) (hl : s.lookup c.bez c.core page.toNat = .leaf l)
    (hk : leafKind l.raw = 4) (h2 : l.level = 2) : paveLeaf c s page w = .ok l := by
  simp [paveLeaf, hb, hw, hl, hk, h2]

theorem exec_pave_empty {i : Instr} {ops : List W64} (hi : i = .pvfill d a ∧ ops = [c.s d, c.s a] ∨ i = .pvsub d a b ∧ ops = [c.s d, c.s a, c.s b])
    (h : Issuing i c s) (he : c.em = 0) (hr : c.g.sh = true ∨ c.RoomB s) : exec i s = .next (c.past (sign c s ops)) := by
  obtain ⟨rfl, rfl⟩ | ⟨rfl, rfl⟩ := hi <;> exact issue_ok h (by simp only [he, if_true]; exact classB_nothing hr)

theorem exec_pave_shadow {i : Instr} {ops : List W64} (hi : i = .pvfill d a ∧ ops = [c.s d, c.s a] ∨ i = .pvsub d a b ∧ ops = [c.s d, c.s a, c.s b])
    (h : Issuing i c s) (he : c.em ≠ 0) (hb : (c.s b).toNat < 2 ^ 20) (hs : c.g.sh = true) (hm : c.MayCommit s) :
    exec i s = .next (c.past (sign c (c.commit s false) ops)) := by
  have he' : ¬ c.em = 0#32 := he
  have hb' : ¬ 1048576 ≤ (c.s b).toNat := by omega
  obtain ⟨rfl, rfl⟩ | ⟨rfl, rfl⟩ := hi <;> exact issue_ok h (by simp [he', hb', hs, boundary_commit false hm, bind, Except.bind])

/-! ### `pvfill` (R344) -/

/-- A `pvfill` that has read its record and found its page (R344). -/
structure NamesFill (d a : BitVec 8) (c : Ctx) (s s1 : State) (r : List Byte) (page : W64) (l : Leaf) : Prop where
  issuing : Issuing (.pvfill d a) c s
  leader : c.g.sh = false
  lanes : ¬ c.em = 0#32
  room : c.RoomB s
  aligned : (c.s a).toNat % 64 = 0
  reads : c.Reads s .scalarLoad (c.s a) 64 r s1
  names : page = dword r 0
  pageAligned : page.toNat % 8388608 = 0
  src : (dword r 8).toNat % 256 = 0
  word : bits (dword r 16).toNat 63 3 = 0
  rest : ∀ x ∈ slice r 24 40, x = 0
  leaf : paveLeaf c s1 page true = .ok l
  stripe : (dword r 16).toNat % 8 ≤ descStripe (s1.idesc c.bez (leafIdesc l.raw))

theorem NamesFill.execPvfill_prot (h : NamesFill d a c s s1 r page l) (hp : leafW l.raw = false ∨ paveOwned c s1 l = false) :
    execPvfill d a s = .next (c.traps s PROT page) := by
  have hrest : ¬ ∃ x ∈ slice r 24 40, ¬ x = 0#8 := by simpa using h.rest
  obtain rfl := h.names
  exact issue_trap h.issuing (by
    simp [h.leader, h.lanes, h.aligned, gateB_room (t := s) (State.ctx_group h.issuing.ctx) h.room, readRecord,
      readRecordAs_reads (State.ctx_group h.issuing.ctx) h.reads, h.pageAligned, h.src, h.word, hrest, h.leaf, Nat.not_lt.2 h.stripe, hp,
      bind, Except.bind, throw, throwThe, MonadExceptOf.throw])

/-- The page may be written, its generation can rise, and the counter is found (R344). -/
structure OrdersFill (d a : BitVec 8) (c : Ctx) (s s1 s2 : State) (r : List Byte) (page : W64) (l : Leaf) (oc : Option Obj) (o : Obj) : Prop
    extends NamesFill d a c s s1 r page l where
  writable : leafW l.raw = true
  owned : paveOwned c s1 l = true
  rises : ∀ x, s1.leafDesc c.bez l = some x → ¬ x.gen = 4294967295#32
  fits : s1.leafDesc c.bez l = none → s1.descsFull (s1.leafPa c.bez l 0) = false
  counter : c.s d = 0 ∧ s2 = s1 ∧ oc = none ∨ c.s d ≠ 0 ∧ c.Counter s1 .sync (c.s d) o s2 ∧ oc = some o
  commits : c.MayCommit s2

/-- The command of a `pvfill` joins the engine's queue. -/
def State.queuesFill (t : State) (frame : Nat) (page : W64) (l : Leaf) (r : List Byte) (y : Issuer) : State :=
  { t with cmds := t.cmds ++ [{ id := t.nextCmd, by_ := y, what := .fill frame page l (dword r 8) ((dword r 16).toNat % 8) }], nextCmd := t.nextCmd + 1 }

theorem OrdersFill.execPvfill_eq (h : OrdersFill d a c s s1 s2 r page l oc o)
    (h3 : s3 = (c.commit s2 false).publish c.g c.core 3) (hr : c.RoomB s3) :
    execPvfill d a s = .next (c.past (sign c (drawFor c (c.opB s3 (.engine s3.nextCmd)) (c.nextOp s3) oc fun y w t => match w with
      | none => t.queuesFill (s1.leafPa c.bez l 0) page l r y
      | some o => c.mod (t.queuesFill (s1.leafPa c.bez l 0) page l r y) fun g => g.resolve (c.nextOp s3) id (.draw o (.cmd t.nextCmd) 33))
      [c.s d, c.s a])) := by
  subst h3
  have hrest : ¬ ∃ x ∈ slice r 24 40, ¬ x = 0#8 := by simpa using h.rest
  obtain rfl := h.names
  have hg := State.ctx_group h.issuing.ctx
  refine issue_ok h.issuing ?_
  obtain ⟨hd, rfl, rfl⟩ | ⟨hd, hc, rfl⟩ := h.counter
  · cases hx : s2.leafDesc c.bez l <;>
    simp [h.leader, h.lanes, h.aligned, gateB_room (t := s) hg h.room, readRecord, readRecordAs_reads hg h.reads, h.pageAligned, h.src, h.word, hrest,
      h.leaf, Nat.not_lt.2 h.stripe, h.writable, h.owned, hx, h.fits, h.rises, hd, boundary_commit false h.commits, issueB_room hr, bind, Except.bind] <;>
    rfl
  · have hd' : ¬ c.s d = 0#64 := hd
    cases hx : s1.leafDesc c.bez l <;>
    simp [h.leader, h.lanes, h.aligned, gateB_room (t := s) hg h.room, readRecord, readRecordAs_reads hg h.reads, h.pageAligned, h.src, h.word, hrest,
      h.leaf, Nat.not_lt.2 h.stripe, h.writable, h.owned, hx, h.fits, h.rises, hd', counterAt_counter hc, boundary_commit false h.commits,
      issueB_room hr, bind, Except.bind] <;>
    rfl

/-! ### `pvsub` (R347) -/

theorem execPvsub_illoperand (h : Issuing (.pvsub d a b) c s) (he : c.em ≠ 0) (hb : 2 ^ 20 ≤ (c.s b).toNat) :
    execPvsub d a b s = .next (c.traps s ILLOPERAND 0) := by
  have he' : ¬ c.em = 0#32 := he
  have hb' : 1048576 ≤ (c.s b).toNat := by omega
  exact issue_trap h (by simp [he', hb'])

/-- The size of an element of the input vector of a program record (R347). -/
def prSize (r : List Byte) : Nat := if prF32 r then 4 else 2

/-- The sectors of the input vector of a program record, by the addresses that are read (R347). -/
def prAds (r : List Byte) : List W64 := vecAds (prVec r) (prVlen r) (prSize r)

/-- A program record whose fields pass the checks of R347 for the format `fs` and `count` channels from `first`. -/
structure GoodProgram (r : List Byte) (fs : W64) (first count : Nat) : Prop where
  page : (prPage r).toNat % 8388608 = 0
  vec : (prVec r).toNat % prSize r = 0
  prog : (prProg r).toNat % 4 = 0
  out : (prOut r).toNat % 4 = 0
  stat : (prStat r).toNat % 8 = 0
  mbz : progMbz r = false
  format : fsFormat fs = 0 ∨ fsFormat fs = 2 ∨ fsFormat fs = 3
  krow : prKrow r ≠ 0
  channels : first + count ≤ 768

/-- A `pvsub` whose record, page, channels, input vector and counter have passed their checks (R347). -/
structure Submits (d a b : BitVec 8) (c : Ctx) (s s1 s2 s3 : State) (r : List Byte) (l : Leaf) (first count : Nat) (fs : W64)
    (pl : Nat → Place) (oc : Option Obj) (o : Obj) : Prop where
  issuing : Issuing (.pvsub d a b) c s
  leader : c.g.sh = false
  lanes : ¬ c.em = 0#32
  room : c.RoomB s
  aligned : (c.s a).toNat % 64 = 0
  reads : c.Reads s .scalarLoad (c.s a) 64 r s1
  set : (c.s b).toNat < 1048576
  firstIs : first = bits (c.s b).toNat 9 0
  countIs : count = bits (c.s b).toNat 19 10 + 1
  format : fs = recFslot c.kern.record (prSlot r)
  good : GoodProgram r fs first count
  leaf : paveLeaf c s1 (prPage r) false = .ok l
  fits : ∀ x, s1.leafDesc c.bez l = some x → krowFits fs (prKrow r) x.rb = true
  owned : paveOwned c s1 l = true
  members : ∀ i < count, s1.memberOf (.chan (first + i)) c.bez.num = true ∧ descFirst (s1.idesc c.bez (leafIdesc l.raw)) ≤ first + i ∧
    first + i < descFirst (s1.idesc c.bez (leafIdesc l.raw)) + descCount (s1.idesc c.bez (leafIdesc l.raw))
  reaches : ∀ k < (prAds r).length, c.Reaches s1 .engine 1 ((prAds r)[k]?.getD 0) (pl k)
  touched : s2 = s1.touch c.bez c.core (prAds r)
  counter : c.s d = 0 ∧ s3 = s2 ∧ oc = none ∨ c.s d ≠ 0 ∧ c.Counter s2 .sync (c.s d) o s3 ∧ oc = some o
  commits : c.MayCommit s3

/-- The command of a `pvsub` joins the commands of the engines. -/
def Ctx.queuesProgram (c : Ctx) (t : State) (r : List Byte) (l : Leaf) (first count : Nat) (fs : W64) (v : List (BitVec 16) × Bool) (y : Issuer) : State :=
  let cmd : PvCmd :=
   { id := t.nextCmd, by_ := y, record := r, fslot := fs, vec := v.1, first := first, count := count, pagePa := t.leafPa c.bez l 0, leaf := l,
     vecPoison := v.2, waitAt := (List.range count).map (first + ·) }
  { t with pvCmds := t.pvCmds ++ [cmd], nextCmd := t.nextCmd + 1 }

section Submitting

variable {first count : Nat} {fs : W64}

theorem Submits.execPvsub_eq (h : Submits d a b c s s1 s2 s3 r l first count fs pl oc o)
    (h4 : s4 = (c.commit s3 false).publish c.g c.core 3)
    (h5 : s5 = (s4.fillPlaces ((List.range (prAds r).length).map pl)).checkPlaces c.handle ((List.range (prAds r).length).map pl))
    (hr : c.RoomB s5) :
    execPvsub d a b s = .next (c.past (sign c (drawFor c (c.opB s5 (.engine s5.nextCmd)) (c.nextOp s5) oc fun y w t =>
      match w with
      | none => c.queuesProgram t r l first count fs (readVec c s5 r ((List.range (prAds r).length).map fun k => (k, pl k))) y
      | some o => c.mod (c.queuesProgram t r l first count fs (readVec c s5 r ((List.range (prAds r).length).map fun k => (k, pl k))) y)
          fun g => g.resolve (c.nextOp s5) id (.draw o (.pv t.nextCmd) 33)) [c.s d, c.s a, c.s b])) := by
  have hg := State.ctx_group h.issuing.ctx
  have hset : ¬ 1048576 ≤ (c.s b).toNat := Nat.not_le.2 h.set
  have hvec := h.good.vec
  have hads := checkLanes_area h.reaches
  rw [← h.touched] at hads
  simp only [prAds, prSize] at hvec hads hr h5
  obtain rfl := h.firstIs
  obtain rfl := h.countIs
  obtain rfl := h.format
  have hformat : ¬ ((¬ fsFormat (recFslot c.kern.record (prSlot r)) = 0 ∧ ¬ fsFormat (recFslot c.kern.record (prSlot r)) = 2) ∧
      ¬ fsFormat (recFslot c.kern.record (prSlot r)) = 3) := by
    have hf := h.good.format
    omega
  have hmembers : ¬ ∃ x ≤ bits (c.s b).toNat 19 10, s1.memberOf (.chan (bits (c.s b).toNat 9 0 + x)) c.bez.num = true →
      descFirst (s1.idesc c.bez (leafIdesc l.raw)) ≤ bits (c.s b).toNat 9 0 + x →
      descFirst (s1.idesc c.bez (leafIdesc l.raw)) + descCount (s1.idesc c.bez (leafIdesc l.raw)) ≤ bits (c.s b).toNat 9 0 + x := by
    rintro ⟨x, hx, hout⟩
    obtain ⟨hm, hlo, hhi⟩ := h.members x (by omega)
    exact absurd (hout hm hlo) (by omega)
  subst h4 h5
  refine issue_ok h.issuing ?_
  obtain ⟨hd, rfl, rfl⟩ | ⟨hd, hc, rfl⟩ := h.counter
  · cases hx : s1.leafDesc c.bez l <;>
    simp [h.leader, h.lanes, h.aligned, hset, gateB_room (t := s) hg h.room, readRecord, readRecordAs_reads hg h.reads, h.good.page, hvec, h.good.prog,
      h.good.out, h.good.stat, h.good.mbz, hformat, h.good.krow, Nat.not_lt.2 h.good.channels, h.leaf, hx, h.fits, h.owned, hmembers, hads, hd,
      boundary_commit false h.commits, issueB_room hr, bind, Except.bind, List.map_map, Function.comp_def] <;>
    rfl
  · have hd' : ¬ c.s d = 0#64 := hd
    cases hx : s1.leafDesc c.bez l <;>
    simp [h.leader, h.lanes, h.aligned, hset, gateB_room (t := s) hg h.room, readRecord, readRecordAs_reads hg h.reads, h.good.page, hvec, h.good.prog,
      h.good.out, h.good.stat, h.good.mbz, hformat, h.good.krow, Nat.not_lt.2 h.good.channels, h.leaf, hx, h.fits, h.owned, hmembers, hads, hd',
      counterAt_counter hc, boundary_commit false h.commits, issueB_room hr, bind, Except.bind, List.map_map, Function.comp_def] <;>
    rfl

end Submitting

/-! ### `pvstat` (R350) -/

section Status

variable (h : Issuing (.pvstat d a f) c s) (hl : c.g.sh = false) (hr : c.RoomA s)
include h hl hr

theorem execPvstat_engine (hf : f = 0) : execPvstat d a f s = .next (c.past (c.opA s [.scal (sdstNum d)
    (if 767 < (c.s a).toNat ∨ s.memberOf (.chan (c.s a).toNat) c.bez.num = false then 0 else
      BitVec.ofNat 64 ((s.pvState (c.s a).toNat).code + (s.engine (c.s a).toNat).lastErr * 2 ^ 8 + min 64 (s.pvWaiting (c.s a).toNat).length * 2 ^ 16 +
        (s.engine (c.s a).toNat).completed.toNat * 2 ^ 32))] .ready false)) :=
  issue_ok h (by simp [classA, hl, gateA_room (t := s) (State.ctx_group h.ctx) hr, hf, issueA_room hr, bind, Except.bind])

variable (hf : f ≠ 0) (hb : badVa (c.s a) = false) (h23 : (c.s a).toNat % 2 ^ 23 = 0)
include hf hb h23

theorem execPvstat_window (hw : isWindow (c.s a) = true) : execPvstat d a f s = .next (c.past (c.opA s [.scal (sdstNum d) 0] .ready false)) := by
  have hf' : ¬ f = 0#8 := hf
  have h23' : (c.s a).toNat % 8388608 = 0 := h23
  exact issue_ok h (by simp [classA, hl, gateA_room (t := s) (State.ctx_group h.ctx) hr, hf', hb, h23', hw, issueA_room hr, bind, Except.bind])

/-- What `pvstat` reads of the page of a leaf (R350). -/
def State.pageStatus (s : State) (b : Bezel) (l : Leaf) : W64 :=
  if leafKind l.raw = 4 then (match s.leafDesc b l with | some x => BitVec.ofNat 64 (x.gen.toNat + x.rb * 2 ^ 32) | none => 0) else 0

theorem execPvstat_page (hw : isWindow (c.s a) = false) (hk : s.lookup c.bez c.core (c.s a).toNat = .leaf l) : execPvstat d a f s =
    .next (c.past (c.opA (s.touch c.bez c.core [c.s a]) [.scal (sdstNum d) (s.pageStatus c.bez l)] .ready false)) := by
  have hf' : ¬ f = 0#8 := hf
  have h23' : (c.s a).toNat % 8388608 = 0 := h23
  have hr' : c.RoomA (s.touch c.bez c.core [c.s a]) := hr.of_group? (State.group?_touch s _ _ _ _)
  exact issue_ok h (by
    simp [classA, hl, gateA_room (t := s) (State.ctx_group h.ctx) hr, hf', hb, h23', hw, hk, issueA_room hr', State.pageStatus, bind, Except.bind] <;>
    rfl)

theorem execPvstat_parks {n : Nat} (hw : isWindow (c.s a) = false) (hk : s.lookup c.bez c.core (c.s a).toNat = .notPresent n) :
    execPvstat d a f s = .next (s.parkGroup c (c.s a) 1 n false false) := by
  have hf' : ¬ f = 0#8 := hf
  have h23' : (c.s a).toNat % 8388608 = 0 := h23
  exact issue_done h (by simp [classA, hl, gateA_room (t := s) (State.ctx_group h.ctx) hr, hf', hb, h23', hw, hk, bind, Except.bind])

end Status

end Pave

/-- Settles O51: `pvfill` and `pvsub` through the commands that they queue under the draw of their tickets (`OrdersFill.execPvfill_eq`,
`Submits.execPvsub_eq`), `pvstat` through what its operand names. -/
theorem paveInstructions : Obligations.PaveInstructions := by
  intro s s1 s2 s3 s4 s5 t c d a b f r l o oc pl
  refine ⟨fun i ops hi h => ⟨fun he hr => exec_pave_empty hi h he hr, fun he hb hs hm => exec_pave_shadow hi h he hb hs hm⟩,
    fun hl he hr h64 hrd => ⟨fun page h hpage h23 hsrc hz hz' hb hw hk hkind hlev hstripe => ?_,
      fun first count fs esize ads vec bad cmd h hset hfirst hcount hfs hes h23 hvec hprog hout hstat hmbz hfmt hkrow hch hb hw hk hkind hlev
        hfits hown hmem hads hre h2 hct hm h4 h5 hread hr5 => ?_⟩,
    fun h he hb => execPvsub_illoperand h he hb,
    fun h hl hr => ⟨fun hf => execPvstat_engine h hl hr hf, fun hf hb h23 => ⟨fun hw => execPvstat_window h hl hr hf hb h23 hw,
      fun hw hk => execPvstat_page h hl hr hf hb h23 hw hk, fun n hw hk => execPvstat_parks h hl hr hf hb h23 hw hk⟩⟩⟩
  · have hfill : NamesFill d a c s s1 r page l := ⟨h, hl, he, hr, h64, hrd, hpage, h23, hsrc, hz, hz', paveLeaf_leaf hb hw hk hkind hlev, hstripe⟩
    refine ⟨hfill.execPvfill_prot, fun hwr hown hgen hfull hct hm h3 hr3 => ?_⟩
    have horder : OrdersFill d a c s s1 s2 r page l oc o := ⟨hfill, hwr, hown, hgen, hfull, hct, hm⟩
    rw [exec_pvfill, horder.execPvfill_eq h3 hr3]
    refine ⟨fun y hy => ?_, fun hoc ht hn => ⟨c.undrawn (c.nextOp s3) o, rfl, rfl, rfl, ?_⟩⟩
    · rw [drawFor_drawn hy]; rfl
    · subst hoc ht
      rw [drawFor_waits hn]; rfl
  · subst hes hads
    have hsub : Submits d a b c s s1 s2 s3 r l first count fs pl oc o := ⟨h, hl, he, hr, h64, hrd, hset, hfirst, hcount, hfs,
      ⟨h23, hvec, hprog, hout, hstat, hmbz, hfmt, hkrow, hch⟩, paveLeaf_leaf hb hw hk hkind hlev, hfits, hown, hmem, hre, h2, hct, hm⟩
    have hread' : readVec c s5 r ((List.range (prAds r).length).map fun k => (k, pl k)) = (vec, bad) := hread
    rw [exec_pvsub, hsub.execPvsub_eq h4 h5 hr5, hread']
    refine ⟨fun y hy hcmd => ?_, fun hoc ht hn hcmd => ⟨c.undrawn (c.nextOp s5) o, rfl, rfl, rfl, ?_⟩⟩
    · subst hcmd
      rw [drawFor_drawn hy]; rfl
    · subst hoc ht hcmd
      rw [drawFor_waits hn]; rfl

end Sys2Proof.Machine
end

section
/-! SUPPORT. What leaves the list of fenced units alone: the end of a team, with all that it sets going (R82, R306, R363). -/

namespace Sys2Proof.Machine

open Sys2Proof

/-! ### Memory and objects -/

@[simp] theorem State.checkSector_fencedUnits (s : State) (h : W64) (n : Nat) : (s.checkSector h n).fencedUnits = s.fencedUnits := by
  unfold State.checkSector; split <;> simp

@[simp] theorem State.freeSector_fencedUnits (s : State) (n : Nat) : (s.freeSector n).fencedUnits = s.fencedUnits := by
  unfold State.freeSector; split <;> simp

@[simp] theorem State.homeCells_fencedUnits (s : State) (cells : List (Nat × Byte)) (owner : Nat) (page : Option Bool) :
    (s.homeCells cells owner page).fencedUnits = s.fencedUnits :=
  (State.foldl_keeps State.fencedUnits (f := fun t x => t.setSidecar x (s.sidecarAfter cells owner page x)) (fun _ _ => rfl) _ _).trans
    (State.foldl_keeps State.fencedUnits State.freeSector_fencedUnits _ s)

@[simp] theorem State.homeWrite_fencedUnits (s : State) (pa : Nat) (l : List Byte) (owner : Nat) (page : Option Bool) :
    (s.homeWrite pa l owner page).fencedUnits = s.fencedUnits := s.homeCells_fencedUnits _ _ _

@[simp] theorem State.noteLate_fencedUnits (s : State) (space a n : Nat) : (s.noteLate space a n).fencedUnits = s.fencedUnits := by
  unfold State.noteLate; split <;> rfl

@[simp] theorem State.takeEffect_fencedUnits (s : State) (p : Posted) : (s.takeEffect p).fencedUnits = s.fencedUnits :=
  (State.foldl_keeps State.fencedUnits (f := fun s (x : Nat × Byte) => s.noteLate 0 x.1 1) (fun s x => s.noteLate_fencedUnits 0 x.1 1) _ _).trans
    (s.homeCells_fencedUnits _ _ _)

@[simp] theorem State.drainSector_fencedUnits (s : State) (n : Nat) : (s.drainSector n).fencedUnits = s.fencedUnits :=
  State.foldl_keeps State.fencedUnits State.takeEffect_fencedUnits _ _

@[simp] theorem State.atHome_fencedUnits (s : State) (o : Obj) : (s.atHome o).fencedUnits = s.fencedUnits := by
  cases o with
  | stash => rfl
  | glob pa va ow => exact s.drainSector_fencedUnits _

@[simp] theorem State.objWrite_fencedUnits (s : State) (o : Obj) (n : Nat) (l : List Byte) : (s.objWrite o n l).fencedUnits = s.fencedUnits := by
  cases o with
  | stash => rfl
  | glob pa va ow => exact s.homeWrite_fencedUnits _ _ _ _

/-! ### Records and faults -/

@[simp] theorem State.mbAdvance_fencedUnits (b : Bezel) (o : Obj) (n : Nat) (s : State) : (State.mbAdvance b o n s).fencedUnits = s.fencedUnits := by
  induction n generalizing s with
  | zero => rfl
  | succ n ih =>
    unfold State.mbAdvance
    dsimp only
    split
    · rfl
    · split
      · rw [ih]; simp
      · rfl

theorem State.mbPost_fencedUnits {s t : State} {b : Bezel} {m : Nat} {tag : W32} {body : List Byte} (h : s.mbPost b m tag body = some t) :
    t.fencedUnits = s.fencedUnits := by
  unfold State.mbPost at h
  dsimp only at h
  split at h
  · cases h
  · split at h
    · cases h
    · split at h
      · cases h
      · obtain rfl := Option.some.inj h
        simp

@[simp] theorem State.record_fencedUnits (s : State) (b : Nat) (tag : W32) (body : List Byte) : (s.record b tag body).fencedUnits = s.fencedUnits := by
  unfold State.record
  split
  · rfl
  · split
    · split
      · exact State.mbPost_fencedUnits ‹_›
      · rfl
    · rfl

@[simp] theorem State.fault_fencedUnits (s : State) (b : Nat) (f : FaultInfo) : (s.fault b f).fencedUnits = s.fencedUnits := by
  unfold State.fault
  split
  · rfl
  · next bz _ =>
    have hlog : (if f.cause = 2 && s.walkPoisoned f.va.toNat 5 bz.root then s.locket (f.place.toNat / 2 ^ 10 / 64) 7 12 f.handle f.va
        else s).fencedUnits = s.fencedUnits := by split <;> simp
    dsimp only
    split
    · simpa using hlog
    · split
      · exact hlog
      · simpa using hlog

/-! ### Completions and dependences -/

@[simp] theorem State.testDep_fencedUnits (s : State) (b k : Nat) : (s.testDep b k).fencedUnits = s.fencedUnits := by
  unfold State.testDep
  split
  · dsimp only
    split
    · rfl
    · split
      · split
        · simp
        · split <;> split <;> rfl
      · simp [State.ctrFault]
      · rfl
      · simp
  · rfl

@[simp] theorem State.testDeps_fencedUnits (s : State) (pa : Nat) : (s.testDeps pa).fencedUnits = s.fencedUnits :=
  State.foldl_keeps State.fencedUnits (fun s (b : Bezel) => State.foldl_keeps State.fencedUnits (fun s (k : Kernel) => s.testDep_fencedUnits b.num k.slot) _ s) _ s

@[simp] theorem State.completeNow_fencedUnits (s : State) (o : Obj) (t agent : Nat) : (s.completeNow o t agent).1.fencedUnits = s.fencedUnits := by
  unfold State.completeNow
  dsimp only
  split <;> simp

@[simp] theorem State.releaseHeld_fencedUnits (o : Obj) (agent n : Nat) (s : State) : (State.releaseHeld o agent n s).fencedUnits = s.fencedUnits := by
  induction n generalizing s with
  | zero => rfl
  | succ n ih =>
    unfold State.releaseHeld
    split
    · rfl
    · rw [ih]; simp

@[simp] theorem State.complete_fencedUnits (s : State) (o : Obj) (t agent : Nat) : (s.complete o t agent).1.fencedUnits = s.fencedUnits := by
  cases o with
  | stash => rfl
  | glob pa va ow =>
    unfold State.complete
    dsimp only
    split
    · split <;> simp
    · split <;> simp

@[simp] theorem State.completeTicket_fencedUnits (s : State) (p : Option (Obj × W64)) : (s.completeTicket p).fencedUnits = s.fencedUnits := by
  cases p with
  | none => rfl
  | some p =>
    unfold State.completeTicket
    dsimp only
    split
    · rfl
    · split
      · rfl
      · simp

/-! ### The end of a team and of its kernel -/

@[simp] theorem State.freeTaskActs_fencedUnits (s : State) (g : GRef) (seq : W32) : (s.freeTaskActs g seq).fencedUnits = s.fencedUnits :=
  State.foldl_keeps State.fencedUnits (fun s _ => s.completeTicket_fencedUnits _) _ s

@[simp] theorem State.discardTask_fencedUnits (s : State) (r : GRef) : (s.discardTask r).fencedUnits = s.fencedUnits := by
  unfold State.discardTask
  split
  · rfl
  · simp

@[simp] theorem State.storeBlock_fencedUnits (s : State) (t : Team) (m : Mapped) : (s.storeBlock t m).fencedUnits = s.fencedUnits := by
  unfold State.storeBlock
  dsimp only
  split
  · split <;> simp [State.dropLeases]
  · rfl

@[simp] theorem State.recall_fencedUnits (s : State) (sid off : Nat) (unmap : Bool) : (s.recall sid off unmap).fencedUnits = s.fencedUnits := by
  unfold State.recall
  split
  · rfl
  · split
    · rfl
    · simp

@[simp] theorem State.unmapAll_fencedUnits (s : State) (sid : Nat) : (s.unmapAll sid).fencedUnits = s.fencedUnits := by
  unfold State.unmapAll
  split
  · rfl
  · exact State.foldl_keeps State.fencedUnits (fun s (m : Mapped) => s.recall_fencedUnits sid m.off true) _ s

@[simp] theorem State.haltTeam_fencedUnits (s : State) (t : Team) : (s.haltTeam t).fencedUnits = s.fencedUnits := by
  unfold State.haltTeam
  dsimp only
  rw [State.modTeam_fencedUnits, State.unmapAll_fencedUnits]
  exact State.foldl_keeps State.fencedUnits State.discardTask_fencedUnits _ s

@[simp] theorem State.closeMirror_fencedUnits (s : State) (f : FlowEnd) : (s.closeMirror f).fencedUnits = s.fencedUnits := by
  have hflush : ∀ s : State, (s.flushMirror f).fencedUnits = s.fencedUnits := by
    refine State.foldl_keeps State.fencedUnits (fun s x => ?_) _
    split
    · split <;> simp
    · rfl
  unfold State.closeMirror
  dsimp only
  split <;> rw [hflush]

@[simp] theorem State.closeFlows_fencedUnits (s : State) (b slot : Nat) (drop : Bool) : (s.closeFlows b slot drop).fencedUnits = s.fencedUnits :=
  State.foldl_keeps State.fencedUnits State.closeMirror_fencedUnits _ s

@[simp] theorem State.freeCores_fencedUnits (s : State) (b : Nat) : (s.freeCores b).fencedUnits = s.fencedUnits :=
  State.foldl_keeps State.fencedUnits (fun s (u : UnitId) => s.setUnit_fencedUnits u .quarantine) _ s

@[simp] theorem State.unbindKey_fencedUnits (s : State) (k : KeySlot) : (s.unbindKey k).fencedUnits = s.fencedUnits := by
  unfold State.unbindKey; split <;> rfl

@[simp] theorem State.vacate_fencedUnits (s : State) (b : Bezel) : (s.vacate b).fencedUnits = s.fencedUnits := by
  unfold State.vacate
  dsimp only
  rw [State.completeTicket_fencedUnits]
  exact (State.foldl_keeps State.fencedUnits State.unbindKey_fencedUnits _ _).trans
    (State.foldl_keeps State.fencedUnits (fun s (u : UnitId) => s.setUnit_fencedUnits u .quarantine) _ s)

@[simp] theorem State.settleBezel_fencedUnits (s : State) (b : Nat) : (s.settleBezel b).fencedUnits = s.fencedUnits := by
  unfold State.settleBezel
  dsimp only
  split
  · simp
  · split
    · split <;> simp
    · split <;> simp
    · simp

@[simp] theorem State.stopKernel_fencedUnits (s : State) (b slot err : Nat) (cancel : Bool) :
    (s.stopKernel b slot err cancel).fencedUnits = s.fencedUnits := by
  unfold State.stopKernel
  split
  · rfl
  · simp only [State.settleBezel_fencedUnits, State.modKernel_fencedUnits, State.modBezel_fencedUnits, State.closeFlows_fencedUnits]
    exact State.foldl_keeps State.fencedUnits State.haltTeam_fencedUnits _ s

@[simp] theorem State.terminate_fencedUnits (s : State) (r : GRef) (err code : Nat) (arg : W64) :
    (s.terminate r err code arg).fencedUnits = s.fencedUnits := by
  unfold State.terminate
  split
  · rfl
  · simp

end Sys2Proof.Machine
end

section
/-! SUPPORT. Bezels, keys, attestation and fenced units (R306 to R316, R354 to R358, R363; log entries 5, 24 and 26). -/

namespace Sys2Proof.Machine

open Sys2Proof

section Requests

variable {s s1 s2 s3 s4 t : State} {c : Ctx} {d a : BitVec 8} {r cfg : List Byte} {ctr : Option Obj} {n : Nat} {o : Obj} {k : W64}

/-! ### `bzreq` (R312, R313) -/

theorem execBzreq_misaligned (h : Issuing (.bzreq d a) c s) (hl : c.g.sh = false) (hb : badVa (c.s a) = false)
    (h256 : (c.s a).toNat % 256 ≠ 0) : execBzreq d a s = .next (c.traps s ALIGN (c.s a)) :=
  issue_trap h (by simp [hl, hb, h256])

/-- DONECTR of a request, which is 0, cannot be used, or names a place (R312). -/
def Ctx.RequestCounter (c : Ctx) (s : State) (ad : W64) (t : State) (ctr : Option Obj) : Prop :=
  (ad = 0 ∨ ad.toNat % 32 ≠ 0 ∨ badVa ad = true ∨ isWindow ad = true ∨ ∃ x, s.place c.team c.kern c.bez .sync ad = .trap x) ∧ t = s ∧ ctr = none ∨
    ad ≠ 0 ∧ ∃ p, isWindow ad = false ∧ ad.toNat < 2 ^ 57 ∧ ad.toNat % 32 = 0 ∧ s.place c.team c.kern c.bez .sync ad = .ok p ∧
      t = s.touch c.bez c.core [ad] ∧ ctr = Place.counter (some p)

theorem bzCounter_eq {ad : W64} (h : c.RequestCounter s ad t ctr) : bzCounter c s ad = .ok (t, ctr) := by
  obtain ⟨hno, rfl, rfl⟩ | ⟨h0, p, hw, hlt, h32, hp, rfl, rfl⟩ := h
  · by_cases hz : ad = 0 ∨ ad.toNat % 32 ≠ 0
    · exact if_pos hz
    · have htest : testAt .sync c t ad = .ok (t, none) := by
        unfold testAt
        by_cases hout : (badVa ad || isWindow ad) = true
        · exact if_pos hout
        · obtain ⟨x, hx⟩ : ∃ x, t.place c.team c.kern c.bez .sync ad = .trap x := by simp_all
          rw [if_neg hout, hx]
      rw [bzCounter, if_neg hz, htest]
      rfl
  · have hb : badVa ad = false := by simp [badVa]; omega
    rw [bzCounter, if_neg (not_or.2 ⟨h0, not_not.2 h32⟩), testAt_place hb hw hp]
    rfl

/-- A `bzreq` that has read its record, its configuration and its counter, and may commit (R312). -/
structure Requests (d a : BitVec 8) (c : Ctx) (s s1 s2 s3 : State) (r cfg : List Byte) (ctr : Option Obj) : Prop where
  issuing : Issuing (.bzreq d a) c s
  leader : c.g.sh = false
  inside : badVa (c.s a) = false
  aligned : (c.s a).toNat % 256 = 0
  room : c.RoomA s
  reads : c.Reads s .scalarLoad (c.s a) 256 r s1
  config : (bzOp r = 1 ∧ (bzConfig r).toNat % 64 = 0) ∧ c.Reads s1 .scalarLoad (bzConfig r) 64 cfg s2 ∨
    ¬ (bzOp r = 1 ∧ (bzConfig r).toNat % 64 = 0) ∧ s2 = s1 ∧ cfg = []
  counter : c.RequestCounter s2 (bzDone r) s3 ctr
  commits : c.MayCommit s3

/-- The answer of a request after its commit, by its status and its counter (R312, R313). -/
def Ctx.answersRequest (c : Ctx) (s : State) (d : BitVec 8) (r cfg : List Byte) (ctr : Option Obj) : Res :=
  let st := s.bzStatus (some c.bez) r cfg (bzDone r != 0 && ctr.isNone)
  if st = 0 then match ctr with
    | none => (issueA c s [.scal (sdstNum d) 0] .ready true).map fun s => s.bzApply r cfg none
    | some o =>
      match s.draw o c.handle with
      | .ticket t s5 => (issueA c s5 [.scal (sdstNum d) (t <<< 8)] .ready true).map fun s => s.bzApply r cfg (some (o, t))
      | .wait =>
        (issueA c s [.scal (sdstNum d) 0] (.draw o (.bezel (bzBezel r) s.stepNo) (sdstNum d)) true).map fun s => s.bzApply r cfg (some (o, 0))
  else issueA c s [.scal (sdstNum d) (BitVec.ofNat 64 st)] .ready true

theorem Requests.execBzreq_eq (h : Requests d a c s s1 s2 s3 r cfg ctr) :
    execBzreq d a s = .next (settle s c (c.answersRequest (c.commit s3 false) d r cfg ctr)) := by
  have hg := State.ctx_group h.issuing.ctx
  refine issue_settles h.issuing ?_
  obtain ⟨hop, hc⟩ | ⟨hop, rfl, rfl⟩ := h.config
  · have hread := readRecordAs_reads ((h.reads.group? c.g).trans hg) hc
    simp [h.leader, h.inside, h.aligned, gateA_room (t := s) hg h.room, readRecord, readRecordAs_reads hg h.reads, hop, hread, bzCounter_eq h.counter,
      boundary_commit false h.commits, bind, Except.bind] <;>
    rfl
  · simp [h.leader, h.inside, h.aligned, gateA_room (t := s) hg h.room, readRecord, readRecordAs_reads hg h.reads, if_neg hop, bzCounter_eq h.counter,
      boundary_commit false h.commits, bind, Except.bind] <;>
    rfl

theorem answersRequest_refused (hn : n = s.bzStatus (some c.bez) r cfg (bzDone r != 0 && ctr.isNone)) (h0 : n ≠ 0) (hr : c.RoomA s) :
    c.answersRequest s d r cfg ctr = .ok (c.opA s [.scal (sdstNum d) (BitVec.ofNat 64 n)] .ready true) := by
  subst hn
  simp only [Ctx.answersRequest]
  rw [if_neg h0, issueA_room hr]

section Granted

variable (hn : s.bzStatus (some c.bez) r cfg (bzDone r != 0 && ctr.isNone) = 0)
include hn

theorem answersRequest_plain (hc : ctr = none) (hr : c.RoomA s) :
    c.answersRequest s d r cfg ctr = .ok ((c.opA s [.scal (sdstNum d) 0] .ready true).bzApply r cfg none) := by
  subst hc
  simp only [Ctx.answersRequest]
  rw [if_pos hn, issueA_room hr]
  rfl

theorem answersRequest_ticket (hc : ctr = some o) (hd : s.draw o c.handle = .ticket k t) (hr : c.RoomA t) :
    c.answersRequest s d r cfg ctr = .ok ((c.opA t [.scal (sdstNum d) (k <<< 8)] .ready true).bzApply r cfg (some (o, k))) := by
  subst hc
  simp only [Ctx.answersRequest, hd]
  rw [if_pos hn, issueA_room hr]
  rfl

theorem answersRequest_waits (hc : ctr = some o) (hd : s.draw o c.handle = .wait) (hr : c.RoomA s) : c.answersRequest s d r cfg ctr =
    .ok ((c.opA s [.scal (sdstNum d) 0] (.draw o (.bezel (bzBezel r) s.stepNo) (sdstNum d)) true).bzApply r cfg (some (o, 0))) := by
  subst hc
  simp only [Ctx.answersRequest, hd]
  rw [if_pos hn, issueA_room hr]
  rfl

end Granted

/-- The status of a grow by the issuer's right, the bezel's state and the units' states, in this order (R313). -/
theorem State.bzStatus_grow {x : Bezel} (hz : bzMbz r = false) (hc : bzConfig r = 0) (hu : ∀ u ∈ bzUnits r, s.unit u ≠ .gone) (ho : bzOp r = 2) :
    s.bzStatus (some x) r cfg false = if x.operator = false then 7 else if s.bezelState (bzBezel r) ≠ .active then 2
      else if ∃ u ∈ bzUnits r, s.unit u ≠ .free then 3 else 0 := by
  have hgone : ((bzUnits r).any fun u => s.unit u == .gone) = false := by simpa [List.any_eq_false] using hu
  simp [State.bzStatus, hz, hc, ho, hgone, bzNeeds]

end Requests

section Keys

variable {s s1 t : State} {c : Ctx} {d a b : BitVec 8} {n m : Nat} {z : Bezel} {x h : W64}

/-! ### Key slots (R354, R355; log entry 26) -/

/-- A register names no key slot where it holds 0 or more than 12 bits. -/
theorem slotArg_none (hx : x.toNat = 0 ∨ 4096 ≤ x.toNat) : slotArg x = none := if_pos hx

theorem slotArg_some (h0 : 0 < x.toNat) (hx : x.toNat < 4096) : (slotArg x).isSome = true := by
  rw [slotArg, if_neg (by omega)]; rfl

/-- A key instruction whose arguments are bad traps, a shadow's as well. -/
theorem keyOp_bad {f : State → Res} : keyOp c s false f = .error (.trap ILLOPERAND) := rfl

/-- A leader's key instruction with room acts on the slot after its commit. -/
theorem keyOp_commits {f : State → Res} (hg : s.group? c.g = some c.grp) (hl : c.g.sh = false) (hr : c.RoomA s) (hm : c.MayCommit s) :
    keyOp c s true f = f (c.commit s false) := by
  simp [keyOp, hl, gateA_room (t := s) hg hr, boundary_commit false hm, bind, Except.bind]

theorem exec_key_illoperand {i : Instr} (hi : i = .keygenGenerate d a ∨ i = .keygenDestroy d a ∨ i = .keyseal d a b) (h : Issuing i c s)
    (ha : (c.s a).toNat = 0 ∨ 4096 ≤ (c.s a).toNat) : exec i s = .next (c.traps s ILLOPERAND 0) := by
  have hnone := slotArg_none ha
  obtain rfl | rfl | rfl := hi <;> exact issue_trap h (by simp only [hnone, Option.isSome_none, Bool.false_and]; rfl)

theorem execKeyseal_illoperand (h : Issuing (.keyseal d a b) c s) (hb : 16 ≤ (c.s b).toNat) :
    execKeyseal d a b s = .next (c.traps s ILLOPERAND 0) :=
  issue_trap h (by simp [Nat.not_lt.2 hb, keyOp])

section Slots

variable (h0 : 0 < (c.s a).toNat) (hn : (c.s a).toNat < 4096) (hl : c.g.sh = false) (hr : c.RoomA s) (hm : c.MayCommit s)
include h0 hn hl hr hm

theorem execKeygenGenerate_answers (h : Issuing (.keygenGenerate d a) c s)
    (hk : (c.commit s false).keyBegin c.bez (c.s a).toNat c.handle = (t, some x)) (ht : c.RoomA t) :
    execKeygenGenerate d a s = .next (c.past (c.opA t [.scal (sdstNum d) x] .ready true)) :=
  issue_ok h (by simp only [slotArg_some h0 hn, keyOp_commits (State.ctx_group h.ctx) hl hr hm, hk, issueA_room ht])

theorem execKeygenGenerate_draws (h : Issuing (.keygenGenerate d a) c s)
    (hk : (c.commit s false).keyBegin c.bez (c.s a).toNat c.handle = (t, none)) (ht : c.RoomA t) :
    execKeygenGenerate d a s = .next (c.past (c.opA t [.scal (sdstNum d) 0] (.keyDraw (c.s a).toNat) true)) :=
  issue_ok h (by simp only [slotArg_some h0 hn, keyOp_commits (State.ctx_group h.ctx) hl hr hm, hk, issueA_room ht])

theorem execKeygenDestroy_answers (h : Issuing (.keygenDestroy d a) c s)
    (hk : (c.commit s false).keyDestroy c.bez (c.s a).toNat = (t, x)) (ht : c.RoomA t) :
    execKeygenDestroy d a s = .next (c.past (c.opA t [.scal (sdstNum d) x] .ready true)) :=
  issue_ok h (by simp only [slotArg_some h0 hn, keyOp_commits (State.ctx_group h.ctx) hl hr hm, hk, issueA_room ht])

theorem execKeyseal_answers (h : Issuing (.keyseal d a b) c s) (hb : (c.s b).toNat < 16)
    (hk : (c.commit s false).keySealTo c.bez (c.s a).toNat (c.s b).toNat = (t, x)) (ht : c.RoomA t) :
    execKeyseal d a b s = .next (c.past (c.opA t [.scal (sdstNum d) x] .ready true)) :=
  issue_ok h (by simp only [slotArg_some h0 hn, decide_eq_true hb, Bool.and_self, keyOp_commits (State.ctx_group h.ctx) hl hr hm, hk, issueA_room ht])

end Slots

theorem State.key_denied (hd : keyDenied z (s.keySlot n) = true) : s.keyBegin z n h = (s, some 4) ∧ s.keyDestroy z n = (s, 4) :=
  ⟨if_pos hd, if_pos hd⟩

theorem State.keyBegin_busy (hd : keyDenied z (s.keySlot n) = false) (hst : (s.keySlot n).st ≠ .empty) : s.keyBegin z n h = (s, some 2) := by
  simp [State.keyBegin, hd, hst]

theorem State.keyBegin_draws (hd : keyDenied z (s.keySlot n) = false) (hst : (s.keySlot n).st = .empty) (hg : s.gen = .healthy) :
    s.keyBegin z n h = (s.putKey { s.keySlot n with st := .generating }, none) := by
  simp [State.keyBegin, hd, hst, hg]

theorem State.keyDestroy_busy (hd : keyDenied z (s.keySlot n) = false)
    (hst : (s.keySlot n).st = .generating ∨ (s.keySlot n).st = .ready ∧ s.keyInUse n = true) : s.keyDestroy z n = (s, 2) := by
  obtain hst | ⟨hst, hu⟩ := hst
  · simp [State.keyDestroy, hd, hst]
  · simp [State.keyDestroy, hd, hst, hu]

theorem State.keyDestroy_clears (hd : keyDenied z (s.keySlot n) = false) (hst : (s.keySlot n).st = .ready) (hu : s.keyInUse n = false) :
    s.keyDestroy z n = (s.clearSlot n, 0) := by
  simp [State.keyDestroy, hd, hst, hu]

theorem State.keySealTo_seals (hs : (s.keySlot n).sealed = none) (hm : m = z.num ∨ z.operator = true) :
    s.keySealTo z n m = (s.putKey { s.keySlot n with sealed := some m }, BitVec.ofNat 64 (m * 4096 + n)) := by
  have hmay : ¬ (m ≠ z.num ∧ (!z.operator) = true) := by
    rintro ⟨hne, ho⟩
    simp [hm.resolve_left hne] at ho
  simp only [State.keySealTo, if_neg hmay, hs] <;>
  rfl

/-! ### The draw and the generator (R354, R356) -/

theorem State.keyDrawComplete_pass (hst : (s.keySlot n).st = .generating) (h1 : s1 = (s.writeKeys n).keyStatus n 0) :
    s.keyDrawComplete n true = some ((s1.keyWaiters n).foldl (fun s p => s.tryAdmit p.1 p.2) s1) := by
  simp [State.keyDrawComplete, hst, h1]

theorem State.keyDrawComplete_fail (hst : (s.keySlot n).st = .generating)
    (h1 : s1 = ((s.genDraw false).putKey { slot := n, sealed := (s.keySlot n).sealed }).keyStatus n 1) : s.keyDrawComplete n false =
      some ((s1.keyWaiters n).foldl (fun s p => (s.modKernel p.1 p.2 fun k => { k with err := 8 }).endKernel p.1 p.2) s1) := by
  simp [State.keyDrawComplete, hst, h1]

theorem State.retest_idle {pass : Bool} (hg : s.gen ≠ .retesting) : s.retest pass = none := by
  simp [State.retest, hg]

theorem State.retest_passes (hg : s.gen = .retesting) : s.retest true = some ({ s with gen := .healthy, fails := 0 }.locket 0 6 0x100 0 0) := by
  simp [State.retest, hg]

theorem State.retest_fails (hg : s.gen = .retesting) (hf : s.fails < 2) :
    s.retest false = some ({ s with fails := s.fails + 1 }.locket 0 6 (0x100 + (s.fails + 1)) 0 0) := by
  simp [State.retest, hg, hf]

theorem State.retest_fences (hg : s.gen = .retesting) (hf : 2 ≤ s.fails) :
    s.retest false = some ({ s with gen := .fenced, fails := 3 }.locket 0 6 0x103 0 0) := by
  simp [State.retest, hg, Nat.not_lt.2 hf]

end Keys

section Attesting

variable {s s1 s2 s3 t : State} {c : Ctx} {d a b : BitVec 8} {out : Nat → Place} {q : Place} {nonce : List Byte}

/-! ### `attest` (R357, R358; log entry 5) -/

theorem execAttest_empty (h : Issuing (.attest d a b) c s) (he : c.em = 0) (hr : c.g.sh = true ∨ c.RoomB s) :
    execAttest d a b s = .next (c.past (sign c s [c.s d, c.s a, c.s b])) :=
  issue_ok h (by simp only [he, if_true]; exact classB_nothing hr)

theorem execAttest_shadow (h : Issuing (.attest d a b) c s) (he : c.em ≠ 0) (hs : c.g.sh = true) (hm : c.MayCommit s) :
    execAttest d a b s = .next (c.past (sign c (c.commit s false) [c.s d, c.s a, c.s b])) := by
  have he' : ¬ c.em = 0#32 := he
  exact issue_ok h (by simp [he', hs, boundary_commit false hm, bind, Except.bind])

/-- The places of a report and of its nonce have been reached, and the task may commit (R358). -/
structure Attests (d a b : BitVec 8) (c : Ctx) (s s1 s2 : State) (out : Nat → Place) (q : Place) : Prop where
  issuing : Issuing (.attest d a b) c s
  lanes : ¬ c.em = 0#32
  leader : c.g.sh = false
  aligned : (c.s d).toNat % 4096 = 0
  room : c.RoomB s
  reaches : ∀ k < 16, c.Reaches s .store 256 (c.s d + BitVec.ofNat 64 (256 * k)) (out k)
  touched : s1 = s.touch c.bez c.core ((List.range 16).map fun k => c.s d + BitVec.ofNat 64 (256 * k))
  nonce : c.Reaches s1 .engine 64 (c.s a) q
  touched' : s2 = s1.touch c.bez c.core [c.s a]
  commits : c.MayCommit s2

/-- The 16 sectors of a report written to their places (R358). -/
def Ctx.writesReport (c : Ctx) (s : State) (rep : List Byte) (out : Nat → Place) : State :=
  (List.range 16).foldl (fun s i => s.engineWrite (c.issuer none none) c.team (out i) (slice rep (256 * i) 256) false) s

theorem Attests.execAttest_reports (h : Attests d a b c s s1 s2 out q) (h3 : s3 = ((c.commit s2 false).publish c.g c.core 3).checkPlaces c.handle [q])
    (hn : nonce = (if s3.placePoisoned q then (List.range 64).map fun k => s3.freeAt (2 ^ 77 + k) else s3.engineBytes s3.stepNo q 64))
    (ht : t = c.writesReport s3 (s3.report c.bez nonce (c.s b)) out) (hr : c.RoomB t) :
    execAttest d a b s = .next (c.past (sign c (c.opB t .ready) [c.s d, c.s a, c.s b])) := by
  have h64 := h.nonce.aligned
  have hg := State.ctx_group h.issuing.ctx
  have hout := checkLanes_reach (lanes := List.range 16) (ad := fun i => c.s d + BitVec.ofNat 64 (256 * i)) (pl := out)
    fun k hk => h.reaches k (List.mem_range.1 hk)
  have hnonce := checkLanes_reach (lanes := [0]) (ad := fun _ => c.s a) (pl := fun _ => q) fun _ _ => h.nonce
  rw [← h.touched] at hout
  simp only [List.map_cons, List.map_nil, ← h.touched'] at hnonce
  refine issue_ok h.issuing ?_
  subst ht hn h3
  simp only [h.leader, h.aligned, h64, gateB_room (t := s) hg h.room, hout, hnonce, boundary_commit false h.commits, List.foldl_map,
    List.map_cons, List.map_nil, ne_eq, not_true_eq_false, decide_false, Bool.false_and, Bool.false_eq_true, if_false, bind, Except.bind]
  exact (if_neg h.lanes).trans (issueB_room hr)

end Attesting

section Units

variable {s : State} {u : UnitId} {z : Bezel} {n m : Nat} {pass : Bool}

/-! ### Fenced units (R306, R363) -/

/-- The state in which the list of fenced units has `u` at its head. -/
def State.withFenced (s : State) (u : UnitId) : State := { s with fencedUnits := u :: s.fencedUnits }

/-- A unit in use that is not fenced (R306). -/
structure MayFence (s : State) (u : UnitId) (z : Bezel) : Prop where
  fresh : u ∉ s.fencedUnits
  valid : validUnit u = true
  member : s.unit u = .member z.num

theorem MayFence.checks (h : MayFence s u z) : ¬ (s.fencedUnits.contains u || s.unit u == .gone || !validUnit u) = true := by
  simp [h.fresh, h.valid, h.member]

/-- A fenced core ends the teams on it with UNCORR (R363). -/
theorem MayFence.fenceUnit_core (h : MayFence s (.core m) z) : s.fenceUnit (.core m) =
    ((s.withFenced (.core m)).teams.filter fun t => t.core == m && t.placed).foldl (fun s t => s.terminate { team := t.sid, grp := 0 } 19 12 0)
      ((s.withFenced (.core m)).locket (m / 64) 3 (Config.lockCode 1).toNat 0 (BitVec.ofNat 64 m)) :=
  if_neg h.checks

/-- A fenced slice leaves the hash of its bezels by a sweep (R363). -/
theorem MayFence.fenceUnit_slice (h : MayFence s (.slice m) z) : s.fenceUnit (.slice m) =
    ((s.bezels.filter fun b => (s.withFenced (.slice m)).memberOf (.slice m) b.num).foldl (fun s b => s.beginSweep b.num (m :: s.hashSlices b.num))
      (s.withFenced (.slice m))).locket (m / 48) 3 (Config.lockCode 2).toNat 0 (BitVec.ofNat 64 m) :=
  if_neg h.checks

/-- The engine of a fenced pseudo-channel (R341, R348). -/
def PvEngine.fencedOut (e : PvEngine) (ch : Nat) : PvEngine :=
  match e.cur with
  | some _ => { chan := ch, st := .fenced, lastErr := 4, completed := e.completed + 1 }
  | none => { e with st := .fenced }

/-- The engine of a fenced pseudo-channel ends its command with POISON (R363). -/
theorem MayFence.fenceUnit_chan (h : MayFence s (.chan m) z) : s.fenceUnit (.chan m) =
    ({ s.withFenced (.chan m) with
       engines := (s.engine m).fencedOut m :: s.engines.filter fun e => e.chan != m
       pvCmds := s.pvCmds.map fun p => if (s.engine m).cur == some p.id then { p with ended := p.ended ++ [(m, 4, (s.engine m).idx)] } else p } : State).locket
      (m / 192) 3 (Config.lockCode 3).toNat 0 (BitVec.ofNat 64 m) :=
  if_neg h.checks

/-- The sweeps that begin when the slice `m` is fenced, in some bezels. -/
def State.sweepsFrom (s : State) (m : Nat) (l : List Bezel) : State := l.foldl (fun s b => s.beginSweep b.num (m :: s.hashSlices b.num)) s

theorem State.sweepsFrom_fencedUnits (s : State) (m : Nat) (l : List Bezel) : (s.sweepsFrom m l).fencedUnits = s.fencedUnits :=
  State.foldl_keeps State.fencedUnits (fun s (b : Bezel) => s.modBezel_fencedUnits b.num _) l s

theorem State.sweepsFrom_units (s : State) (m : Nat) (l : List Bezel) : (s.sweepsFrom m l).units = s.units :=
  State.foldl_keeps State.units (fun s (b : Bezel) => s.modBezel_units b.num _) l s

/-- A sweep of bezel `n` that gives up the slice `m` is under way. -/
def State.SweepsOut (s : State) (n m : Nat) : Prop := ∃ x ∈ s.bezels, x.num = n ∧ x.sweep = true ∧ m ∈ x.oldSlices

/-- A sweep that begins leaves those under way. -/
theorem State.SweepsOut.beginSweep (h : s.SweepsOut n m) (b : Nat) (old : List Nat) : (s.beginSweep b old).SweepsOut n m := by
  obtain ⟨x, hx, hn, hs, hm⟩ := h
  by_cases hb : x.num == b
  · exact ⟨{ x with sweep := true, oldSlices := (old ++ x.oldSlices).eraseDups }, List.mem_map.2 ⟨x, hx, if_pos hb⟩, hn, rfl, by simp [hm]⟩
  · exact ⟨x, List.mem_map.2 ⟨x, hx, if_neg hb⟩, hn, hs, hm⟩

/-- A sweep begins in a bezel of the state. -/
theorem State.sweepsOut_beginSweep {old : List Nat} (hn : ∃ x ∈ s.bezels, x.num = n) (hm : m ∈ old) : (s.beginSweep n old).SweepsOut n m := by
  obtain ⟨x, hx, hxn⟩ := hn
  exact ⟨{ x with sweep := true, oldSlices := (old ++ x.oldSlices).eraseDups }, List.mem_map.2 ⟨x, hx, if_pos (by simp [hxn])⟩, hxn, rfl, by simp [hm]⟩

theorem State.SweepsOut.sweepsFrom (l : List Bezel) (h : s.SweepsOut n m) : (s.sweepsFrom m l).SweepsOut n m := by
  induction l generalizing s with
  | nil => exact h
  | cons b l ih => exact ih (h.beginSweep _ _)

theorem State.sweepsOut_sweepsFrom (l : List Bezel) (hn : ∃ x ∈ s.bezels, x.num = n) (hl : ∃ b ∈ l, b.num = n) :
    (s.sweepsFrom m l).SweepsOut n m := by
  induction l generalizing s with
  | nil => simp at hl
  | cons b l ih =>
    by_cases hb : b.num = n
    · subst hb
      exact State.SweepsOut.sweepsFrom l (State.sweepsOut_beginSweep hn List.mem_cons_self)
    · obtain ⟨x, hx, hxn⟩ := hn
      obtain ⟨b', hb', hbn⟩ := hl
      refine ih ⟨x, List.mem_map.2 ⟨x, hx, if_neg (by simp [hxn, Ne.symm hb])⟩, hxn⟩ ⟨b', ?_, hbn⟩
      exact (List.mem_cons.1 hb').resolve_left fun h => hb (h ▸ hbn)

/-- A fenced unit is in the list of the fenced ones. -/
theorem MayFence.mem_fencedUnits (h : MayFence s u z) : u ∈ (s.fenceUnit u).fencedUnits := by
  cases u with
  | core m =>
    rw [h.fenceUnit_core, State.foldl_keeps State.fencedUnits (fun s _ => s.terminate_fencedUnits _ _ _ _), State.locket_fencedUnits]
    exact List.mem_cons_self
  | slice m =>
    rw [h.fenceUnit_slice, State.locket_fencedUnits]
    exact (State.sweepsFrom_fencedUnits _ _ _).symm ▸ List.mem_cons_self
  | chan m =>
    rw [h.fenceUnit_chan, State.locket_fencedUnits]
    exact List.mem_cons_self

/-- The state of a unit stands in the list of units. -/
theorem State.unit_of_units {s t : State} (h : t.units = s.units) (u : UnitId) : t.unit u = s.unit u := by
  simp only [State.unit, h]

/-- A fenced slice or pseudo-channel keeps its bezel (R306). -/
theorem MayFence.unit_eq (h : MayFence s u z) (hc : ∀ m, u ≠ .core m) : (s.fenceUnit u).unit u = .member z.num := by
  refine (State.unit_of_units ?_ u).trans h.member
  cases u with
  | core m => exact absurd rfl (hc m)
  | slice m =>
    rw [h.fenceUnit_slice, State.locket_units]
    exact State.sweepsFrom_units _ _ _
  | chan m =>
    rw [h.fenceUnit_chan, State.locket_units]
    rfl

theorem MayFence.sweepsOut (h : MayFence s (.slice m) z) (hz : z ∈ s.bezels) : (s.fenceUnit (.slice m)).SweepsOut z.num m := by
  rw [h.fenceUnit_slice]
  have hmem : (s.withFenced (.slice m)).memberOf (.slice m) z.num = true := by
    have hu : (s.withFenced (.slice m)).unit (.slice m) = .member z.num := h.member
    simp [State.memberOf, hu]
  exact State.sweepsOut_sweepsFrom (s := s.withFenced (.slice m)) _ ⟨z, hz, rfl⟩ ⟨z, List.mem_filter.2 ⟨hz, hmem⟩, rfl⟩

theorem PvEngine.fencedOut_st (e : PvEngine) (ch : Nat) : (e.fencedOut ch).st = .fenced := by
  unfold PvEngine.fencedOut; split <;> rfl

theorem PvEngine.fencedOut_chan {e : PvEngine} {ch : Nat} (h : e.chan = ch) : (e.fencedOut ch).chan = ch := by
  unfold PvEngine.fencedOut; split
  · rfl
  · exact h

/-- The engine that stands first in the list under its channel is that of the channel. -/
theorem State.engine_of_head {t : State} {e : PvEngine} {l : List PvEngine} (h : t.engines = e :: l) : t.engine e.chan = e := by
  simp [State.engine, h]

theorem MayFence.engine_fenced (h : MayFence s (.chan m) z) : ((s.fenceUnit (.chan m)).engine m).st = .fenced := by
  have hchan := PvEngine.fencedOut_chan (s.engine_chan m)
  have hhead : (s.fenceUnit (.chan m)).engines = (s.engine m).fencedOut m :: s.engines.filter fun e => e.chan != m := by
    rw [h.fenceUnit_chan, State.locket_engines]
  have hengine := State.engine_of_head hhead
  rw [hchan] at hengine
  rw [hengine, PvEngine.fencedOut_st]

theorem MayFence.poisons {p : PvCmd} (h : MayFence s (.chan m) z) (hp : p ∈ s.pvCmds) (hc : (s.engine m).cur = some p.id) :
    { p with ended := p.ended ++ [(m, 4, (s.engine m).idx)] } ∈ (s.fenceUnit (.chan m)).pvCmds := by
  rw [h.fenceUnit_chan, State.locket_pvCmds]
  exact List.mem_map.2 ⟨p, hp, if_pos (by simp [hc])⟩

/-! ### Sweeps and scrubs (R307, R310, R315; log entry 24) -/

theorem State.rehashDone_idle (hz : s.bezel? n = some z) (hs : z.sweep = false) : s.rehashDone n = none := by
  simp [State.rehashDone, hz, hs]

theorem State.rehashDone_growing (hz : s.bezel? n = some z) (hs : z.sweep = true) (hst : z.st = .growing) : s.rehashDone n =
    some (((((s.sweepLines z).modBezel n fun x => { x with sweep := false, oldSlices := [] }).modBezel n fun x =>
      { x with st := .active, ticket := none })).completeTicket z.ticket) := by
  simp [State.rehashDone, hz, hs, hst]

theorem State.rehashDone_active (hz : s.bezel? n = some z) (hs : z.sweep = true) (hst : z.st = .active) :
    s.rehashDone n = some ((s.sweepLines z).modBezel n fun x => { x with sweep := false, oldSlices := [] }) := by
  simp [State.rehashDone, hz, hs, hst]

theorem State.scrubDone_quarantine (h : s.unit u = .quarantine) : s.scrubDone u = some ((s.scrub u).setUnit u .free) := by
  simp [State.scrubDone, h]

theorem State.scrubDone_other (h : s.unit u ≠ .quarantine) : s.scrubDone u = none := by
  simp [State.scrubDone, h]

/-- No byte of a scrubbed pseudo-channel is left (log entry 24). -/
theorem State.scrub_mem {ch x : Nat} (h : s.inChan ch x = true) : ∀ y ∈ (s.scrub (.chan ch)).mem, y.1 ≠ x := by
  rintro y hy rfl
  have hout := (List.mem_filter.1 hy).2
  simp [h] at hout

end Units

/-- Settles O54: `bzreq` through the request that it has read and its status (`Requests.execBzreq_eq`, `State.bzStatus_grow`), the key
instructions through the slot that they name, `attest` through the places that it reaches (`Attests`), a fenced unit through what its kind
sets going (`MayFence`), the events through the state-level steps. -/
theorem bezelsAndKeys : Obligations.BezelsAndKeys := by
  intro s s1 s2 s3 s4 t c d a b r cfg ctr n z u
  refine ⟨fun h hl hb h256 => execBzreq_misaligned h hl hb h256, fun h hl hb h256 hr hrd hcfg hctr hm h4 hn => ?_, fun x hz hc hu ho => ?_,
    fun i hi h ha => exec_key_illoperand hi h ha, fun h hb => execKeyseal_illoperand h hb, fun hn h0 hlt hl hr hm h1 => ?_,
    fun h => ⟨State.key_denied, State.keyBegin_busy, State.keyBegin_draws, State.keyDestroy_busy, State.keyDestroy_clears,
      fun m => State.keySealTo_seals⟩,
    fun out q nonce h => ⟨execAttest_empty h, execAttest_shadow h, fun he hl h64 hr hre h1 hq h2 hm h3 hno ht hrt => ?_⟩,
    fun hfresh hvalid hmem => ?_,
    fun hin hz => ⟨fun hs => eventStep_none hin (State.rehashDone_idle hz hs), fun hs hst => eventStep_ok hin (State.rehashDone_growing hz hs hst),
      fun hs hst => eventStep_ok hin (State.rehashDone_active hz hs hst)⟩,
    fun u hin => ⟨fun hu => eventStep_ok hin (State.scrubDone_quarantine hu), fun hu => eventStep_none hin (State.scrubDone_other hu),
      fun ch x hch hx => hch ▸ State.scrub_mem hx⟩,
    fun hst => ⟨fun h1 hin => eventStep_ok hin (State.keyDrawComplete_pass hst h1), fun h1 hin => eventStep_ok hin (State.keyDrawComplete_fail hst h1)⟩,
    fun pass hin => ⟨fun hg => eventStep_none hin (State.retest_idle hg), fun hg hp => ?_, fun hg hp hf => ?_, fun hg hp hf => ?_⟩⟩
  · have hreq : Requests d a c s s1 s2 s3 r cfg ctr := ⟨h, hl, hb, h256, hr, hrd, hcfg, hctr, hm⟩
    rw [exec_bzreq, hreq.execBzreq_eq, ← h4]
    refine ⟨fun h0 hr4 => ?_, fun h0 hc hr4 => ?_, fun o k h0 hc hd hrt => ?_, fun o h0 hc hd hr4 => ?_⟩
    · rw [answersRequest_refused hn h0 hr4]; rfl
    · rw [answersRequest_plain (hn.symm.trans h0) hc hr4]; rfl
    · rw [answersRequest_ticket (hn.symm.trans h0) hc hd hrt]; rfl
    · rw [answersRequest_waits (hn.symm.trans h0) hc hd hr4]; rfl
  · rw [State.bzStatus_grow hz hc hu ho]
    refine ⟨fun hx => if_pos hx, fun hx hst => ?_, fun hx hst hf => ?_, fun hx hst hf => ?_⟩
    · rw [if_neg (by simp [hx]), if_pos hst]
    · rw [if_neg (by simp [hx]), if_neg (by simp [hst]), if_pos hf]
    · rw [if_neg (by simp [hx]), if_neg (by simp [hst]), if_neg (by simpa using hf)]
  · subst hn h1
    exact ⟨fun x h hk ht => execKeygenGenerate_answers h0 hlt hl hr hm h hk ht, fun h hk ht => execKeygenGenerate_draws h0 hlt hl hr hm h hk ht,
      fun x h hk ht => execKeygenDestroy_answers h0 hlt hl hr hm h hk ht, fun x h hb hk ht => execKeyseal_answers h0 hlt hl hr hm h hb hk ht⟩
  · exact Attests.execAttest_reports ⟨h, he, hl, h64, hr, hre, h1, hq, h2, hm⟩ h3 hno ht hrt
  · have hfence : MayFence s u z := ⟨hfresh, hvalid, hmem⟩
    refine ⟨hfence.mem_fencedUnits, hfence.unit_eq, fun m hu hz => ?_, fun m hu => ?_⟩
    · subst hu
      exact hfence.sweepsOut hz
    · subst hu
      exact ⟨hfence.engine_fenced, fun p hp hc => hfence.poisons hp hc⟩
  · subst hp
    exact eventStep_ok hin (State.retest_passes hg)
  · subst hp
    exact eventStep_ok hin (State.retest_fails hg hf)
  · subst hp
    exact eventStep_ok hin (State.retest_fences hg hf)

end Sys2Proof.Machine
end
